-- ==== Sys2Proof/Word.lean ====
section
/-! DEFINITION. The word types of the RZ6: a register is 32 bits wide (R459), memory is addressed by bytes. -/

namespace Sys2Proof

/-- A register word of the CSR space (R459). -/
abbrev Word := BitVec 32

/-- One byte, the smallest addressable unit of the device address space (R457). -/
abbrev Byte := BitVec 8

end Sys2Proof
end

