-- ==== Sys2Proof/Syntax.lean ====
section
/-! DEFINITION. The commands of the RZ6, one constructor of `Instr` for each row of the spec's opcode table, in the
table's order. What the world outside decides (a sample, a received frame, whether a check held) is an operand. -/

namespace Sys2Proof

/-- The sender of a host message (R85): the port it arrived on, its SID and its TAG. -/
structure Req where
  port : Fin 2
  sid : Fin 4
  tag : BitVec 16
deriving DecidableEq, Repr

/-- What the FEC of the codeword that held a cell did (R79). -/
inductive FecResult where
  | clean
  | corrected
  | uncorrectable
deriving DecidableEq, Repr

/-- An optical receiver (R33, R34): a camera uplink, a host link lane, a safety port. -/
inductive Receiver where
  | cam (n : Fin 12)
  | hl (port : Fin 2) (lane : Fin 4)
  | sl (port : Fin 2)
deriving DecidableEq, Repr

/-- An optical transmitter (R35). -/
inductive Transmitter where
  | cam (n : Fin 12)
  | hl (port : Fin 2) (lane : Fin 4)
  | sl (port : Fin 2)
deriving DecidableEq, Repr

/-- What the SRAM checks met while a command read its operands (R334, R335, R338): nothing, words corrected, or an
error at a byte offset of the unit's scratchpad (`inCmem`: of its cluster's memory). -/
inductive SramCheck where
  | clean
  | corrected (inCmem : Bool) (words : Nat)
  | uncorrectable (inCmem : Bool) (offset : Nat)
  | detect (offset : Nat)
deriving DecidableEq, Repr

/-- An array with a scrubber of its own (R336). -/
inductive SramArray where
  | scratchpad (u : Fin 24)
  | clusterMem (c : Fin 6)
deriving DecidableEq, Repr

/-- What the EDC checksum of a GDDR6 burst did (R360): held, held at the n-th repeat, never held. -/
inductive EdcResult where
  | clean
  | retried (repeats : Fin 4)
  | exhausted
deriving DecidableEq, Repr

/-- What SECDED found in an engine's line memory while a strip was formed (R174, R191, R203, R218, R225, chapter 06):
words corrected, or an uncorrectable row. `input` of an uncorrectable row: for stereo 0 left, 1 right, 2 path state; for
flow the level of the current frame, or 8 more for the reference; for a pyramid the level; else 0. -/
inductive LineCheck where
  | clean
  | corrected (words : Nat)
  | uncorrectable (input row : Nat)
deriving DecidableEq, Repr

/-- Who made a GDDR6 access (R359): a locked node or stream, an open task, a host message, patrol. -/
inductive MemReader where
  | locked (node : Nat)
  | task (ctx : Fin 16)
  | stream (u : Fin 24) (ch : Fin 8)
  | host
  | patrol
deriving DecidableEq, Repr

/-- What a self-test runs on (R420). -/
inductive TestInstance where
  | unit (u : Fin 24)
  | cluster (c : Fin 6)
  | ife
  | channel (n : Fin 16)
  | central
  | plinth
deriving DecidableEq, Repr

/-- The commands: one constructor for each row of spec/opcode_table.json. -/
inductive Instr where
  /-- POWER_ON (R51). -/
  | powerOn
  /-- POWER_ON_RELEASE (R51). -/
  | powerOnRelease (boot clkm : Fin 4) (resetHigh : Bool)
  /-- PLINTH_STARTUP_CHECK (R52). -/
  | plinthStartupCheck (ok : Bool)
  /-- BEAT_BOUNDARY (R6). -/
  | beatBoundary (vin : BitVec 16) (temps : List Int)
  /-- RETRAIN_CYCLE_END (R362). -/
  | retrainCycleEnd (ch : Fin 16) (margin : Nat)
  /-- RECORD_LATCH (R238). -/
  | recordLatch (halvesAgree : Bool)
  /-- RECORD_EMIT (R11). -/
  | recordEmit
  /-- FAULT_WINDOW (R396). -/
  | faultWindow
  /-- SAFE_MARK (R396). -/
  | safeMark
  /-- RESET_N_FALL (R60). -/
  | resetNFall
  /-- RESET_N_RISE (R55). -/
  | resetNRise (boot clkm : Fin 4)
  /-- WARM_RESET_BEGIN (R59). -/
  | warmResetBegin
  /-- WARM_RESTART (R59). -/
  | warmRestart
  /-- PDC_ON_REQ (R43). -/
  | pdcOnReq (rq : Req) (second : Bool) (value mask : Word)
  /-- PDC_RAMP_START (R43). -/
  | pdcRampStart
  /-- DOMAIN_READY (R42). -/
  | domainReady (pd : Fin 39)
  /-- DOMAIN_WAKE_TIMEOUT (R44). -/
  | domainWakeTimeout (pd : Fin 39)
  /-- POWER_GOOD_LOST (R44). -/
  | powerGoodLost (pd : Fin 39)
  /-- PDC_IDLE_OFF (R44). -/
  | pdcIdleOff (u : Fin 24)
  /-- SLEEP_ENTER (R45). -/
  | sleepEnter (rq : Req) (value mask : Word)
  /-- WAKE_TIMER (R47). -/
  | wakeTimer
  /-- WAKE_PD38_START (R47). -/
  | wakePd38Start
  /-- REGULATOR_PROTECTION (R474). -/
  | regulatorProtection
  /-- POWER_ON_DETECTOR_STOP (R41). -/
  | powerOnDetectorStop
  /-- THERMAL_TRIP (R50). -/
  | thermalTrip (sensor : Fin 15)
  /-- AON_THERMAL_STOP (R50). -/
  | aonThermalStop
  /-- REF_LOSS (R49). -/
  | refLoss
  /-- CLK_REVERT (R49). -/
  | clkRevert (rq : Req) (value mask : Word) (refPresent : Bool)
  /-- CLKM_FIRST_LOCK (R48). -/
  | clkmFirstLock
  /-- LOSS_OF_SIGNAL_ASSERT (R34). -/
  | lossOfSignalAssert (rx : Receiver)
  /-- LOSS_OF_SIGNAL_DEASSERT (R34). -/
  | lossOfSignalDeassert (rx : Receiver)
  /-- LASER_EOL (R35). -/
  | laserEol (tx : Transmitter)
  /-- FIRMWARE_VERIFY (R57). -/
  | firmwareVerify (readError : Bool)
  /-- OPTION_PASS (R68). -/
  | optionPass (readError : Bool)
  /-- BLK_SWRST (R71). -/
  | blkSwrst (rq : Req) (page : BitVec 12) (value mask : Word)
  /-- BLK_RESET_IDLE (R71). -/
  | blkResetIdle (page : BitVec 12) (clocks : Nat)
  /-- BLK_RESET_FORCED (R71). -/
  | blkResetForced (page : BitVec 12)
  /-- BLK_RESET_DONE (R72). -/
  | blkResetDone (page : BitVec 12)
  /-- BLK_EN_WRITE (R464). -/
  | blkEnWrite (rq : Req) (page : BitVec 12) (value mask : Word)
  /-- BLK_COMMIT_GO (R466). -/
  | blkCommitGo (rq : Req) (page : BitVec 12) (value mask : Word)
  /-- COMMIT_APPLY (R466). -/
  | commitApply (page : BitVec 12) (ctx : Nat)
  /-- BLK_EVT_STAT_CLEAR (R465). -/
  | blkEvtStatClear (rq : Req) (page : BitVec 12) (value mask : Word)
  /-- BLK_EVT_MASK_WRITE (R465). -/
  | blkEvtMaskWrite (rq : Req) (page : BitVec 12) (value mask : Word)
  /-- CNT_CLR (R124). -/
  | cntClr (rq : Req) (page : BitVec 12) (value mask : Word)
  /-- PLAIN_REGISTER_WRITE (R89). -/
  | plainRegisterWrite (rq : Req) (off : BitVec 24) (pairs : List (Word × Word))
  /-- REG_RD (R88). -/
  | regRd (rq : Req) (off : BitVec 24) (count : BitVec 5)
  /-- DEV_BEAT_READ (R472). -/
  | devBeatRead (rq : Req)
  /-- HL_BLOCK_LOCK (R75). -/
  | hlBlockLock (port : Fin 2) (rxLanes partnerLanes : BitVec 4)
  /-- HELLO (R77). -/
  | hello (port : Fin 2) (versions : BitVec 16) (lockMask : BitVec 4) (width : BitVec 2)
  /-- HELLO_RESEND (R77). -/
  | helloResend (port : Fin 2)
  /-- CELL_RECEIVE (R79). -/
  | cellReceive (port : Fin 2) (cell : List Byte) (fec : FecResult)
  /-- NAK (R79). -/
  | nak (port : Fin 2) (lseq : BitVec 12)
  /-- REPLAY_TMO (R79). -/
  | replayTmo (port : Fin 2)
  /-- CREDIT (R83). -/
  | credit (port : Fin 2) (inc0 inc1 inc2 inc3 : BitVec 16)
  /-- IDLE (R82). -/
  | idle (port : Fin 2)
  /-- RETRAIN (R80). -/
  | retrain (rq : Req) (port : Fin 2) (value mask : Word)
  /-- RETRAIN_DONE (R80). -/
  | retrainDone (port : Fin 2) (rxLanes partnerLanes : BitVec 4)
  /-- RETRAIN_TIMEOUT (R81). -/
  | retrainTimeout (port : Fin 2)
  /-- LANES_DARK_TIMEOUT (R81). -/
  | lanesDarkTimeout (port : Fin 2)
  /-- KEEPALIVE (R82). -/
  | keepalive (port : Fin 2)
  /-- MEM_RD (R90). -/
  | memRd (rq : Req) (addr : BitVec 64) (len : BitVec 16)
  /-- MEM_WR (R90). -/
  | memWr (rq : Req) (addr : BitVec 64) (data : List Byte)
  /-- HOST_COMPLETION (R92). -/
  | hostCompletion (port : Fin 2) (tag status : BitVec 16) (data : List Byte)
  /-- HOST_TIMEOUT (R92). -/
  | hostTimeout (port : Fin 2) (tag : BitVec 16)
  /-- JOB_SUBMIT (R93). -/
  | jobSubmit (rq : Req) (param : BitVec 16) (body : List Byte)
  /-- JOB_INTAKE_ADMIT (R86). -/
  | jobIntakeAdmit (port : Fin 2)
  /-- SESSION_OPEN (R99). -/
  | sessionOpen (rq : Req) (role : Fin 4)
  /-- SESSION_RESPONSE (R99). -/
  | sessionResponse (rq : Req) (signatures : List Byte)
  /-- SESSION_RESULT (R99). -/
  | sessionResult (port : Fin 2)
  /-- LOCKOUT_END (R101). -/
  | lockoutEnd (port : Fin 2)
  /-- NONCE_EXPIRE (R99). -/
  | nonceExpire (port : Fin 2)
  /-- SESSION_CLOSE (R100). -/
  | sessionClose (rq : Req)
  /-- REC_COPY (R98). -/
  | recCopy (rq : Req) (param : BitVec 16)
  /-- EVT_LOSS (R97). -/
  | evtLoss (port : Fin 2)
  /-- BOOT_BEGIN (R102). -/
  | bootBegin (rq : Req) (header : List Byte)
  /-- BOOT_BEGIN_READY (R102). -/
  | bootBeginReady
  /-- BOOT_CHUNK (R102). -/
  | bootChunk (rq : Req) (offset : BitVec 64) (data : List Byte)
  /-- BOOT_END (R102). -/
  | bootEnd (rq : Req)
  /-- CP_BLOCK_LOCK (R103). -/
  | cpBlockLock (cam : Fin 12)
  /-- CP_LOCK_LOSS (R103). -/
  | cpLockLoss (cam : Fin 12)
  /-- TRANSPORT_PACKET (R104). -/
  | transportPacket (cam : Fin 12) (packet : List Byte)
  /-- FS (R115). -/
  | fs (cam : Fin 12) (vc : Fin 16) (frameNo : BitVec 16)
  /-- FE (R115). -/
  | fe (cam : Fin 12) (vc : Fin 16) (frameNo : BitVec 16)
  /-- LS_LE (R107). -/
  | lsLe (cam : Fin 12) (vc : Fin 16) (lineEnd : Bool) (line : BitVec 16)
  /-- LONG_PACKET (R109). -/
  | longPacket (cam : Fin 12) (header payload : List Byte) (crc : BitVec 16)
  /-- ROW_DEADLINE (R116). -/
  | rowDeadline (stream : Fin 32) (frame row : Nat)
  /-- FS_DEADLINE (R119). -/
  | fsDeadline (stream : Fin 32) (frame : Nat)
  /-- TUN_PUSH (R121). -/
  | tunPush (rq : Req) (value mask : Word)
  /-- TUNNEL_SEND (R122). -/
  | tunnelSend (cam : Fin 12)
  /-- TUNNEL_ACK (R123). -/
  | tunnelAck (cam : Fin 12) (seq status : Nat)
  /-- TUN_ACK_TMO (R123). -/
  | tunAckTmo (cam : Fin 12)
  /-- PORT_EN (R124). -/
  | portEn (rq : Req) (value mask : Word)
  /-- IFE_FRAME_START (R148). -/
  | ifeFrameStart (ctx : Fin 8) (frame : Nat)
  /-- PQ_PUSH (R150). -/
  | pqPush (rq : Req) (value mask : Word)
  /-- NODE_START_CLOCK (R243). -/
  | nodeStartClock (node strip : Nat)
  /-- RERUN_START (R338). -/
  | rerunStart (node : Nat)
  /-- NODE_FLAG_CLOCK (R242). -/
  | nodeFlagClock (node strip : Nat) (finished : Bool) (lineMem : LineCheck)
  /-- RECORD_WRITE (R237). -/
  | recordWrite (node strip : Nat)
  /-- NODE_DISPATCH (R262). -/
  | nodeDispatch (u : Fin 24)
  /-- NODE_COMPLETE (R244). -/
  | nodeComplete (u : Fin 24) (slot : Nat) (lineMem : LineCheck)
  /-- MATMUL (R270). -/
  | matmul (u : Fin 24) (slot : Nat) (obs : SramCheck)
  /-- CONV (R268). -/
  | conv (u : Fin 24) (slot : Nat) (obs : SramCheck)
  /-- ELTWISE_ADD (R267). -/
  | eltwiseAdd (u : Fin 24) (slot : Nat) (obs : SramCheck)
  /-- ELTWISE_SUB (R267). -/
  | eltwiseSub (u : Fin 24) (slot : Nat) (obs : SramCheck)
  /-- ELTWISE_MUL (R267). -/
  | eltwiseMul (u : Fin 24) (slot : Nat) (obs : SramCheck)
  /-- ELTWISE_MAX (R267). -/
  | eltwiseMax (u : Fin 24) (slot : Nat) (obs : SramCheck)
  /-- ELTWISE_MIN (R267). -/
  | eltwiseMin (u : Fin 24) (slot : Nat) (obs : SramCheck)
  /-- FMA (R267). -/
  | fma (u : Fin 24) (slot : Nat) (obs : SramCheck)
  /-- SCALE_BIAS (R267). -/
  | scaleBias (u : Fin 24) (slot : Nat) (obs : SramCheck)
  /-- ABS (R267). -/
  | abs (u : Fin 24) (slot : Nat) (obs : SramCheck)
  /-- NEG (R267). -/
  | neg (u : Fin 24) (slot : Nat) (obs : SramCheck)
  /-- CLAMP (R267). -/
  | clamp (u : Fin 24) (slot : Nat) (obs : SramCheck)
  /-- SELECT (R267). -/
  | select (u : Fin 24) (slot : Nat) (obs : SramCheck)
  /-- CMPGT (R267). -/
  | cmpgt (u : Fin 24) (slot : Nat) (obs : SramCheck)
  /-- SHIFT (R267). -/
  | shift (u : Fin 24) (slot : Nat) (obs : SramCheck)
  /-- REDUCE_SUM (R273). -/
  | reduceSum (u : Fin 24) (slot : Nat) (obs : SramCheck)
  /-- REDUCE_SUMSQ (R273). -/
  | reduceSumsq (u : Fin 24) (slot : Nat) (obs : SramCheck)
  /-- REDUCE_MAX (R273). -/
  | reduceMax (u : Fin 24) (slot : Nat) (obs : SramCheck)
  /-- REDUCE_MIN (R273). -/
  | reduceMin (u : Fin 24) (slot : Nat) (obs : SramCheck)
  /-- ARGMAX (R273). -/
  | argmax (u : Fin 24) (slot : Nat) (obs : SramCheck)
  /-- LUT_PWL (R275). -/
  | lutPwl (u : Fin 24) (slot : Nat) (obs : SramCheck)
  /-- LUT_DIRECT (R275). -/
  | lutDirect (u : Fin 24) (slot : Nat) (obs : SramCheck)
  /-- NORM_LAYER (R274). -/
  | normLayer (u : Fin 24) (slot : Nat) (obs : SramCheck)
  /-- NORM_RMS (R274). -/
  | normRms (u : Fin 24) (slot : Nat) (obs : SramCheck)
  /-- NORM_L2 (R274). -/
  | normL2 (u : Fin 24) (slot : Nat) (obs : SramCheck)
  /-- SOFTMAX (R274). -/
  | softmax (u : Fin 24) (slot : Nat) (obs : SramCheck)
  /-- LOGSOFTMAX (R274). -/
  | logsoftmax (u : Fin 24) (slot : Nat) (obs : SramCheck)
  /-- GATHER (R323). -/
  | gather (u : Fin 24) (slot : Nat) (obs : SramCheck)
  /-- SCATTER (R324). -/
  | scatter (u : Fin 24) (slot : Nat) (obs : SramCheck)
  /-- TRANSPOSE (R313). -/
  | transpose (u : Fin 24) (slot : Nat) (obs : SramCheck)
  /-- PERMUTE (R313). -/
  | permute (u : Fin 24) (slot : Nat) (obs : SramCheck)
  /-- CONVERT (R302). -/
  | convert (u : Fin 24) (slot : Nat) (obs : SramCheck)
  /-- COPY (R310). -/
  | copy (u : Fin 24) (slot : Nat) (obs : SramCheck)
  /-- SET_FLAG (R267). -/
  | setFlag (u : Fin 24) (slot : Nat)
  /-- DECREMENT (R267). -/
  | decrement (u : Fin 24) (slot : Nat)
  /-- FENCE (R267). -/
  | fence (u : Fin 24) (slot : Nat)
  /-- CHAIN_COMPLETE (R283). -/
  | chainComplete (u : Fin 24) (slot : Nat)
  /-- ORDERED_COMBINE (R279). -/
  | orderedCombine (clu : Fin 6)
  /-- OPEN_RERUN (R339). -/
  | openRerun (u : Fin 24) (slot : Nat)
  /-- SCRUB_PASS (R336). -/
  | scrubPass (arr : SramArray) (beats : Nat) (corrected : List Nat) (detIdle : Nat)
  /-- SEGMENT_WIPE_DONE (R345). -/
  | segmentWipeDone (arr : SramArray) (seg : Nat)
  /-- PM_CAPTURE_DONE (R347). -/
  | pmCaptureDone
  /-- PM_RELEASE (R347). -/
  | pmRelease (rq : Req) (value mask : Word)
  /-- RING_WAIT_RELEASE (R342). -/
  | ringWaitRelease (u : Fin 24) (slot : Nat)
  /-- RING_WATCHDOG (R343). -/
  | ringWatchdog (u : Fin 24) (slot : Nat)
  /-- STREAM_ARM (R370). -/
  | streamArm (rq : Req) (u : Fin 24) (ch : Fin 8) (value mask : Word)
  /-- STREAM_BLOCK_DONE (R371). -/
  | streamBlockDone (u : Fin 24) (ch : Fin 8)
  /-- STREAM_LATE (R372). -/
  | streamLate (u : Fin 24) (ch : Fin 8)
  /-- MMU_WALK_DONE (R365). -/
  | mmuWalkDone (u : Fin 24) (ch : Fin 8)
  /-- RESUME_CTX (R374). -/
  | resumeCtx (rq : Req) (value mask : Word)
  /-- PF_WAIT_EXPIRE (R374). -/
  | pfWaitExpire (u : Fin 24) (ch : Fin 8)
  /-- INV_CTX (R365). -/
  | invCtx (rq : Req) (value mask : Word)
  /-- GDDR_ACCESS_DONE (R359). -/
  | gddrAccessDone (addr : BitVec 64) (write : Bool) (badBytes : Nat) (edc : EdcResult) (reader : MemReader)
  /-- BOD_ENT_WRITE (R320). -/
  | bodEntWrite (rq : Req) (value mask : Word)
  /-- BOD_ENT_READ (R327). -/
  | bodEntRead (rq : Req)
  /-- BULK_GO (R327). -/
  | bulkGo (rq : Req) (value mask : Word)
  /-- BULK_DONE (R327). -/
  | bulkDone
  /-- LOAD (R248). -/
  | load (rq : Req) (value mask : Word)
  /-- LOAD_ADDR (R248). -/
  | loadAddr (rq : Req) (value mask : Word)
  /-- LOAD_END (R249). -/
  | loadEnd
  /-- START (R250). -/
  | start (rq : Req) (value mask : Word)
  /-- ADMIT_BEGIN (R250). -/
  | admitBegin
  /-- STOP (R250). -/
  | stop (rq : Req) (value mask : Word)
  /-- STOP_EFFECT (R250). -/
  | stopEffect
  /-- SWAP (R251). -/
  | swap (rq : Req) (value mask : Word)
  /-- CLEAN_BOUNDARY (R251). -/
  | cleanBoundary
  /-- SWAP_WAIT_EXPIRE (R251). -/
  | swapWaitExpire
  /-- DISCARD (R249). -/
  | discard (rq : Req) (value mask : Word)
  /-- FALLBACK_ENTERED (R254). -/
  | fallbackEntered
  /-- FALLBACK_ABORT (R255). -/
  | fallbackAbort
  /-- TASK_START (R246). -/
  | taskStart
  /-- CANCEL_CTX (R247). -/
  | cancelCtx (rq : Req) (value mask : Word)
  /-- DIG_LOG_WRITE (R390). -/
  | digLogWrite
  /-- ODOMETRY (R397). -/
  | odometry (port : Fin 2) (aon : Nat) (frame : List Byte)
  /-- VTIME (R397). -/
  | vtime (port : Fin 2) (aon : Nat) (frame : List Byte)
  /-- INHIBIT (R410). -/
  | inhibit (port : Fin 2) (frame : List Byte)
  /-- CLEAR (R412). -/
  | clear (port : Fin 2) (frame : List Byte)
  /-- PLN_CLEAR (R412). -/
  | plnClear (rq : Req) (value mask : Word)
  /-- PLN_INHIBIT (R410). -/
  | plnInhibit (rq : Req) (value mask : Word)
  /-- RSP_QUANTUM_END (R420). -/
  | rspQuantumEnd (inst : TestInstance) (test : Nat) (signatureOk : Bool)
  /-- QUANTUM_CUT (R423). -/
  | quantumCut (inst : TestInstance) (test : Nat)
  /-- DI_MISSED (R426). -/
  | diMissed (inst : TestInstance) (test : Nat)
  /-- DI_EXPIRED (R426). -/
  | diExpired (inst : TestInstance) (test : Nat)
  /-- RSP_REQ (R425). -/
  | rspReq (rq : Req) (value mask : Word)
  /-- WRITE_FIRMWARE (R445). -/
  | writeFirmware (rq : Req) (value mask : Word)
  /-- WRITE_OPTIONS (R443). -/
  | writeOptions (rq : Req) (value mask : Word)
  /-- WRITE_GRAPH (R443). -/
  | writeGraph (rq : Req) (value mask : Word)
  /-- ERASE_GRAPH (R443). -/
  | eraseGraph (rq : Req) (value mask : Word)
  /-- WRITE_KEYS (R444). -/
  | writeKeys (rq : Req) (value mask : Word)
  /-- RAISE_FW_FLOOR (R443). -/
  | raiseFwFloor (rq : Req) (value mask : Word)
  /-- WRITE_FACTORY (R443). -/
  | writeFactory (rq : Req) (value mask : Word)
  /-- STORE_DONE (R443). -/
  | storeDone
  /-- ATT_GO (R441). -/
  | attGo (rq : Req) (value mask : Word)
  /-- ATT_DONE (R441). -/
  | attDone
  /-- AUD_GO (R454). -/
  | audGo (rq : Req) (value mask : Word)
  /-- AUD_DONE (R454). -/
  | audDone
  /-- AUD_CKPT (R452). -/
  | audCkpt (rq : Req) (value mask : Word)
  /-- AUDIT_DRAIN (R450). -/
  | auditDrain
  /-- LC_TO_PROVISIONED (R446). -/
  | lcToProvisioned (rq : Req) (value mask : Word)
  /-- LC_TO_SERVICE (R446). -/
  | lcToService (rq : Req) (value mask : Word)
  /-- LC_TO_DIAGNOSE (R446). -/
  | lcToDiagnose (rq : Req) (value mask : Word)
  /-- LC_TO_RETURN (R446). -/
  | lcToReturn (rq : Req) (value mask : Word)
  /-- LC_TO_SCRAPPED (R446). -/
  | lcToScrapped (rq : Req) (value mask : Word)
  /-- LC_CHANGED (R64). -/
  | lcChanged
  /-- AUDIT_PROGRAM_DONE (R450). -/
  | auditProgramDone
  /-- SCRUB_SLOW (R336). -/
  | scrubSlow (arr : SramArray)
deriving DecidableEq, Repr

end Sys2Proof
end

