-- ==== Sys2Proof/Decode.lean ====
section
/-! DEFINITION. Commands spelled by a word. The spec's table gives no row any bits: no word spells a command. -/

namespace Sys2Proof

/-- The command that a word of the opcode table's bits spells: none, since the table gives no row any bits. -/
def decodeTableWord (_nbits _w : Nat) : Option Instr := none

end Sys2Proof
end

