-- ==== Sys2Proof/Config.lean ====
section
/-! DEFINITION. What the spec leaves to the part or to an external standard, as constants with no value: the free
values and the signature schemes. No proof can see what any of them is. -/

namespace Sys2Proof.Config

/-- FREE VALUE. The k-th value the spec leaves open in a run (log 3): what a field whose number the spec does not
give takes. `State.draws` counts the draws. -/
opaque freeValue : Nat → Nat

/-- FREE VALUE. The k-th byte the spec leaves open in a run: challenge nonces (R99) and the device's own hedged
signatures (R439) are made of these (log 3). -/
opaque freeByte : Nat → Byte

/-- RSASSA-PSS verification of R439 (key, message, signature): an external standard, not defined by the spec
(log 4). -/
opaque rsaVerify : List Byte → List Byte → List Byte → Bool

/-- SLH-DSA verification of R439 (parameter set of R438, key, message, signature): an external standard (log 4). -/
opaque slhVerify : Nat → List Byte → List Byte → List Byte → Bool

/-- The default tone table of the front end (R146): "sRGB", whose entries the spec does not state as numbers (log 14). -/
opaque srgbTone : Nat → Nat

/-- FREE VALUE. A result the spec does not state, by where it arises and the operands it depends on (log 16): 1 SHIFT
in a float compute type or by a negative amount, 2 ARGMAX over a NaN, 3 the latency that POSITION and VTO use in a record
of no set, 4 AGE of a record to which no strip contributes, 5 the bytes of a failed field. -/
opaque openValue : Nat → List Nat → Nat

end Sys2Proof.Config
end

