-- ==== Sys2Proof/Machine/Bits.lean ====
section
/-! DEFINITION. Bit fields, byte order, signed numbers, roundings and small list operations that every part of the
model uses. Multi-byte fields of the spec are little-endian unless it says otherwise. -/

namespace Sys2Proof.Machine

/-- Bits [hi:lo] of a number. -/
def bits (v hi lo : Nat) : Nat := (v >>> lo) % 2 ^ (hi - lo + 1)

/-- `v` with its `w` bits from `lo` replaced by `x`. -/
def putBits (v lo w x : Nat) : Nat :=
  (v >>> (lo + w)) <<< (lo + w) + (x % 2 ^ w) <<< lo + v % 2 ^ lo

/-- One as 1, no as 0. -/
def b2n (b : Bool) : Nat := if b then 1 else 0

/-- The `n` bytes of `v`, least significant first. -/
def leBytes : Nat → Nat → List Byte
  | 0, _ => []
  | n + 1, v => BitVec.ofNat 8 v :: leBytes n (v / 256)

/-- The number that bytes spell, least significant first. -/
def leNat : List Byte → Nat
  | [] => 0
  | b :: r => b.toNat + 256 * leNat r

/-- The number that bytes spell, most significant first. -/
def beNat (l : List Byte) : Nat := leNat l.reverse

/-- The `n` bytes of `v`, most significant first. -/
def beBytes (n v : Nat) : List Byte := (leBytes n v).reverse

/-- Bytes `off` to `off + len - 1` of a list. -/
def slice {α : Type} (l : List α) (off len : Nat) : List α := (l.drop off).take len

/-- The little-endian number of `len` bytes at `off`. -/
def field (l : List Byte) (off len : Nat) : Nat := leNat (slice l off len)

/-- `n` zero bytes. -/
def zeros (n : Nat) : List Byte := List.replicate n 0

/-- A byte list cut or filled with zeros to `n` bytes. -/
def padTo (n : Nat) (l : List Byte) : List Byte := l.take n ++ zeros (n - l.length)

/-- The two's-complement reading of the low `w` bits. -/
def toInt (w v : Nat) : Int :=
  let x := v % 2 ^ w
  if 2 * x < 2 ^ w then (x : Int) else (x : Int) - (2 ^ w : Nat)

/-- The low `w` bits of an integer's two's complement. -/
def ofInt (w : Nat) (x : Int) : Nat := (x % (2 ^ w : Nat)).toNat

/-- `x` kept within `lo … hi`. -/
def clampInt (lo hi x : Int) : Int := if x < lo then lo else if hi < x then hi else x

/-- Round num / den to the nearest integer, ties towards plus infinity. -/
def rndDiv (num : Int) (den : Nat) : Int := (2 * num + den) / (2 * den)

/-- One more, saturating at `w` bits. -/
def satAdd (w v d : Nat) : Nat := min (v + d) (2 ^ w - 1)

/-- `x` in a list without repeats. -/
def setInsert {α : Type} [DecidableEq α] (x : α) (l : List α) : List α := if x ∈ l then l else l ++ [x]

/-- `x` out of a list. -/
def setErase {α : Type} [DecidableEq α] (x : α) (l : List α) : List α := l.filter (· ≠ x)

/-- Sets as lists: the union. -/
def setUnion {α : Type} [DecidableEq α] (a b : List α) : List α := b.foldl (fun l x => setInsert x l) a

/-- Entry `i` of a list of numbers, 0 beyond its end. -/
def nth (l : List Nat) (i : Nat) : Nat := l.getD i 0

/-- The bits of `v` below `w` that are set, ascending. -/
def setBits (w v : Nat) : List Nat := (List.range w).filter (v.testBit ·)

/-- The number whose bits below `w` are those for which `f` holds. -/
def ofBits (w : Nat) (f : Nat → Bool) : Nat :=
  (List.range w).foldl (fun acc i => if f i then acc + 2 ^ i else acc) 0

/-- The least element, if any. -/
def minNat? (l : List Nat) : Option Nat :=
  l.foldl (fun m x => match m with | none => some x | some y => some (min x y)) none

/-- ⌈a / b⌉. -/
def ceilDiv (a b : Nat) : Nat := if b = 0 then 0 else (a + b - 1) / b

/-- Insertion into a list kept ascending by `le`; an equal element goes after those already there. -/
def orderedInsert {α : Type} (le : α → α → Bool) (x : α) : List α → List α
  | [] => [x]
  | y :: r => if le y x then y :: orderedInsert le x r else x :: y :: r

/-- The entry of an association list, or a default. -/
def lookupD {α β : Type} [DecidableEq α] (d : β) (k : α) : List (α × β) → β
  | [] => d
  | (a, b) :: r => if a = k then b else lookupD d k r

/-- An association list with the entry of `k` set. -/
def assocSet {α β : Type} [DecidableEq α] (k : α) (v : β) : List (α × β) → List (α × β)
  | [] => [(k, v)]
  | (a, b) :: r => if a = k then (k, v) :: r else (a, b) :: assocSet k v r

/-- An integer square root: the largest r with r² ≤ v, by bisection on `n` bits. -/
def isqrtN : Nat → Nat → Nat → Nat
  | 0, _, r => r
  | n + 1, v, r => if (r + 2 ^ n) * (r + 2 ^ n) ≤ v then isqrtN n v (r + 2 ^ n) else isqrtN n v r

/-- ⌊√v⌋. -/
def isqrt (v : Nat) : Nat := isqrtN (v.log2 / 2 + 1) v 0

end Sys2Proof.Machine
end

