-- ==== Sys2Proof/Machine/Pages.lean ====
section
/-! DEFINITION. The register pages: where each lies in CSR space (R460, R461), its BLK_ID (R462), its power domain; and
what a register field is (R463, R468). -/

namespace Sys2Proof.Machine

/-- An access code (R468). -/
inductive Access where
  | ro
  | rw
  | w1c
  | wo
  | rws
  | rl
deriving DecidableEq, Repr

/-- A row of a field table. A field may stand in an array of `n1` entries `s1` bytes apart, each with `n2` words `s2`
bytes apart. `roles`: bit 0 O, 1 I, 2 M. `counter`: the page's CNT_CLR zeroes it. `vmin` and
`vmax`: the range its Meaning states, the whole width where it states none. -/
structure RField where
  off : Nat
  n1 : Nat
  s1 : Nat
  n2 : Nat
  s2 : Nat
  lo : Nat
  width : Nat
  acc : Access
  roles : Nat
  rst : Nat
  counter : Bool
  vmin : Nat
  vmax : Nat
deriving DecidableEq, Repr

/-- The array indices of the field's copy that lies in the word at page offset `w`, if any. -/
def RField.indexAt (f : RField) (w : Nat) : Option (Nat × Nat) :=
  if w < f.off then none
  else
    let d := w - f.off
    let i := if f.s1 = 0 then 0 else min (d / f.s1) (f.n1 - 1)
    let e := d - i * f.s1
    let j := if f.s2 = 0 then 0 else e / f.s2
    if e = j * f.s2 ∧ i < f.n1 ∧ j < f.n2 then some (i, j) else none

/-- A register page (R460, R461). Clusters are numbered 0–5, units u = 4c + k, engines of a core 0–3. -/
inductive Page where
  | dev | clk | pdc | rstc | lcs | opl | pmc | pln | ccp | agm | rsp
  | hlk (p : Nat)
  | cpx | ife | mc | mmu
  | mcg (g : Nat)
  | bod | amt | dig | mgc
  | clu (c : Nat)
  | tc (u : Nat)
  | vis (c : Nat)
  | cmem (c : Nat)
  | spm (u : Nat)
  | sge (c : Nat)
  | ofe (c : Nat)
  | fpe (c : Nat)
  | wpe (c : Nat)
  | pye (c : Nat)
  | eng (u e : Nat)
  | str (u : Nat)
deriving DecidableEq, Repr

/-- The page number of a page: its CSR offset divided by 4096 (R460, R461). -/
def Page.num : Page → Nat
  | .dev => 0x00
  | .clk => 0x01
  | .pdc => 0x02
  | .rstc => 0x03
  | .lcs => 0x04
  | .opl => 0x05
  | .pmc => 0x06
  | .pln => 0x10
  | .ccp => 0x11
  | .agm => 0x12
  | .rsp => 0x13
  | .hlk p => 0x20 + p
  | .cpx => 0x30
  | .ife => 0x40
  | .mc => 0x50
  | .mmu => 0x51
  | .mcg g => 0x52 + g
  | .bod => 0x5F
  | .amt => 0x60
  | .dig => 0x61
  | .mgc => 0x70
  | .clu c => 0x100 + 0x20 * c
  | .tc u => 0x100 + 0x20 * (u / 4) + u % 4 + 1
  | .vis c => 0x100 + 0x20 * c + 4
  | .cmem c => 0x100 + 0x20 * c + 5
  | .spm u => 0x100 + 0x20 * (u / 4) + 6 + u % 4
  | .sge c => 0x100 + 0x20 * c + 9
  | .ofe c => 0x100 + 0x20 * c + 0xA
  | .fpe c => 0x100 + 0x20 * c + 0xB
  | .wpe c => 0x100 + 0x20 * c + 0xC
  | .pye c => 0x100 + 0x20 * c + 0xD
  | .eng u e => 0x100 + 0x20 * (u / 4) + 0x10 + 4 * (u % 4) + e
  | .str u => 0x100 + 0x20 * (u / 4) + 0x1C + u % 4

/-- The page within a cluster's 128 KiB (R461); 0xE, 0xF and 0x1F are unassigned. -/
def clusterPageAt (c i : Nat) : Option Page :=
  if i = 0 then some (.clu c)
  else if i ≤ 3 then some (.tc (4 * c + i - 1))
  else if i = 4 then some (.vis c)
  else if i = 5 then some (.cmem c)
  else if i ≤ 8 then some (.spm (4 * c + i - 6))
  else if i = 9 then some (.sge c)
  else if i = 0xA then some (.ofe c)
  else if i = 0xB then some (.fpe c)
  else if i = 0xC then some (.wpe c)
  else if i = 0xD then some (.pye c)
  else if i < 0x10 then none
  else if i < 0x1C then some (.eng (4 * c + (i - 0x10) / 4) (i % 4))
  else if i < 0x1F then some (.str (4 * c + i - 0x1C))
  else none

/-- The page with a given number, if one is assigned (R460). -/
def pageAt (n : Nat) : Option Page :=
  if n = 0x00 then some .dev
  else if n = 0x01 then some .clk
  else if n = 0x02 then some .pdc
  else if n = 0x03 then some .rstc
  else if n = 0x04 then some .lcs
  else if n = 0x05 then some .opl
  else if n = 0x06 then some .pmc
  else if n = 0x10 then some .pln
  else if n = 0x11 then some .ccp
  else if n = 0x12 then some .agm
  else if n = 0x13 then some .rsp
  else if n = 0x20 then some (.hlk 0)
  else if n = 0x21 then some (.hlk 1)
  else if n = 0x30 then some .cpx
  else if n = 0x40 then some .ife
  else if n = 0x50 then some .mc
  else if n = 0x51 then some .mmu
  else if n = 0x52 then some (.mcg 0)
  else if n = 0x53 then some (.mcg 1)
  else if n = 0x5F then some .bod
  else if n = 0x60 then some .amt
  else if n = 0x61 then some .dig
  else if n = 0x70 then some .mgc
  else if 0x100 ≤ n ∧ n < 0x1C0 then clusterPageAt ((n - 0x100) / 0x20) ((n - 0x100) % 0x20)
  else none

/-- BLK_ID: class in [15:8], instance in [7:0] (R462). -/
def Page.blkId : Page → Nat
  | .dev => 0x0100
  | .clk => 0x0200
  | .pdc => 0x0300
  | .rstc => 0x0400
  | .lcs => 0x0500
  | .opl => 0x0600
  | .pmc => 0x0700
  | .pln => 0x1000
  | .ccp => 0x1100
  | .agm => 0x1200
  | .rsp => 0x1300
  | .hlk p => 0x2000 + p
  | .cpx => 0x3000
  | .ife => 0x4000
  | .mc => 0x5000
  | .mcg g => 0x5100 + g
  | .mmu => 0x5200
  | .bod => 0x5300
  | .amt => 0x6000
  | .dig => 0x6100
  | .mgc => 0x7000
  | .clu c => 0x8000 + c
  | .cmem c => 0x8100 + c
  | .tc u => 0x8200 + u
  | .vis c => 0x8300 + 4 * c + 3
  | .spm u => 0x8400 + u
  | .str u => 0x8500 + u
  | .eng u e => 0x8800 + 0x100 * e + u
  | .sge c => 0x9000 + c
  | .ofe c => 0x9100 + c
  | .fpe c => 0x9200 + c
  | .wpe c => 0x9300 + c
  | .pye c => 0x9400 + c

/-- The power domain of a page; none for AON (R460, R461). -/
def Page.domain : Page → Option Nat
  | .lcs | .mgc => some 38
  | .hlk p => some (33 + p)
  | .cpx | .mc | .mmu | .bod | .amt | .dig => some 37
  | .ife => some 30
  | .mcg g => some (35 + g)
  | .clu c | .cmem c => some (24 + c)
  | .tc u | .spm u | .str u | .eng u _ => some u
  | .vis c | .sge c | .ofe c | .fpe c | .wpe c | .pye c => some (4 * c + 3)
  | .dev | .clk | .pdc | .rstc | .opl | .pmc | .pln | .ccp | .agm | .rsp => none

/-- The core a page belongs to, if any: its own page, its engines, its scratchpad and streams (R459). -/
def Page.unit? : Page → Option Nat
  | .tc u | .spm u | .str u | .eng u _ => some u
  | .vis c | .sge c | .ofe c | .fpe c | .wpe c | .pye c => some (4 * c + 3)
  | .dev | .clk | .pdc | .rstc | .lcs | .opl | .pmc | .pln | .ccp | .agm | .rsp | .hlk _ | .cpx | .ife | .mc
  | .mmu | .mcg _ | .bod | .amt | .dig | .mgc | .clu _ | .cmem _ => none

/-- Whether the page's commits wait for each context's own frame or job start (R463: WHEN = 0b01). -/
def Page.perContext : Page → Bool
  | .ife | .cpx | .sge _ | .ofe _ | .fpe _ | .wpe _ | .pye _ => true
  | .dev | .clk | .pdc | .rstc | .lcs | .opl | .pmc | .pln | .ccp | .agm | .rsp | .hlk _ | .mc | .mmu | .mcg _
  | .bod | .amt | .dig | .mgc | .clu _ | .tc _ | .vis _ | .cmem _ | .spm _ | .eng _ _ | .str _ => false

/-- The pages on which a write of EN = 0 completes REFUSED and EN reads 1 (R464). -/
def Page.enFixed : Page → Bool
  | .dev | .clk | .pdc | .rstc | .opl | .pmc | .pln | .ccp | .agm | .rsp | .lcs | .mgc => true
  | .hlk _ | .cpx | .ife | .mc | .mmu | .mcg _ | .bod | .amt | .dig | .clu _ | .tc _ | .vis _ | .cmem _ | .spm _
  | .sge _ | .ofe _ | .fpe _ | .wpe _ | .pye _ | .eng _ _ | .str _ => false

/-- The Plinth group (R72): the blocks of classes 0x10–0x13 (log 7). -/
def Page.plinthGroup (p : Page) : Bool := p.num / 16 = 1

/-- Every page of the device, ascending by page number. -/
def allPages : List Page := (List.range 0x1C0).filterMap pageAt

/-- The key under which a field's copy is kept: its word's CSR offset times 32, plus its lowest bit. -/
def RField.key (f : RField) (p : Page) (i j : Nat) : Nat :=
  (p.num * 4096 + f.off + i * f.s1 + j * f.s2) * 32 + f.lo

end Sys2Proof.Machine
end

