-- ==== Sys2Proof/Machine/Fields.lean ====
section
/-! DEFINITION. The register fields of every page, each from its row of the spec's field tables: offset in the page,
array counts and strides, place, width, access code, roles (bit 0 O, 1 I, 2 M), value after reset, whether the page's
CNT_CLR zeroes it, and the lowest and highest value its Meaning allows. Where a table gives no number (Sampled, From FACTORY, From store, From image, From audit log, a
dash), 0 stands and the event that loads the field writes it (log 6). -/

namespace Sys2Proof.Machine
/-- PDC.ON_REQ0 (R42). -/
def PDC.ON_REQ0 : RField := ⟨0x40, 1, 0, 1, 0, 0, 32, .rw, 2, 0, false, 0, 0xFFFFFFFF⟩
/-- PDC.ON_REQ1 (R42). -/
def PDC.ON_REQ1 : RField := ⟨0x44, 1, 0, 1, 0, 0, 7, .rw, 2, 0x60, false, 0, 0x7F⟩
/-- PDC.ON_STAT0 (R42). -/
def PDC.ON_STAT0 : RField := ⟨0x48, 1, 0, 1, 0, 0, 32, .ro, 0, 0, false, 0, 0xFFFFFFFF⟩
/-- PDC.ON_STAT1 (R42). -/
def PDC.ON_STAT1 : RField := ⟨0x4C, 1, 0, 1, 0, 0, 7, .ro, 0, 0, false, 0, 0x7F⟩
/-- PDC.AUTO_MODE (R42). -/
def PDC.AUTO_MODE : RField := ⟨0x50, 1, 0, 1, 0, 0, 1, .rw, 2, 1, false, 0, 1⟩
/-- PDC.IDLE_OFF (R42). -/
def PDC.IDLE_OFF : RField := ⟨0x50, 1, 0, 1, 0, 16, 16, .rw, 2, 0x1F4, false, 0, 0xFFFF⟩
/-- PDC.SLEEP_ENTER (R42). -/
def PDC.SLEEP_ENTER : RField := ⟨0x54, 1, 0, 1, 0, 0, 1, .wo, 1, 0, false, 0, 1⟩
/-- PDC.IN_SLEEP (R42). -/
def PDC.IN_SLEEP : RField := ⟨0x54, 1, 0, 1, 0, 1, 1, .ro, 0, 0, false, 0, 1⟩
/-- PDC.WAKE_TIMER_EN (R42). -/
def PDC.WAKE_TIMER_EN : RField := ⟨0x54, 1, 0, 1, 0, 2, 1, .rw, 1, 0, false, 0, 1⟩
/-- PDC.WAKE_MOTION_EN (R42). -/
def PDC.WAKE_MOTION_EN : RField := ⟨0x54, 1, 0, 1, 0, 3, 1, .rw, 2, 1, false, 0, 1⟩
/-- PDC.LAST_WAKE (R42). -/
def PDC.LAST_WAKE : RField := ⟨0x54, 1, 0, 1, 0, 8, 4, .ro, 0, 0, false, 0, 0xF⟩
/-- PDC.WAKE_BEAT_LO (R42). -/
def PDC.WAKE_BEAT_LO : RField := ⟨0x58, 1, 0, 1, 0, 0, 32, .rw, 1, 0, false, 0, 0xFFFFFFFF⟩
/-- PDC.WAKE_BEAT_HI (R42). -/
def PDC.WAKE_BEAT_HI : RField := ⟨0x5C, 1, 0, 1, 0, 0, 32, .rw, 1, 0, false, 0, 0xFFFFFFFF⟩
/-- PDC.WAKE_MOVE (R42). -/
def PDC.WAKE_MOVE : RField := ⟨0x60, 1, 0, 1, 0, 0, 24, .rw, 2, 0x7D00, false, 0, 0xFFFFFF⟩
/-- PDC.REFUSE_PD (R42). -/
def PDC.REFUSE_PD : RField := ⟨0x64, 1, 0, 1, 0, 0, 6, .ro, 0, 0, false, 0, 0x3F⟩
/-- PDC.REFUSE_REASON (R42). -/
def PDC.REFUSE_REASON : RField := ⟨0x64, 1, 0, 1, 0, 8, 4, .ro, 0, 0, false, 0, 0xF⟩
/-- CLK.STRAP_CLKM (R475). -/
def CLK.STRAP_CLKM : RField := ⟨0x40, 1, 0, 1, 0, 0, 2, .ro, 0, 0, false, 0, 3⟩
/-- CLK.ACTIVE_SRC (R475). -/
def CLK.ACTIVE_SRC : RField := ⟨0x40, 1, 0, 1, 0, 2, 2, .ro, 0, 0, false, 0, 3⟩
/-- CLK.HOLDOVER (R475). -/
def CLK.HOLDOVER : RField := ⟨0x40, 1, 0, 1, 0, 4, 1, .ro, 0, 0, false, 0, 1⟩
/-- CLK.STRAP_RSVD (R475). -/
def CLK.STRAP_RSVD : RField := ⟨0x40, 1, 0, 1, 0, 5, 1, .ro, 0, 0, false, 0, 1⟩
/-- CLK.REVERT (R475). -/
def CLK.REVERT : RField := ⟨0x44, 1, 0, 1, 0, 0, 1, .wo, 2, 0, false, 0, 1⟩
/-- CLK.THM_WARN (R475). -/
def CLK.THM_WARN : RField := ⟨0x48, 1, 0, 1, 0, 0, 8, .rws, 2, 0x64, false, 85, 0x67⟩
/-- CLK.THM_STOP (R475). -/
def CLK.THM_STOP : RField := ⟨0x4C, 1, 0, 1, 0, 0, 8, .rws, 2, 0x67, false, 0, 0x68⟩
/-- CLK.THM_MAX (R475). -/
def CLK.THM_MAX : RField := ⟨0x50, 1, 0, 1, 0, 0, 12, .ro, 0, 0, false, 0, 0xFFF⟩
/-- CLK.THM_MAX_IDX (R475). -/
def CLK.THM_MAX_IDX : RField := ⟨0x50, 1, 0, 1, 0, 16, 4, .ro, 0, 0, false, 0, 0xF⟩
/-- CLK.VIN_READ (R475). -/
def CLK.VIN_READ : RField := ⟨0x54, 1, 0, 1, 0, 0, 16, .ro, 0, 0, false, 0, 0xFFFF⟩
/-- CLK.THM_S (R475). -/
def CLK.THM_S : RField := ⟨0x80, 1, 0, 15, 4, 0, 12, .ro, 0, 0, false, 0, 0xFFF⟩
/-- RSTC.LAST_CAUSE (R65). -/
def RSTC.LAST_CAUSE : RField := ⟨0x40, 1, 0, 1, 0, 0, 2, .ro, 0, 1, false, 0, 3⟩
/-- RSTC.WARM_COUNT (R65). -/
def RSTC.WARM_COUNT : RField := ⟨0x40, 1, 0, 1, 0, 8, 8, .ro, 0, 0, false, 0, 0xFF⟩
/-- RSTC.STRAP_BOOT (R65). -/
def RSTC.STRAP_BOOT : RField := ⟨0x40, 1, 0, 1, 0, 16, 2, .ro, 0, 0, false, 0, 3⟩
/-- RSTC.LAST_RST_BEAT_LO (R65). -/
def RSTC.LAST_RST_BEAT_LO : RField := ⟨0x44, 1, 0, 1, 0, 0, 32, .ro, 0, 0, false, 0, 0xFFFFFFFF⟩
/-- RSTC.LAST_RST_BEAT_HI (R65). -/
def RSTC.LAST_RST_BEAT_HI : RField := ⟨0x48, 1, 0, 1, 0, 0, 32, .ro, 0, 0, false, 0, 0xFFFFFFFF⟩
/-- RSTC.BRINGUP_BEATS (R65). -/
def RSTC.BRINGUP_BEATS : RField := ⟨0x4C, 1, 0, 1, 0, 0, 24, .ro, 0, 0, false, 0, 0xFFFFFF⟩
/-- RSTC.BRINGUP_DONE (R65). -/
def RSTC.BRINGUP_DONE : RField := ⟨0x4C, 1, 0, 1, 0, 31, 1, .ro, 0, 0, false, 0, 1⟩
/-- RSTC.BLKLOG_NEXT (R65). -/
def RSTC.BLKLOG_NEXT : RField := ⟨0x50, 1, 0, 1, 0, 0, 5, .ro, 0, 0, false, 0, 0x1F⟩
/-- RSTC.BKP_OI (R65). -/
def RSTC.BKP_OI : RField := ⟨0x80, 1, 0, 4, 4, 0, 32, .rw, 3, 0, false, 0, 0xFFFFFFFF⟩
/-- RSTC.BKP_I (R65). -/
def RSTC.BKP_I : RField := ⟨0x90, 1, 0, 4, 4, 0, 32, .rw, 2, 0, false, 0, 0xFFFFFFFF⟩
/-- OPL.STATE (R69). -/
def OPL.STATE : RField := ⟨0x40, 1, 0, 1, 0, 0, 3, .ro, 0, 0, false, 0, 7⟩
/-- OPL.OPTIONS_FALLBACK (R69). -/
def OPL.OPTIONS_FALLBACK : RField := ⟨0x40, 1, 0, 1, 0, 4, 1, .ro, 0, 0, false, 0, 1⟩
/-- OPL.PASS_FAILS (R69). -/
def OPL.PASS_FAILS : RField := ⟨0x40, 1, 0, 1, 0, 8, 2, .ro, 0, 0, false, 0, 3⟩
/-- OPL.RECORDS_APPLIED (R69). -/
def OPL.RECORDS_APPLIED : RField := ⟨0x44, 1, 0, 1, 0, 0, 17, .ro, 0, 0, false, 0, 0x1FFFF⟩
/-- OPL.FAIL_RECORD (R69). -/
def OPL.FAIL_RECORD : RField := ⟨0x48, 1, 0, 1, 0, 0, 16, .ro, 0, 0xFFFF, false, 0, 0xFFFF⟩
/-- OPL.FAIL_CODE (R69). -/
def OPL.FAIL_CODE : RField := ⟨0x48, 1, 0, 1, 0, 24, 8, .ro, 0, 0, false, 0, 0xFF⟩
/-- OPL.OPT_DIGEST (R69). -/
def OPL.OPT_DIGEST : RField := ⟨0x60, 1, 0, 8, 4, 0, 32, .ro, 0, 0, false, 0, 0xFFFFFFFF⟩
/-- HLK.LINK_STATE (R102). -/
def HLK.LINK_STATE : RField := ⟨0x40, 1, 0, 1, 0, 0, 4, .ro, 0, 0, false, 0, 0xF⟩
/-- HLK.WIDTH (R102). -/
def HLK.WIDTH : RField := ⟨0x40, 1, 0, 1, 0, 4, 2, .ro, 0, 0, false, 0, 3⟩
/-- HLK.LANE_LOS (R102). -/
def HLK.LANE_LOS : RField := ⟨0x40, 1, 0, 1, 0, 8, 4, .ro, 0, 0xF, false, 0, 0xF⟩
/-- HLK.VERSION (R102). -/
def HLK.VERSION : RField := ⟨0x40, 1, 0, 1, 0, 16, 4, .ro, 0, 0, false, 0, 0xF⟩
/-- HLK.BOOT_PORT (R102). -/
def HLK.BOOT_PORT : RField := ⟨0x40, 1, 0, 1, 0, 20, 1, .ro, 0, 0, false, 0, 1⟩
/-- HLK.RETRAIN (R102). -/
def HLK.RETRAIN : RField := ⟨0x44, 1, 0, 1, 0, 0, 1, .wo, 3, 0, false, 0, 1⟩
/-- HLK.WIDTH2_EN (R102). -/
def HLK.WIDTH2_EN : RField := ⟨0x44, 1, 0, 1, 0, 1, 1, .rw, 2, 1, false, 0, 1⟩
/-- HLK.VC2_MAXCRED (R102). -/
def HLK.VC2_MAXCRED : RField := ⟨0x48, 1, 0, 1, 0, 0, 9, .rw, 2, 0x80, false, 0, 0x100⟩
/-- HLK.KEEPALIVE (R102). -/
def HLK.KEEPALIVE : RField := ⟨0x4C, 1, 0, 1, 0, 0, 16, .rws, 2, 0x7D, false, 25, 0x1388⟩
/-- HLK.REPLAY_TMO (R102). -/
def HLK.REPLAY_TMO : RField := ⟨0x4C, 1, 0, 1, 0, 16, 8, .rws, 2, 5, false, 2, 0x32⟩
/-- HLK.HOST_TMO (R102). -/
def HLK.HOST_TMO : RField := ⟨0x50, 1, 0, 1, 0, 0, 24, .rw, 2, 0x1388, false, 50, 0x4C4B40⟩
/-- HLK.SESS_OPEN (R102). -/
def HLK.SESS_OPEN : RField := ⟨0x54, 1, 0, 1, 0, 0, 3, .ro, 0, 0, false, 0, 7⟩
/-- HLK.REC_SUB (R102). -/
def HLK.REC_SUB : RField := ⟨0x54, 1, 0, 1, 0, 4, 1, .ro, 0, 0, false, 0, 1⟩
/-- HLK.AUTH_FAILS (R102). -/
def HLK.AUTH_FAILS : RField := ⟨0x54, 1, 0, 1, 0, 8, 2, .ro, 0, 0, false, 0, 3⟩
/-- HLK.LOCKOUT (R102). -/
def HLK.LOCKOUT : RField := ⟨0x54, 1, 0, 1, 0, 12, 1, .ro, 0, 0, false, 0, 1⟩
/-- HLK.VC2_GRANTED (R102). -/
def HLK.VC2_GRANTED : RField := ⟨0x58, 1, 0, 1, 0, 0, 9, .ro, 0, 0, false, 0, 0x1FF⟩
/-- HLK.CNT_CELL_CRC (R102). -/
def HLK.CNT_CELL_CRC : RField := ⟨0x60, 1, 0, 1, 0, 0, 32, .ro, 0, 0, true, 0, 0xFFFFFFFF⟩
/-- HLK.CNT_REPLAY (R102). -/
def HLK.CNT_REPLAY : RField := ⟨0x64, 1, 0, 1, 0, 0, 32, .ro, 0, 0, true, 0, 0xFFFFFFFF⟩
/-- HLK.CNT_FEC_CORR (R102). -/
def HLK.CNT_FEC_CORR : RField := ⟨0x68, 1, 0, 1, 0, 0, 32, .ro, 0, 0, true, 0, 0xFFFFFFFF⟩
/-- HLK.CNT_FEC_UNCORR (R102). -/
def HLK.CNT_FEC_UNCORR : RField := ⟨0x6C, 1, 0, 1, 0, 0, 32, .ro, 0, 0, true, 0, 0xFFFFFFFF⟩
/-- HLK.CNT_RETRAIN (R102). -/
def HLK.CNT_RETRAIN : RField := ⟨0x70, 1, 0, 1, 0, 0, 32, .ro, 0, 0, true, 0, 0xFFFFFFFF⟩
/-- HLK.CNT_REC_DROP (R102). -/
def HLK.CNT_REC_DROP : RField := ⟨0x74, 1, 0, 1, 0, 0, 32, .ro, 0, 0, true, 0, 0xFFFFFFFF⟩
/-- HLK.CNT_EVT_LOST (R102). -/
def HLK.CNT_EVT_LOST : RField := ⟨0x78, 1, 0, 1, 0, 0, 32, .ro, 0, 0, true, 0, 0xFFFFFFFF⟩
/-- HLK.CNT_CLR (R102). -/
def HLK.CNT_CLR : RField := ⟨0x7C, 1, 0, 1, 0, 0, 1, .wo, 3, 0, false, 0, 1⟩
/-- CPX.PORT_EN (R124). -/
def CPX.PORT_EN : RField := ⟨0x40, 1, 0, 1, 0, 0, 12, .rw, 2, 0, false, 0, 0xFFF⟩
/-- CPX.LOS (R124). -/
def CPX.LOS : RField := ⟨0x44, 1, 0, 1, 0, 0, 12, .ro, 0, 0xFFF, false, 0, 0xFFF⟩
/-- CPX.FRAMING_LOST (R124). -/
def CPX.FRAMING_LOST : RField := ⟨0x44, 1, 0, 1, 0, 16, 12, .ro, 0, 0, false, 0, 0xFFF⟩
/-- CPX.LOSS_ROWS (R124). -/
def CPX.LOSS_ROWS : RField := ⟨0x48, 1, 0, 1, 0, 0, 7, .rw, 2, 4, false, 1, 0x40⟩
/-- CPX.TUN_ACK_TMO (R124). -/
def CPX.TUN_ACK_TMO : RField := ⟨0x4C, 1, 0, 1, 0, 0, 16, .rw, 2, 0x32, false, 2, 0x3E8⟩
/-- CPX.CNT_LATE_SET (R124). -/
def CPX.CNT_LATE_SET : RField := ⟨0x50, 1, 0, 1, 0, 0, 32, .ro, 0, 0, true, 0, 0xFFFFFFFF⟩
/-- CPX.TUN_PUSH (R124). -/
def CPX.TUN_PUSH : RField := ⟨0x60, 1, 0, 4, 4, 0, 32, .wo, 2, 0, false, 0, 0xFFFFFFFF⟩
/-- CPX.CNT_CLR (R124). -/
def CPX.CNT_CLR : RField := ⟨0x70, 1, 0, 1, 0, 0, 1, .wo, 3, 0, false, 0, 1⟩
/-- CPP.TRIG_GROUP (R124). -/
def CPP.TRIG_GROUP : RField := ⟨0x80, 12, 0x20, 1, 0, 0, 10, .rws, 2, 4, false, 0, 0x26E⟩
/-- CPP.TRIG_PERIOD (R124). -/
def CPP.TRIG_PERIOD : RField := ⟨0x84, 12, 0x20, 1, 0, 0, 24, .ro, 0, 0, false, 0, 0xFFFFFF⟩
/-- CPP.TRIG_NEXT (R124). -/
def CPP.TRIG_NEXT : RField := ⟨0x88, 12, 0x20, 1, 0, 0, 32, .ro, 0, 0, false, 0, 0xFFFFFFFF⟩
/-- CPP.LOCK (R124). -/
def CPP.LOCK : RField := ⟨0x8C, 12, 0x20, 1, 0, 0, 1, .ro, 0, 0, false, 0, 1⟩
/-- CPP.LOCKED_USE (R124). -/
def CPP.LOCKED_USE : RField := ⟨0x8C, 12, 0x20, 1, 0, 1, 1, .ro, 0, 0, false, 0, 1⟩
/-- CPP.TUN_DEPTH (R124). -/
def CPP.TUN_DEPTH : RField := ⟨0x8C, 12, 0x20, 1, 0, 8, 7, .ro, 0, 0, false, 0, 0x7F⟩
/-- CPP.CNT_ECC_CORR (R124). -/
def CPP.CNT_ECC_CORR : RField := ⟨0x90, 12, 0x20, 1, 0, 0, 16, .ro, 0, 0, true, 0, 0xFFFF⟩
/-- CPP.CNT_ECC_UNCORR (R124). -/
def CPP.CNT_ECC_UNCORR : RField := ⟨0x90, 12, 0x20, 1, 0, 16, 16, .ro, 0, 0, true, 0, 0xFFFF⟩
/-- CPP.CNT_CRC (R124). -/
def CPP.CNT_CRC : RField := ⟨0x94, 12, 0x20, 1, 0, 0, 32, .ro, 0, 0, true, 0, 0xFFFFFFFF⟩
/-- CPP.CNT_ROW_MISS (R124). -/
def CPP.CNT_ROW_MISS : RField := ⟨0x98, 12, 0x20, 1, 0, 0, 16, .ro, 0, 0, true, 0, 0xFFFF⟩
/-- CPP.CNT_ROW_LEN (R124). -/
def CPP.CNT_ROW_LEN : RField := ⟨0x98, 12, 0x20, 1, 0, 16, 16, .ro, 0, 0, true, 0, 0xFFFF⟩
/-- CPP.CNT_FN_SKIP (R124). -/
def CPP.CNT_FN_SKIP : RField := ⟨0x9C, 12, 0x20, 1, 0, 0, 8, .ro, 0, 0, true, 0, 0xFF⟩
/-- CPP.CNT_UNTRIG (R124). -/
def CPP.CNT_UNTRIG : RField := ⟨0x9C, 12, 0x20, 1, 0, 8, 8, .ro, 0, 0, true, 0, 0xFF⟩
/-- CPP.CNT_TUN_FAIL (R124). -/
def CPP.CNT_TUN_FAIL : RField := ⟨0x9C, 12, 0x20, 1, 0, 16, 8, .ro, 0, 0, true, 0, 0xFF⟩
/-- CPP.CNT_UNSUPP (R124). -/
def CPP.CNT_UNSUPP : RField := ⟨0x9C, 12, 0x20, 1, 0, 24, 8, .ro, 0, 0, true, 0, 0xFF⟩
/-- CPS.PORT (R124). -/
def CPS.PORT : RField := ⟨0x200, 32, 0x20, 1, 0, 0, 4, .rws, 2, 0, false, 0, 0xB⟩
/-- CPS.VC (R124). -/
def CPS.VC : RField := ⟨0x200, 32, 0x20, 1, 0, 4, 4, .rws, 2, 0, false, 0, 0xF⟩
/-- CPS.DT (R124). -/
def CPS.DT : RField := ⟨0x200, 32, 0x20, 1, 0, 8, 6, .rws, 2, 0, false, 0, 0x3F⟩
/-- CPS.LINESCAN (R124). -/
def CPS.LINESCAN : RField := ⟨0x200, 32, 0x20, 1, 0, 14, 1, .rws, 2, 0, false, 0, 1⟩
/-- CPS.TRIGGERED (R124). -/
def CPS.TRIGGERED : RField := ⟨0x200, 32, 0x20, 1, 0, 15, 1, .rws, 2, 1, false, 0, 1⟩
/-- CPS.DEST (R124). -/
def CPS.DEST : RField := ⟨0x200, 32, 0x20, 1, 0, 16, 3, .rws, 2, 0, false, 0, 7⟩
/-- CPS.CMASK (R124). -/
def CPS.CMASK : RField := ⟨0x200, 32, 0x20, 1, 0, 24, 6, .rws, 2, 0, false, 0, 0x3F⟩
/-- CPS.EN (R124). -/
def CPS.EN : RField := ⟨0x200, 32, 0x20, 1, 0, 31, 1, .rws, 2, 0, false, 0, 1⟩
/-- CPS.WIDTH (R124). -/
def CPS.WIDTH : RField := ⟨0x204, 32, 0x20, 1, 0, 0, 14, .rws, 2, 0, false, 0, 0x3FFF⟩
/-- CPS.HEIGHT (R124). -/
def CPS.HEIGHT : RField := ⟨0x204, 32, 0x20, 1, 0, 16, 14, .rws, 2, 0, false, 0, 0x3FFF⟩
/-- CPS.FS_MIN (R124). -/
def CPS.FS_MIN : RField := ⟨0x208, 32, 0x20, 1, 0, 0, 16, .rws, 2, 0, false, 0, 0xFFFF⟩
/-- CPS.FS_MAX (R124). -/
def CPS.FS_MAX : RField := ⟨0x208, 32, 0x20, 1, 0, 16, 16, .rws, 2, 0, false, 0, 0xFFFF⟩
/-- CPS.ROW_CLKS (R124). -/
def CPS.ROW_CLKS : RField := ⟨0x20C, 32, 0x20, 1, 0, 0, 16, .rws, 2, 0, false, 0, 0xFFFF⟩
/-- CPS.LATCH_MARGIN (R124). -/
def CPS.LATCH_MARGIN : RField := ⟨0x20C, 32, 0x20, 1, 0, 16, 8, .rws, 2, 0, false, 0, 0xFF⟩
/-- CPS.DELAY (R124). -/
def CPS.DELAY : RField := ⟨0x210, 32, 0x20, 1, 0, 0, 24, .rws, 2, 0, false, 0, 0xFFFFFF⟩
/-- CPS.FN_MAX (R124). -/
def CPS.FN_MAX : RField := ⟨0x214, 32, 0x20, 1, 0, 0, 16, .rws, 2, 0, false, 0, 0xFFFF⟩
/-- CPS.FRAME_IDX (R124). -/
def CPS.FRAME_IDX : RField := ⟨0x218, 32, 0x20, 1, 0, 0, 32, .ro, 0, 0, false, 0, 0xFFFFFFFF⟩
/-- CPS.LAST_FN (R124). -/
def CPS.LAST_FN : RField := ⟨0x21C, 32, 0x20, 1, 0, 0, 16, .ro, 0, 0, false, 0, 0xFFFF⟩
/-- IFE.CTX_ACTIVE (R154). -/
def IFE.CTX_ACTIVE : RField := ⟨0x40, 1, 0, 1, 0, 0, 8, .ro, 0, 0, false, 0, 0xFF⟩
/-- IFE.CNT_PQ_REFUSED (R154). -/
def IFE.CNT_PQ_REFUSED : RField := ⟨0x44, 1, 0, 1, 0, 0, 32, .ro, 0, 0, true, 0, 0xFFFFFFFF⟩
/-- IFE.CNT_LINEMEM_CORR (R154). -/
def IFE.CNT_LINEMEM_CORR : RField := ⟨0x48, 1, 0, 1, 0, 0, 32, .ro, 0, 0, true, 0, 0xFFFFFFFF⟩
/-- IFE.CNT_CLR (R154). -/
def IFE.CNT_CLR : RField := ⟨0x4C, 1, 0, 1, 0, 0, 1, .wo, 3, 0, false, 0, 1⟩
/-- IFE.PQ_CTX (R154). -/
def IFE.PQ_CTX : RField := ⟨0x80, 1, 0, 1, 0, 0, 3, .wo, 2, 0, false, 0, 7⟩
/-- IFE.PQ_CLASS (R154). -/
def IFE.PQ_CLASS : RField := ⟨0x80, 1, 0, 1, 0, 4, 3, .wo, 2, 0, false, 0, 7⟩
/-- IFE.PQ_LINKED (R154). -/
def IFE.PQ_LINKED : RField := ⟨0x80, 1, 0, 1, 0, 7, 1, .wo, 2, 0, false, 0, 1⟩
/-- IFE.PQ_FRAME (R154). -/
def IFE.PQ_FRAME : RField := ⟨0x80, 1, 0, 1, 0, 16, 16, .wo, 2, 0, false, 0, 0xFFFF⟩
/-- IFE.PQ_ADDR_LO (R154). -/
def IFE.PQ_ADDR_LO : RField := ⟨0x84, 1, 0, 1, 0, 0, 32, .wo, 2, 0, false, 0, 0xFFFFFFFF⟩
/-- IFE.PQ_ADDR_HI (R154). -/
def IFE.PQ_ADDR_HI : RField := ⟨0x88, 1, 0, 1, 0, 0, 16, .wo, 2, 0, false, 0, 0xFFFF⟩
/-- IFX.EN (R154). -/
def IFX.EN : RField := ⟨0x100, 8, 0x40, 1, 0, 0, 1, .rws, 2, 0, false, 0, 1⟩
/-- IFX.SOURCE (R154). -/
def IFX.SOURCE : RField := ⟨0x100, 8, 0x40, 1, 0, 1, 2, .rws, 2, 0, false, 0, 3⟩
/-- IFX.STREAM (R154). -/
def IFX.STREAM : RField := ⟨0x100, 8, 0x40, 1, 0, 3, 5, .rws, 2, 0, false, 0, 0x1F⟩
/-- IFX.CFA (R154). -/
def IFX.CFA : RField := ⟨0x100, 8, 0x40, 1, 0, 8, 3, .rws, 2, 0, false, 0, 4⟩
/-- IFX.PRIV (R154). -/
def IFX.PRIV : RField := ⟨0x100, 8, 0x40, 1, 0, 11, 1, .rws, 2, 0, false, 0, 1⟩
/-- IFX.HIST_TAP (R154). -/
def IFX.HIST_TAP : RField := ⟨0x100, 8, 0x40, 1, 0, 12, 1, .rws, 2, 1, false, 0, 1⟩
/-- IFX.DISP_EN (R154). -/
def IFX.DISP_EN : RField := ⟨0x100, 8, 0x40, 1, 0, 16, 1, .rws, 2, 0, false, 0, 1⟩
/-- IFX.CODE_EN (R154). -/
def IFX.CODE_EN : RField := ⟨0x100, 8, 0x40, 1, 0, 17, 1, .rws, 2, 0, false, 0, 1⟩
/-- IFX.CODE_FMT (R154). -/
def IFX.CODE_FMT : RField := ⟨0x100, 8, 0x40, 1, 0, 18, 1, .rws, 2, 0, false, 0, 1⟩
/-- IFX.MV_EN (R154). -/
def IFX.MV_EN : RField := ⟨0x100, 8, 0x40, 1, 0, 19, 1, .rws, 2, 0, false, 0, 1⟩
/-- IFX.MV_TAP (R154). -/
def IFX.MV_TAP : RField := ⟨0x100, 8, 0x40, 1, 0, 20, 2, .rws, 2, 0, false, 0, 2⟩
/-- IFX.MV_FMT (R154). -/
def IFX.MV_FMT : RField := ⟨0x100, 8, 0x40, 1, 0, 22, 2, .rws, 2, 0, false, 0, 2⟩
/-- IFX.STATS_EN (R154). -/
def IFX.STATS_EN : RField := ⟨0x100, 8, 0x40, 1, 0, 24, 1, .rws, 2, 1, false, 0, 1⟩
/-- IFX.WIDTH (R154). -/
def IFX.WIDTH : RField := ⟨0x104, 8, 0x40, 1, 0, 0, 14, .rws, 2, 0, false, 0, 0x3FFF⟩
/-- IFX.HEIGHT (R154). -/
def IFX.HEIGHT : RField := ⟨0x104, 8, 0x40, 1, 0, 16, 14, .rws, 2, 0, false, 0, 0x3FFF⟩
/-- IFX.BITS (R154). -/
def IFX.BITS : RField := ⟨0x108, 8, 0x40, 1, 0, 0, 5, .rws, 2, 0xC, false, 8, 0x10⟩
/-- IFX.PQ_DEPTH (R154). -/
def IFX.PQ_DEPTH : RField := ⟨0x10C, 8, 0x40, 1, 0, 0, 5, .ro, 0, 0, false, 0, 0x1F⟩
/-- IFX.TEMP_REF_VALID (R154). -/
def IFX.TEMP_REF_VALID : RField := ⟨0x10C, 8, 0x40, 1, 0, 8, 1, .ro, 0, 0, false, 0, 1⟩
/-- IFX.MC_ACTIVE (R154). -/
def IFX.MC_ACTIVE : RField := ⟨0x10C, 8, 0x40, 1, 0, 9, 1, .ro, 0, 0, false, 0, 1⟩
/-- IFX.SETTINGS_UNKNOWN (R154). -/
def IFX.SETTINGS_UNKNOWN : RField := ⟨0x10C, 8, 0x40, 1, 0, 10, 1, .ro, 0, 0, false, 0, 1⟩
/-- IFX.LOCKED_USE (R154). -/
def IFX.LOCKED_USE : RField := ⟨0x10C, 8, 0x40, 1, 0, 11, 1, .ro, 0, 0, false, 0, 1⟩
/-- IFX.FRAME_IDX (R154). -/
def IFX.FRAME_IDX : RField := ⟨0x110, 8, 0x40, 1, 0, 0, 32, .ro, 0, 0, false, 0, 0xFFFFFFFF⟩
/-- IFX.LAST_PSET (R154). -/
def IFX.LAST_PSET : RField := ⟨0x114, 8, 0x40, 1, 0, 0, 16, .ro, 0, 0, false, 0, 0xFFFF⟩
/-- IFX.CNT_PQ_LATE (R154). -/
def IFX.CNT_PQ_LATE : RField := ⟨0x118, 8, 0x40, 1, 0, 0, 16, .ro, 0, 0, true, 0, 0xFFFF⟩
/-- IFX.CNT_MC_FALLBACK (R154). -/
def IFX.CNT_MC_FALLBACK : RField := ⟨0x118, 8, 0x40, 1, 0, 16, 16, .ro, 0, 0, true, 0, 0xFFFF⟩
/-- IFX.CNT_ROW_MISS (R154). -/
def IFX.CNT_ROW_MISS : RField := ⟨0x11C, 8, 0x40, 1, 0, 0, 32, .ro, 0, 0, true, 0, 0xFFFFFFFF⟩
/-- IFP.CTX (R154). -/
def IFP.CTX : RField := ⟨0x300, 4, 0x80, 1, 0, 0, 3, .rws, 2, 0, false, 0, 7⟩
/-- IFP.EN (R154). -/
def IFP.EN : RField := ⟨0x300, 4, 0x80, 1, 0, 3, 1, .rws, 2, 0, false, 0, 1⟩
/-- IFP.EMB_ENTRY (R154). -/
def IFP.EMB_ENTRY : RField := ⟨0x300, 4, 0x80, 1, 0, 8, 5, .rws, 2, 0, false, 0, 0x1F⟩
/-- IFP.EXT_OFFSET (R154). -/
def IFP.EXT_OFFSET : RField := ⟨0x340, 4, 0x80, 16, 4, 0, 16, .rws, 2, 0, false, 0, 0xFFFF⟩
/-- IFP.EXT_LEN (R154). -/
def IFP.EXT_LEN : RField := ⟨0x340, 4, 0x80, 16, 4, 16, 3, .rws, 2, 0, false, 0, 4⟩
/-- IFP.EXT_BE (R154). -/
def IFP.EXT_BE : RField := ⟨0x340, 4, 0x80, 16, 4, 19, 1, .rws, 2, 0, false, 0, 1⟩
/-- IFP.EXT_CLASS (R154). -/
def IFP.EXT_CLASS : RField := ⟨0x340, 4, 0x80, 16, 4, 20, 3, .rws, 2, 0, false, 0, 7⟩
/-- IFP.EXT_CHECK (R154). -/
def IFP.EXT_CHECK : RField := ⟨0x340, 4, 0x80, 16, 4, 23, 1, .rws, 2, 0, false, 0, 1⟩
/-- SGE.CTX_ACTIVE (R177). -/
def SGE.CTX_ACTIVE : RField := ⟨0x40, 1, 0, 1, 0, 0, 4, .ro, 0, 0, false, 0, 0xF⟩
/-- SGE.CNT_LINEMEM_CORR (R177). -/
def SGE.CNT_LINEMEM_CORR : RField := ⟨0x44, 1, 0, 1, 0, 0, 32, .ro, 0, 0, true, 0, 0xFFFFFFFF⟩
/-- SGE.CNT_LINEMEM_UNCORR (R177). -/
def SGE.CNT_LINEMEM_UNCORR : RField := ⟨0x48, 1, 0, 1, 0, 0, 32, .ro, 0, 0, true, 0, 0xFFFFFFFF⟩
/-- SGE.CNT_CLR (R177). -/
def SGE.CNT_CLR : RField := ⟨0x4C, 1, 0, 1, 0, 0, 1, .wo, 3, 0, false, 0, 1⟩
/-- SGX.EN (R177). -/
def SGX.EN : RField := ⟨0x100, 4, 0x100, 1, 0, 0, 1, .rws, 2, 0, false, 0, 1⟩
/-- SGX.WIN (R177). -/
def SGX.WIN : RField := ⟨0x100, 4, 0x100, 1, 0, 1, 2, .rws, 2, 1, false, 0, 2⟩
/-- SGX.PRED_MODE (R177). -/
def SGX.PRED_MODE : RField := ⟨0x100, 4, 0x100, 1, 0, 3, 2, .rws, 2, 3, false, 0, 3⟩
/-- SGX.LR_EN (R177). -/
def SGX.LR_EN : RField := ⟨0x100, 4, 0x100, 1, 0, 5, 1, .rws, 2, 1, false, 0, 1⟩
/-- SGX.RIGHT_EN (R177). -/
def SGX.RIGHT_EN : RField := ⟨0x100, 4, 0x100, 1, 0, 6, 1, .rws, 2, 0, false, 0, 1⟩
/-- SGX.FIT_MODE (R177). -/
def SGX.FIT_MODE : RField := ⟨0x100, 4, 0x100, 1, 0, 7, 1, .rws, 2, 0, false, 0, 1⟩
/-- SGX.CEXP (R177). -/
def SGX.CEXP : RField := ⟨0x100, 4, 0x100, 1, 0, 8, 2, .rws, 2, 0, false, 0, 2⟩
/-- SGX.IN_BITS (R177). -/
def SGX.IN_BITS : RField := ⟨0x100, 4, 0x100, 1, 0, 10, 5, .rws, 2, 0xC, false, 8, 0x10⟩
/-- SGX.LEFT_SRC (R177). -/
def SGX.LEFT_SRC : RField := ⟨0x100, 4, 0x100, 1, 0, 16, 6, .rws, 2, 0, false, 0, 0x3F⟩
/-- SGX.RIGHT_SRC (R177). -/
def SGX.RIGHT_SRC : RField := ⟨0x100, 4, 0x100, 1, 0, 22, 6, .rws, 2, 0, false, 0, 0x3F⟩
/-- SGX.WIDTH (R177). -/
def SGX.WIDTH : RField := ⟨0x104, 4, 0x100, 1, 0, 0, 14, .rws, 2, 0, false, 0, 0x3FFF⟩
/-- SGX.HEIGHT (R177). -/
def SGX.HEIGHT : RField := ⟨0x104, 4, 0x100, 1, 0, 16, 14, .rws, 2, 0, false, 0, 0x3FFF⟩
/-- SGX.P1 (R177). -/
def SGX.P1 : RField := ⟨0x108, 4, 0x100, 1, 0, 0, 6, .rws, 2, 8, false, 0, 0x3F⟩
/-- SGX.P2_MAX (R177). -/
def SGX.P2_MAX : RField := ⟨0x108, 4, 0x100, 1, 0, 8, 8, .rws, 2, 0x60, false, 0, 0xFF⟩
/-- SGX.P2_EDGE (R177). -/
def SGX.P2_EDGE : RField := ⟨0x108, 4, 0x100, 1, 0, 16, 8, .rws, 2, 0x40, false, 0, 0xFF⟩
/-- SGX.CW_CEN (R177). -/
def SGX.CW_CEN : RField := ⟨0x108, 4, 0x100, 1, 0, 24, 3, .rws, 2, 3, false, 0, 4⟩
/-- SGX.CW_AD (R177). -/
def SGX.CW_AD : RField := ⟨0x10C, 4, 0x100, 1, 0, 0, 7, .rws, 2, 0x10, false, 0, 0x40⟩
/-- SGX.AD_TRUNC (R177). -/
def SGX.AD_TRUNC : RField := ⟨0x10C, 4, 0x100, 1, 0, 8, 8, .rws, 2, 0xFF, false, 0, 0xFF⟩
/-- SGX.UNIQ (R177). -/
def SGX.UNIQ : RField := ⟨0x10C, 4, 0x100, 1, 0, 16, 8, .rws, 2, 0x1A, false, 0, 0xFF⟩
/-- SGX.FLAT_T (R177). -/
def SGX.FLAT_T : RField := ⟨0x110, 4, 0x100, 1, 0, 0, 11, .rws, 2, 0x60, false, 0, 0x7FF⟩
/-- SGX.LR_TOL (R177). -/
def SGX.LR_TOL : RField := ⟨0x110, 4, 0x100, 1, 0, 16, 8, .rws, 2, 0x10, false, 0, 0xFF⟩
/-- SGX.SAT_LEVEL (R177). -/
def SGX.SAT_LEVEL : RField := ⟨0x114, 4, 0x100, 1, 0, 0, 12, .rws, 2, 0xFFF, false, 0, 0xFFF⟩
/-- SGX.PRED_DEFAULT (R177). -/
def SGX.PRED_DEFAULT : RField := ⟨0x114, 4, 0x100, 1, 0, 16, 16, .rws, 2, 0, false, 0, 0xFFFF⟩
/-- SGX.PLANE_A (R177). -/
def SGX.PLANE_A : RField := ⟨0x118, 4, 0x100, 1, 0, 0, 16, .rws, 2, 0, false, 0, 0xFFFF⟩
/-- SGX.PLANE_BX (R177). -/
def SGX.PLANE_BX : RField := ⟨0x11C, 4, 0x100, 1, 0, 0, 16, .rws, 2, 0, false, 0, 0xFFFF⟩
/-- SGX.PLANE_BY (R177). -/
def SGX.PLANE_BY : RField := ⟨0x11C, 4, 0x100, 1, 0, 16, 16, .rws, 2, 0, false, 0, 0xFFFF⟩
/-- SGX.FRAME_IDX (R177). -/
def SGX.FRAME_IDX : RField := ⟨0x120, 4, 0x100, 1, 0, 0, 32, .ro, 0, 0, false, 0, 0xFFFFFFFF⟩
/-- SGX.LOCKED_USE (R177). -/
def SGX.LOCKED_USE : RField := ⟨0x124, 4, 0x100, 1, 0, 0, 1, .ro, 0, 0, false, 0, 1⟩
/-- SGX.PRED_FALLBACK (R177). -/
def SGX.PRED_FALLBACK : RField := ⟨0x124, 4, 0x100, 1, 0, 1, 1, .ro, 0, 0, false, 0, 1⟩
/-- SGX.CNT_PRED_FALLBACK (R177). -/
def SGX.CNT_PRED_FALLBACK : RField := ⟨0x124, 4, 0x100, 1, 0, 16, 16, .ro, 0, 0, true, 0, 0xFFFF⟩
/-- SGX.N_STATUS (R177). -/
def SGX.N_STATUS : RField := ⟨0x128, 4, 0x100, 7, 4, 0, 27, .ro, 0, 0, false, 0, 0x7FFFFFF⟩
/-- SGX.BC (R177). -/
def SGX.BC : RField := ⟨0x180, 4, 0x100, 16, 4, 0, 32, .rws, 2, 0, false, 0, 0xFFFFFFFF⟩
/-- OFE.CTX_ACTIVE (R204). -/
def OFE.CTX_ACTIVE : RField := ⟨0x40, 1, 0, 1, 0, 0, 2, .ro, 0, 0, false, 0, 3⟩
/-- OFE.CNT_LINEMEM_CORR (R204). -/
def OFE.CNT_LINEMEM_CORR : RField := ⟨0x44, 1, 0, 1, 0, 0, 32, .ro, 0, 0, true, 0, 0xFFFFFFFF⟩
/-- OFE.CNT_LINEMEM_UNCORR (R204). -/
def OFE.CNT_LINEMEM_UNCORR : RField := ⟨0x48, 1, 0, 1, 0, 0, 32, .ro, 0, 0, true, 0, 0xFFFFFFFF⟩
/-- OFE.CNT_CLR (R204). -/
def OFE.CNT_CLR : RField := ⟨0x4C, 1, 0, 1, 0, 0, 1, .wo, 3, 0, false, 0, 1⟩
/-- OFX.EN (R204). -/
def OFX.EN : RField := ⟨0x100, 2, 0x80, 1, 0, 0, 1, .rws, 2, 0, false, 0, 1⟩
/-- OFX.LEV_TOP (R204). -/
def OFX.LEV_TOP : RField := ⟨0x100, 2, 0x80, 1, 0, 1, 3, .rws, 2, 2, false, 0, 5⟩
/-- OFX.LEV_OUT (R204). -/
def OFX.LEV_OUT : RField := ⟨0x100, 2, 0x80, 1, 0, 4, 3, .rws, 2, 0, false, 0, 7⟩
/-- OFX.PRED_MODE (R204). -/
def OFX.PRED_MODE : RField := ⟨0x100, 2, 0x80, 1, 0, 7, 2, .rws, 2, 0, false, 0, 2⟩
/-- OFX.REF_DIST (R204). -/
def OFX.REF_DIST : RField := ⟨0x100, 2, 0x80, 1, 0, 9, 3, .rws, 2, 1, false, 1, 7⟩
/-- OFX.IN_BITS (R204). -/
def OFX.IN_BITS : RField := ⟨0x100, 2, 0x80, 1, 0, 12, 5, .rws, 2, 0xC, false, 8, 0x10⟩
/-- OFX.SRC (R204). -/
def OFX.SRC : RField := ⟨0x100, 2, 0x80, 1, 0, 24, 6, .rws, 2, 0x28, false, 0, 0x3F⟩
/-- OFX.WIDTH (R204). -/
def OFX.WIDTH : RField := ⟨0x104, 2, 0x80, 1, 0, 0, 14, .rws, 2, 0, false, 0, 0x3FFF⟩
/-- OFX.HEIGHT (R204). -/
def OFX.HEIGHT : RField := ⟨0x104, 2, 0x80, 1, 0, 16, 14, .rws, 2, 0, false, 0, 0x3FFF⟩
/-- OFX.TRUNC (R204). -/
def OFX.TRUNC : RField := ⟨0x108, 2, 0x80, 1, 0, 0, 12, .rws, 2, 0xFFF, false, 0, 0xFFF⟩
/-- OFX.LAMBDA (R204). -/
def OFX.LAMBDA : RField := ⟨0x108, 2, 0x80, 1, 0, 16, 8, .rws, 2, 4, false, 0, 0xFF⟩
/-- OFX.FLAT_T (R204). -/
def OFX.FLAT_T : RField := ⟨0x10C, 2, 0x80, 1, 0, 0, 16, .rws, 2, 0x200, false, 0, 0xFFFF⟩
/-- OFX.UNIQ (R204). -/
def OFX.UNIQ : RField := ⟨0x10C, 2, 0x80, 1, 0, 16, 8, .rws, 2, 0x1A, false, 0, 0xFF⟩
/-- OFX.SAT_CNT (R204). -/
def OFX.SAT_CNT : RField := ⟨0x10C, 2, 0x80, 1, 0, 24, 7, .rws, 2, 8, false, 1, 0x40⟩
/-- OFX.SAT_LEVEL (R204). -/
def OFX.SAT_LEVEL : RField := ⟨0x110, 2, 0x80, 1, 0, 0, 12, .rws, 2, 0xFFF, false, 0, 0xFFF⟩
/-- OFX.PRED_DX (R204). -/
def OFX.PRED_DX : RField := ⟨0x114, 2, 0x80, 1, 0, 0, 24, .rws, 2, 0, false, 0, 0xFFFFFF⟩
/-- OFX.PRED_DY (R204). -/
def OFX.PRED_DY : RField := ⟨0x118, 2, 0x80, 1, 0, 0, 24, .rws, 2, 0, false, 0, 0xFFFFFF⟩
/-- OFX.FRAME_IDX (R204). -/
def OFX.FRAME_IDX : RField := ⟨0x11C, 2, 0x80, 1, 0, 0, 32, .ro, 0, 0, false, 0, 0xFFFFFFFF⟩
/-- OFX.LOCKED_USE (R204). -/
def OFX.LOCKED_USE : RField := ⟨0x120, 2, 0x80, 1, 0, 0, 1, .ro, 0, 0, false, 0, 1⟩
/-- OFX.PRED_FALLBACK (R204). -/
def OFX.PRED_FALLBACK : RField := ⟨0x120, 2, 0x80, 1, 0, 1, 1, .ro, 0, 0, false, 0, 1⟩
/-- OFX.REF_MISSING (R204). -/
def OFX.REF_MISSING : RField := ⟨0x120, 2, 0x80, 1, 0, 2, 1, .ro, 0, 0, false, 0, 1⟩
/-- OFX.CNT_PRED_FALLBACK (R204). -/
def OFX.CNT_PRED_FALLBACK : RField := ⟨0x120, 2, 0x80, 1, 0, 16, 16, .ro, 0, 0, true, 0, 0xFFFF⟩
/-- OFX.N_STATUS (R204). -/
def OFX.N_STATUS : RField := ⟨0x124, 2, 0x80, 7, 4, 0, 22, .ro, 0, 0, false, 0, 0x3FFFFF⟩
/-- FPE.CTX_ACTIVE (R205). -/
def FPE.CTX_ACTIVE : RField := ⟨0x40, 1, 0, 1, 0, 0, 2, .ro, 0, 0, false, 0, 3⟩
/-- FPE.MATCH_BUSY (R205). -/
def FPE.MATCH_BUSY : RField := ⟨0x40, 1, 0, 1, 0, 4, 1, .ro, 0, 0, false, 0, 1⟩
/-- FPE.CNT_LINEMEM_CORR (R205). -/
def FPE.CNT_LINEMEM_CORR : RField := ⟨0x44, 1, 0, 1, 0, 0, 32, .ro, 0, 0, true, 0, 0xFFFFFFFF⟩
/-- FPE.CNT_LINEMEM_UNCORR (R205). -/
def FPE.CNT_LINEMEM_UNCORR : RField := ⟨0x48, 1, 0, 1, 0, 0, 32, .ro, 0, 0, true, 0, 0xFFFFFFFF⟩
/-- FPE.CNT_CLR (R205). -/
def FPE.CNT_CLR : RField := ⟨0x4C, 1, 0, 1, 0, 0, 1, .wo, 3, 0, false, 0, 1⟩
/-- FPE.MR (R205). -/
def FPE.MR : RField := ⟨0x200, 1, 0, 1, 0, 0, 8, .rws, 2, 0x18, false, 1, 0xFF⟩
/-- FPE.MAX_DIST (R205). -/
def FPE.MAX_DIST : RField := ⟨0x200, 1, 0, 1, 0, 8, 9, .rws, 2, 0x40, false, 0, 0x100⟩
/-- FPE.RATIO (R205). -/
def FPE.RATIO : RField := ⟨0x200, 1, 0, 1, 0, 24, 8, .rws, 2, 0xCD, false, 0, 0xFF⟩
/-- FPE.CROSS (R205). -/
def FPE.CROSS : RField := ⟨0x204, 1, 0, 1, 0, 0, 1, .rws, 2, 0, false, 0, 1⟩
/-- FPE.M_PRED (R205). -/
def FPE.M_PRED : RField := ⟨0x204, 1, 0, 1, 0, 1, 2, .rws, 2, 0, false, 0, 2⟩
/-- FPE.M_PRED_DX (R205). -/
def FPE.M_PRED_DX : RField := ⟨0x208, 1, 0, 1, 0, 0, 24, .rws, 2, 0, false, 0, 0xFFFFFF⟩
/-- FPE.M_PRED_DY (R205). -/
def FPE.M_PRED_DY : RField := ⟨0x20C, 1, 0, 1, 0, 0, 24, .rws, 2, 0, false, 0, 0xFFFFFF⟩
/-- FPE.M_LOCKED_USE (R205). -/
def FPE.M_LOCKED_USE : RField := ⟨0x210, 1, 0, 1, 0, 0, 1, .ro, 0, 0, false, 0, 1⟩
/-- FPX.EN (R205). -/
def FPX.EN : RField := ⟨0x100, 2, 0x80, 1, 0, 0, 1, .rws, 2, 0, false, 0, 1⟩
/-- FPX.N_ARC (R205). -/
def FPX.N_ARC : RField := ⟨0x100, 2, 0x80, 1, 0, 1, 4, .rws, 2, 9, false, 9, 0xC⟩
/-- FPX.NMS_R (R205). -/
def FPX.NMS_R : RField := ⟨0x100, 2, 0x80, 1, 0, 5, 3, .rws, 2, 2, false, 1, 4⟩
/-- FPX.CELL_SIZE (R205). -/
def FPX.CELL_SIZE : RField := ⟨0x100, 2, 0x80, 1, 0, 8, 2, .rws, 2, 1, false, 0, 3⟩
/-- FPX.SRC (R205). -/
def FPX.SRC : RField := ⟨0x100, 2, 0x80, 1, 0, 10, 6, .rws, 2, 0, false, 0, 0x3F⟩
/-- FPX.IN_BITS (R205). -/
def FPX.IN_BITS : RField := ⟨0x100, 2, 0x80, 1, 0, 16, 5, .rws, 2, 0xC, false, 8, 0x10⟩
/-- FPX.WIDTH (R205). -/
def FPX.WIDTH : RField := ⟨0x104, 2, 0x80, 1, 0, 0, 14, .rws, 2, 0, false, 0, 0x3FFF⟩
/-- FPX.HEIGHT (R205). -/
def FPX.HEIGHT : RField := ⟨0x104, 2, 0x80, 1, 0, 16, 14, .rws, 2, 0, false, 0, 0x3FFF⟩
/-- FPX.FT (R205). -/
def FPX.FT : RField := ⟨0x108, 2, 0x80, 1, 0, 0, 12, .rws, 2, 0x40, false, 0, 0xFFF⟩
/-- FPX.HK (R205). -/
def FPX.HK : RField := ⟨0x108, 2, 0x80, 1, 0, 16, 6, .rws, 2, 0xA, false, 0, 0x3F⟩
/-- FPX.SCORE_MIN (R205). -/
def FPX.SCORE_MIN : RField := ⟨0x10C, 2, 0x80, 1, 0, 0, 32, .rws, 2, 0x100, false, 0, 0xFFFFFFFF⟩
/-- FPX.CELL_QUOTA (R205). -/
def FPX.CELL_QUOTA : RField := ⟨0x110, 2, 0x80, 1, 0, 0, 8, .rws, 2, 0, false, 0, 0xFF⟩
/-- FPX.MAX_FEAT (R205). -/
def FPX.MAX_FEAT : RField := ⟨0x110, 2, 0x80, 1, 0, 8, 17, .rws, 2, 0x10000, false, 1, 0x10000⟩
/-- FPX.FRAME_IDX (R205). -/
def FPX.FRAME_IDX : RField := ⟨0x114, 2, 0x80, 1, 0, 0, 32, .ro, 0, 0, false, 0, 0xFFFFFFFF⟩
/-- FPX.N_FEAT (R205). -/
def FPX.N_FEAT : RField := ⟨0x118, 2, 0x80, 1, 0, 0, 17, .ro, 0, 0, false, 0, 0x1FFFF⟩
/-- FPX.LOCKED_USE (R205). -/
def FPX.LOCKED_USE : RField := ⟨0x11C, 2, 0x80, 1, 0, 0, 1, .ro, 0, 0, false, 0, 1⟩
/-- FPX.OVERFLOW (R205). -/
def FPX.OVERFLOW : RField := ⟨0x11C, 2, 0x80, 1, 0, 1, 1, .ro, 0, 0, false, 0, 1⟩
/-- FPX.CNT_OVERFLOW (R205). -/
def FPX.CNT_OVERFLOW : RField := ⟨0x11C, 2, 0x80, 1, 0, 16, 16, .ro, 0, 0, true, 0, 0xFFFF⟩
/-- WPE.CTX_ACTIVE (R227). -/
def WPE.CTX_ACTIVE : RField := ⟨0x40, 1, 0, 1, 0, 0, 4, .ro, 0, 0, false, 0, 0xF⟩
/-- WPE.CNT_LINEMEM_CORR (R227). -/
def WPE.CNT_LINEMEM_CORR : RField := ⟨0x44, 1, 0, 1, 0, 0, 32, .ro, 0, 0, true, 0, 0xFFFFFFFF⟩
/-- WPE.CNT_LINEMEM_UNCORR (R227). -/
def WPE.CNT_LINEMEM_UNCORR : RField := ⟨0x48, 1, 0, 1, 0, 0, 32, .ro, 0, 0, true, 0, 0xFFFFFFFF⟩
/-- WPE.CNT_CLR (R227). -/
def WPE.CNT_CLR : RField := ⟨0x4C, 1, 0, 1, 0, 0, 1, .wo, 3, 0, false, 0, 1⟩
/-- WPX.EN (R227). -/
def WPX.EN : RField := ⟨0x100, 4, 0x80, 1, 0, 0, 1, .rws, 2, 0, false, 0, 1⟩
/-- WPX.INTERP (R227). -/
def WPX.INTERP : RField := ⟨0x100, 4, 0x80, 1, 0, 1, 1, .rws, 2, 0, false, 0, 1⟩
/-- WPX.OOB_MODE (R227). -/
def WPX.OOB_MODE : RField := ⟨0x100, 4, 0x80, 1, 0, 2, 1, .rws, 2, 0, false, 0, 1⟩
/-- WPX.VBOUND (R227). -/
def WPX.VBOUND : RField := ⟨0x100, 4, 0x80, 1, 0, 3, 2, .rws, 2, 0, false, 0, 3⟩
/-- WPX.SRC (R227). -/
def WPX.SRC : RField := ⟨0x100, 4, 0x80, 1, 0, 8, 6, .rws, 2, 0, false, 0, 0x3F⟩
/-- WPX.IN_BITS (R227). -/
def WPX.IN_BITS : RField := ⟨0x100, 4, 0x80, 1, 0, 16, 5, .rws, 2, 0xC, false, 8, 0x10⟩
/-- WPX.SRC_WIDTH (R227). -/
def WPX.SRC_WIDTH : RField := ⟨0x104, 4, 0x80, 1, 0, 0, 14, .rws, 2, 0, false, 0, 0x3FFF⟩
/-- WPX.SRC_HEIGHT (R227). -/
def WPX.SRC_HEIGHT : RField := ⟨0x104, 4, 0x80, 1, 0, 16, 14, .rws, 2, 0, false, 0, 0x3FFF⟩
/-- WPX.OUT_WIDTH (R227). -/
def WPX.OUT_WIDTH : RField := ⟨0x108, 4, 0x80, 1, 0, 0, 14, .rws, 2, 0, false, 0, 0x3FFF⟩
/-- WPX.OUT_HEIGHT (R227). -/
def WPX.OUT_HEIGHT : RField := ⟨0x108, 4, 0x80, 1, 0, 16, 14, .rws, 2, 0, false, 0, 0x3FFF⟩
/-- WPX.ROW_OFF (R227). -/
def WPX.ROW_OFF : RField := ⟨0x10C, 4, 0x80, 1, 0, 0, 10, .rws, 2, 0, false, 0, 0x3FF⟩
/-- WPX.FILL (R227). -/
def WPX.FILL : RField := ⟨0x10C, 4, 0x80, 1, 0, 16, 16, .rws, 2, 0, false, 0, 0xFFFF⟩
/-- WPX.MESH_ADDR_LO (R227). -/
def WPX.MESH_ADDR_LO : RField := ⟨0x110, 4, 0x80, 1, 0, 0, 32, .rws, 2, 0, false, 0, 0xFFFFFFFF⟩
/-- WPX.MESH_ADDR_HI (R227). -/
def WPX.MESH_ADDR_HI : RField := ⟨0x114, 4, 0x80, 1, 0, 0, 16, .rws, 2, 0, false, 0, 0xFFFF⟩
/-- WPX.FRAME_IDX (R227). -/
def WPX.FRAME_IDX : RField := ⟨0x118, 4, 0x80, 1, 0, 0, 32, .ro, 0, 0, false, 0, 0xFFFFFFFF⟩
/-- WPX.LOCKED_USE (R227). -/
def WPX.LOCKED_USE : RField := ⟨0x11C, 4, 0x80, 1, 0, 0, 1, .ro, 0, 0, false, 0, 1⟩
/-- WPX.MESH_BAD (R227). -/
def WPX.MESH_BAD : RField := ⟨0x11C, 4, 0x80, 1, 0, 1, 1, .ro, 0, 0, false, 0, 1⟩
/-- WPX.MESH_BAD_NODE (R227). -/
def WPX.MESH_BAD_NODE : RField := ⟨0x11C, 4, 0x80, 1, 0, 12, 20, .ro, 0, 0, false, 0, 0xFFFFF⟩
/-- WPX.CNT_ROW_MISS (R227). -/
def WPX.CNT_ROW_MISS : RField := ⟨0x120, 4, 0x80, 1, 0, 0, 32, .ro, 0, 0, true, 0, 0xFFFFFFFF⟩
/-- PYE.CTX_ACTIVE (R228). -/
def PYE.CTX_ACTIVE : RField := ⟨0x40, 1, 0, 1, 0, 0, 4, .ro, 0, 0, false, 0, 0xF⟩
/-- PYE.CNT_LINEMEM_CORR (R228). -/
def PYE.CNT_LINEMEM_CORR : RField := ⟨0x44, 1, 0, 1, 0, 0, 32, .ro, 0, 0, true, 0, 0xFFFFFFFF⟩
/-- PYE.CNT_LINEMEM_UNCORR (R228). -/
def PYE.CNT_LINEMEM_UNCORR : RField := ⟨0x48, 1, 0, 1, 0, 0, 32, .ro, 0, 0, true, 0, 0xFFFFFFFF⟩
/-- PYE.CNT_CLR (R228). -/
def PYE.CNT_CLR : RField := ⟨0x4C, 1, 0, 1, 0, 0, 1, .wo, 3, 0, false, 0, 1⟩
/-- PYX.EN (R228). -/
def PYX.EN : RField := ⟨0x100, 4, 0x40, 1, 0, 0, 1, .rws, 2, 0, false, 0, 1⟩
/-- PYX.TOP (R228). -/
def PYX.TOP : RField := ⟨0x100, 4, 0x40, 1, 0, 1, 3, .rws, 2, 2, false, 0, 7⟩
/-- PYX.LAP_EN (R228). -/
def PYX.LAP_EN : RField := ⟨0x100, 4, 0x40, 1, 0, 4, 1, .rws, 2, 0, false, 0, 1⟩
/-- PYX.LAP_FMT (R228). -/
def PYX.LAP_FMT : RField := ⟨0x100, 4, 0x40, 1, 0, 5, 1, .rws, 2, 0, false, 0, 1⟩
/-- PYX.SRC (R228). -/
def PYX.SRC : RField := ⟨0x100, 4, 0x40, 1, 0, 8, 6, .rws, 2, 0, false, 0, 0x3F⟩
/-- PYX.IN_BITS (R228). -/
def PYX.IN_BITS : RField := ⟨0x100, 4, 0x40, 1, 0, 16, 5, .rws, 2, 0xC, false, 8, 0x10⟩
/-- PYX.WIDTH (R228). -/
def PYX.WIDTH : RField := ⟨0x104, 4, 0x40, 1, 0, 0, 14, .rws, 2, 0, false, 0, 0x3FFF⟩
/-- PYX.HEIGHT (R228). -/
def PYX.HEIGHT : RField := ⟨0x104, 4, 0x40, 1, 0, 16, 14, .rws, 2, 0, false, 0, 0x3FFF⟩
/-- PYX.FRAME_IDX (R228). -/
def PYX.FRAME_IDX : RField := ⟨0x108, 4, 0x40, 1, 0, 0, 32, .ro, 0, 0, false, 0, 0xFFFFFFFF⟩
/-- PYX.LOCKED_USE (R228). -/
def PYX.LOCKED_USE : RField := ⟨0x10C, 4, 0x40, 1, 0, 0, 1, .ro, 0, 0, false, 0, 1⟩
/-- PYX.LEV_DONE (R228). -/
def PYX.LEV_DONE : RField := ⟨0x10C, 4, 0x40, 1, 0, 8, 8, .ro, 0, 0, false, 0, 0xFF⟩
/-- PYX.CNT_ROW_MISS (R228). -/
def PYX.CNT_ROW_MISS : RField := ⟨0x110, 4, 0x40, 1, 0, 0, 32, .ro, 0, 0, true, 0, 0xFFFFFFFF⟩
/-- AMT.GSET_RUN (R257). -/
def AMT.GSET_RUN : RField := ⟨0x40, 1, 0, 1, 0, 0, 16, .ro, 0, 0, false, 0, 0xFFFF⟩
/-- AMT.GSET_MAQ (R257). -/
def AMT.GSET_MAQ : RField := ⟨0x40, 1, 0, 1, 0, 16, 16, .ro, 0, 0, false, 0, 0xFFFF⟩
/-- AMT.RUN_STATE (R257). -/
def AMT.RUN_STATE : RField := ⟨0x44, 1, 0, 1, 0, 0, 3, .ro, 0, 0, false, 0, 7⟩
/-- AMT.MAQ_STATE (R257). -/
def AMT.MAQ_STATE : RField := ⟨0x44, 1, 0, 1, 0, 4, 3, .ro, 0, 0, false, 0, 7⟩
/-- AMT.LAST_REFUSAL (R257). -/
def AMT.LAST_REFUSAL : RField := ⟨0x44, 1, 0, 1, 0, 8, 8, .ro, 0, 0, false, 0, 0xFF⟩
/-- AMT.REFUSAL_DETAIL (R257). -/
def AMT.REFUSAL_DETAIL : RField := ⟨0x48, 1, 0, 1, 0, 0, 32, .ro, 0, 0, false, 0, 0xFFFFFFFF⟩
/-- AMT.OP_CMD (R257). -/
def AMT.OP_CMD : RField := ⟨0x4C, 1, 0, 1, 0, 0, 4, .wo, 1, 0, false, 0, 0xF⟩
/-- AMT.INST_CMD (R257). -/
def AMT.INST_CMD : RField := ⟨0x4C, 1, 0, 1, 0, 8, 4, .wo, 2, 0, false, 0, 0xF⟩
/-- AMT.AT_BEAT_LO (R257). -/
def AMT.AT_BEAT_LO : RField := ⟨0x50, 1, 0, 1, 0, 0, 32, .rw, 1, 0, false, 0, 0xFFFFFFFF⟩
/-- AMT.AT_BEAT_HI (R257). -/
def AMT.AT_BEAT_HI : RField := ⟨0x54, 1, 0, 1, 0, 0, 32, .rw, 1, 0, false, 0, 0xFFFFFFFF⟩
/-- AMT.LOAD_SLOT (R257). -/
def AMT.LOAD_SLOT : RField := ⟨0x58, 1, 0, 1, 0, 0, 8, .rw, 3, 0, false, 0, 0xFF⟩
/-- AMT.LOAD_ADDR_LO (R257). -/
def AMT.LOAD_ADDR_LO : RField := ⟨0x5C, 1, 0, 1, 0, 0, 32, .rw, 2, 0, false, 0, 0xFFFFFFFF⟩
/-- AMT.LOAD_ADDR_HI (R257). -/
def AMT.LOAD_ADDR_HI : RField := ⟨0x60, 1, 0, 1, 0, 0, 16, .rw, 2, 0, false, 0, 0xFFFF⟩
/-- AMT.SWAP_WAIT (R257). -/
def AMT.SWAP_WAIT : RField := ⟨0x64, 1, 0, 1, 0, 0, 32, .rw, 2, 0x4C4B40, false, 1000, 0x2FAF080⟩
/-- AMT.PLACEMENT_IDX (R257). -/
def AMT.PLACEMENT_IDX : RField := ⟨0x68, 1, 0, 1, 0, 0, 8, .ro, 0, 0, false, 0, 0xFF⟩
/-- AMT.ABSENT (R257). -/
def AMT.ABSENT : RField := ⟨0x68, 1, 0, 1, 0, 8, 24, .ro, 0, 0, false, 0, 0xFFFFFF⟩
/-- AMT.CTX_BUSY (R257). -/
def AMT.CTX_BUSY : RField := ⟨0x6C, 1, 0, 1, 0, 0, 16, .ro, 0, 0, false, 0, 0xFFFF⟩
/-- AMT.CTX_LOCKED (R257). -/
def AMT.CTX_LOCKED : RField := ⟨0x6C, 1, 0, 1, 0, 16, 16, .ro, 0, 0, false, 0, 0xFFFF⟩
/-- AMT.INTAKE_DEPTH (R257). -/
def AMT.INTAKE_DEPTH : RField := ⟨0x70, 1, 0, 1, 0, 0, 9, .ro, 0, 0, false, 0, 0x1FF⟩
/-- AMT.CANCEL_CTX (R257). -/
def AMT.CANCEL_CTX : RField := ⟨0x74, 1, 0, 1, 0, 0, 4, .wo, 3, 0, false, 0, 0xF⟩
/-- AMT.CNT_TASK_DONE (R257). -/
def AMT.CNT_TASK_DONE : RField := ⟨0x78, 1, 0, 1, 0, 0, 32, .ro, 0, 0, true, 0, 0xFFFFFFFF⟩
/-- AMT.CNT_TASK_ABORT (R257). -/
def AMT.CNT_TASK_ABORT : RField := ⟨0x7C, 1, 0, 1, 0, 0, 32, .ro, 0, 0, true, 0, 0xFFFFFFFF⟩
/-- AMT.LAST_SWAP_BEAT_LO (R257). -/
def AMT.LAST_SWAP_BEAT_LO : RField := ⟨0x80, 1, 0, 1, 0, 0, 32, .ro, 0, 0, false, 0, 0xFFFFFFFF⟩
/-- AMT.LAST_SWAP_BEAT_HI (R257). -/
def AMT.LAST_SWAP_BEAT_HI : RField := ⟨0x84, 1, 0, 1, 0, 0, 32, .ro, 0, 0, false, 0, 0xFFFFFFFF⟩
/-- AMT.CNT_CLR (R257). -/
def AMT.CNT_CLR : RField := ⟨0x88, 1, 0, 1, 0, 0, 1, .wo, 3, 0, false, 0, 1⟩
/-- CLU.CNT_LOCKED (R258). -/
def CLU.CNT_LOCKED : RField := ⟨0x40, 1, 0, 1, 0, 0, 11, .ro, 0, 0, false, 0, 0x7FF⟩
/-- CLU.CNT_OPEN (R258). -/
def CLU.CNT_OPEN : RField := ⟨0x40, 1, 0, 1, 0, 16, 11, .ro, 0, 0, false, 0, 0x7FF⟩
/-- CLU.FLAGS_LOCKED (R258). -/
def CLU.FLAGS_LOCKED : RField := ⟨0x44, 1, 0, 1, 0, 0, 12, .ro, 0, 0, false, 0, 0xFFF⟩
/-- CLU.RL_DEPTH0 (R258). -/
def CLU.RL_DEPTH0 : RField := ⟨0x48, 1, 0, 1, 0, 0, 7, .ro, 0, 0, false, 0, 0x7F⟩
/-- CLU.RL_DEPTH1 (R258). -/
def CLU.RL_DEPTH1 : RField := ⟨0x48, 1, 0, 1, 0, 8, 7, .ro, 0, 0, false, 0, 0x7F⟩
/-- CLU.RL_DEPTH2 (R258). -/
def CLU.RL_DEPTH2 : RField := ⟨0x48, 1, 0, 1, 0, 16, 7, .ro, 0, 0, false, 0, 0x7F⟩
/-- CLU.RL_DEPTH3 (R258). -/
def CLU.RL_DEPTH3 : RField := ⟨0x48, 1, 0, 1, 0, 24, 7, .ro, 0, 0, false, 0, 0x7F⟩
/-- CLU.PENDING (R258). -/
def CLU.PENDING : RField := ⟨0x4C, 1, 0, 1, 0, 0, 16, .ro, 0, 0, false, 0, 0xFFFF⟩
/-- CLU.CNT_FLAG_FAULT (R258). -/
def CLU.CNT_FLAG_FAULT : RField := ⟨0x50, 1, 0, 1, 0, 0, 32, .ro, 0, 0, true, 0, 0xFFFFFFFF⟩
/-- CLU.CNT_CTR_FAULT (R258). -/
def CLU.CNT_CTR_FAULT : RField := ⟨0x54, 1, 0, 1, 0, 0, 32, .ro, 0, 0, true, 0, 0xFFFFFFFF⟩
/-- CLU.CNT_CLR (R258). -/
def CLU.CNT_CLR : RField := ⟨0x58, 1, 0, 1, 0, 0, 1, .wo, 3, 0, false, 0, 1⟩
/-- CLU.FLAG_BANK (R258). -/
def CLU.FLAG_BANK : RField := ⟨0x5C, 1, 0, 1, 0, 0, 1, .rw, 3, 0, false, 0, 1⟩
/-- CLU.FLAG_LO (R258). -/
def CLU.FLAG_LO : RField := ⟨0x800, 1, 0, 512, 4, 0, 16, .ro, 0, 0, false, 0, 0xFFFF⟩
/-- CLU.FLAG_HI (R258). -/
def CLU.FLAG_HI : RField := ⟨0x800, 1, 0, 512, 4, 16, 16, .ro, 0, 0, false, 0, 0xFFFF⟩
/-- TC.STATE (R287). -/
def TC.STATE : RField := ⟨0x40, 1, 0, 1, 0, 0, 2, .ro, 0, 0, false, 0, 3⟩
/-- TC.NODES_RUN (R287). -/
def TC.NODES_RUN : RField := ⟨0x40, 1, 0, 1, 0, 4, 3, .ro, 0, 0, false, 0, 7⟩
/-- TC.ENG_BUSY (R287). -/
def TC.ENG_BUSY : RField := ⟨0x40, 1, 0, 1, 0, 8, 4, .ro, 0, 0, false, 0, 0xF⟩
/-- TC.RINGS_RESV (R287). -/
def TC.RINGS_RESV : RField := ⟨0x40, 1, 0, 1, 0, 12, 3, .ro, 0, 0, false, 0, 7⟩
/-- TC.MV_REQ_ORDERED (R287). -/
def TC.MV_REQ_ORDERED : RField := ⟨0x44, 1, 0, 1, 0, 0, 1, .rw, 2, 0, false, 0, 1⟩
/-- TC.LAST_NODE (R287). -/
def TC.LAST_NODE : RField := ⟨0x48, 1, 0, 1, 0, 0, 16, .ro, 0, 0, false, 0, 0xFFFF⟩
/-- TC.LAST_CMD (R287). -/
def TC.LAST_CMD : RField := ⟨0x48, 1, 0, 1, 0, 16, 10, .ro, 0, 0, false, 0, 0x3FF⟩
/-- TC.LAST_CLASS (R287). -/
def TC.LAST_CLASS : RField := ⟨0x48, 1, 0, 1, 0, 28, 4, .ro, 0, 0, false, 0, 0xF⟩
/-- TC.CNT_CMD (R287). -/
def TC.CNT_CMD : RField := ⟨0x4C, 1, 0, 1, 0, 0, 32, .ro, 0, 0, true, 0, 0xFFFFFFFF⟩
/-- TC.CNT_SAT (R287). -/
def TC.CNT_SAT : RField := ⟨0x50, 1, 0, 1, 0, 0, 32, .ro, 0, 0, true, 0, 0xFFFFFFFF⟩
/-- TC.CNT_NONFINITE (R287). -/
def TC.CNT_NONFINITE : RField := ⟨0x54, 1, 0, 1, 0, 0, 32, .ro, 0, 0, true, 0, 0xFFFFFFFF⟩
/-- TC.CNT_CMD_FAULT (R287). -/
def TC.CNT_CMD_FAULT : RField := ⟨0x58, 1, 0, 1, 0, 0, 32, .ro, 0, 0, true, 0, 0xFFFFFFFF⟩
/-- TC.CNT_MXE_LO (R287). -/
def TC.CNT_MXE_LO : RField := ⟨0x5C, 1, 0, 1, 0, 0, 32, .ro, 0, 0, true, 0, 0xFFFFFFFF⟩
/-- TC.CNT_MXE_HI (R287). -/
def TC.CNT_MXE_HI : RField := ⟨0x60, 1, 0, 1, 0, 0, 32, .ro, 0, 0, true, 0, 0xFFFFFFFF⟩
/-- TC.CNT_MAC_LO (R287). -/
def TC.CNT_MAC_LO : RField := ⟨0x64, 1, 0, 1, 0, 0, 32, .ro, 0, 0, true, 0, 0xFFFFFFFF⟩
/-- TC.CNT_MAC_HI (R287). -/
def TC.CNT_MAC_HI : RField := ⟨0x68, 1, 0, 1, 0, 0, 32, .ro, 0, 0, true, 0, 0xFFFFFFFF⟩
/-- TC.CNT_ORDERED_STALL (R287). -/
def TC.CNT_ORDERED_STALL : RField := ⟨0x6C, 1, 0, 1, 0, 0, 32, .ro, 0, 0, true, 0, 0xFFFFFFFF⟩
/-- TC.CNT_CLR (R287). -/
def TC.CNT_CLR : RField := ⟨0x70, 1, 0, 1, 0, 0, 1, .wo, 3, 0, false, 0, 1⟩
/-- ENG.BUSY (R288). -/
def ENG.BUSY : RField := ⟨0x40, 1, 0, 1, 0, 0, 1, .ro, 0, 0, false, 0, 1⟩
/-- ENG.LOCKED_USE (R288). -/
def ENG.LOCKED_USE : RField := ⟨0x40, 1, 0, 1, 0, 1, 1, .ro, 0, 0, false, 0, 1⟩
/-- ENG.CNT_BUSY_LO (R288). -/
def ENG.CNT_BUSY_LO : RField := ⟨0x44, 1, 0, 1, 0, 0, 32, .ro, 0, 0, true, 0, 0xFFFFFFFF⟩
/-- ENG.CNT_BUSY_HI (R288). -/
def ENG.CNT_BUSY_HI : RField := ⟨0x48, 1, 0, 1, 0, 0, 32, .ro, 0, 0, true, 0, 0xFFFFFFFF⟩
/-- ENG.CNT_CLR (R288). -/
def ENG.CNT_CLR : RField := ⟨0x4C, 1, 0, 1, 0, 0, 1, .wo, 3, 0, false, 0, 1⟩
/-- BOD.N_VALID (R327). -/
def BOD.N_VALID : RField := ⟨0x40, 1, 0, 1, 0, 0, 17, .ro, 0, 0, false, 0, 0x1FFFF⟩
/-- BOD.N_LOCKED (R327). -/
def BOD.N_LOCKED : RField := ⟨0x44, 1, 0, 1, 0, 0, 17, .ro, 0, 0, false, 0, 0x1FFFF⟩
/-- BOD.ENT_SEL (R327). -/
def BOD.ENT_SEL : RField := ⟨0x48, 1, 0, 1, 0, 0, 16, .rw, 3, 0, false, 0, 0xFFFF⟩
/-- BOD.ENT_LO (R327). -/
def BOD.ENT_LO : RField := ⟨0x4C, 1, 0, 1, 0, 0, 32, .rw, 3, 0, false, 0, 0xFFFFFFFF⟩
/-- BOD.ENT_HI (R327). -/
def BOD.ENT_HI : RField := ⟨0x50, 1, 0, 1, 0, 0, 32, .rw, 3, 0, false, 0, 0xFFFFFFFF⟩
/-- BOD.BULK_ADDR_LO (R327). -/
def BOD.BULK_ADDR_LO : RField := ⟨0x54, 1, 0, 1, 0, 0, 32, .rw, 3, 0, false, 0, 0xFFFFFFFF⟩
/-- BOD.BULK_ADDR_HI (R327). -/
def BOD.BULK_ADDR_HI : RField := ⟨0x58, 1, 0, 1, 0, 0, 16, .rw, 3, 0, false, 0, 0xFFFF⟩
/-- BOD.BULK_FIRST (R327). -/
def BOD.BULK_FIRST : RField := ⟨0x5C, 1, 0, 1, 0, 0, 16, .rw, 3, 0, false, 0, 0xFFFF⟩
/-- BOD.BULK_COUNT (R327). -/
def BOD.BULK_COUNT : RField := ⟨0x60, 1, 0, 1, 0, 0, 17, .rw, 3, 0, false, 0, 0x1FFFF⟩
/-- BOD.BULK_GO (R327). -/
def BOD.BULK_GO : RField := ⟨0x64, 1, 0, 1, 0, 0, 1, .wo, 3, 0, false, 0, 1⟩
/-- BOD.BULK_BUSY (R327). -/
def BOD.BULK_BUSY : RField := ⟨0x64, 1, 0, 1, 0, 1, 1, .ro, 0, 0, false, 0, 1⟩
/-- BOD.BULK_STATUS (R327). -/
def BOD.BULK_STATUS : RField := ⟨0x64, 1, 0, 1, 0, 8, 8, .ro, 0, 0, false, 0, 0xFF⟩
/-- BOD.CNT_COORD_FAULT (R327). -/
def BOD.CNT_COORD_FAULT : RField := ⟨0x68, 1, 0, 1, 0, 0, 32, .ro, 0, 0, true, 0, 0xFFFFFFFF⟩
/-- BOD.CNT_CLR (R327). -/
def BOD.CNT_CLR : RField := ⟨0x6C, 1, 0, 1, 0, 0, 1, .wo, 3, 0, false, 0, 1⟩
/-- BODR.BASE_ENTRY (R327). -/
def BODR.BASE_ENTRY : RField := ⟨0x100, 64, 0x10, 1, 0, 0, 16, .rws, 3, 0, false, 0, 0xFFFF⟩
/-- BODR.BLOCK_LOG2 (R327). -/
def BODR.BLOCK_LOG2 : RField := ⟨0x100, 64, 0x10, 1, 0, 16, 4, .rws, 3, 6, false, 6, 0x10⟩
/-- BODR.LOCKED (R327). -/
def BODR.LOCKED : RField := ⟨0x100, 64, 0x10, 1, 0, 30, 1, .ro, 0, 0, false, 0, 1⟩
/-- BODR.EN (R327). -/
def BODR.EN : RField := ⟨0x100, 64, 0x10, 1, 0, 31, 1, .rws, 3, 0, false, 0, 1⟩
/-- BODR.GRID0 (R327). -/
def BODR.GRID0 : RField := ⟨0x104, 64, 0x10, 1, 0, 0, 16, .rws, 3, 1, false, 1, 0xFFFF⟩
/-- BODR.GRID1 (R327). -/
def BODR.GRID1 : RField := ⟨0x104, 64, 0x10, 1, 0, 16, 16, .rws, 3, 1, false, 1, 0xFFFF⟩
/-- BODR.GRID2 (R327). -/
def BODR.GRID2 : RField := ⟨0x108, 64, 0x10, 1, 0, 0, 16, .rws, 3, 1, false, 1, 0xFFFF⟩
/-- SPM.PROT (R349). -/
def SPM.PROT : RField := ⟨0x40, 1, 0, 1, 0, 0, 32, .rws, 2, 0, false, 0, 0xFFFFFFFF⟩
/-- SPM.LOCKED_SEG (R349). -/
def SPM.LOCKED_SEG : RField := ⟨0x44, 1, 0, 1, 0, 0, 32, .ro, 0, 0, false, 0, 0xFFFFFFFF⟩
/-- SPM.CNT_CORR (R349). -/
def SPM.CNT_CORR : RField := ⟨0x48, 1, 0, 1, 0, 0, 32, .ro, 0, 0, true, 0, 0xFFFFFFFF⟩
/-- SPM.CNT_UNCORR (R349). -/
def SPM.CNT_UNCORR : RField := ⟨0x4C, 1, 0, 1, 0, 0, 32, .ro, 0, 0, true, 0, 0xFFFFFFFF⟩
/-- SPM.CNT_RERUN (R349). -/
def SPM.CNT_RERUN : RField := ⟨0x50, 1, 0, 1, 0, 0, 32, .ro, 0, 0, true, 0, 0xFFFFFFFF⟩
/-- SPM.CNT_RERUN_FAIL (R349). -/
def SPM.CNT_RERUN_FAIL : RField := ⟨0x54, 1, 0, 1, 0, 0, 32, .ro, 0, 0, true, 0, 0xFFFFFFFF⟩
/-- SPM.SCRUB_PASS (R349). -/
def SPM.SCRUB_PASS : RField := ⟨0x58, 1, 0, 1, 0, 0, 24, .ro, 0, 0, false, 0, 0xFFFFFF⟩
/-- SPM.SCRUB_LIMIT (R349). -/
def SPM.SCRUB_LIMIT : RField := ⟨0x5C, 1, 0, 1, 0, 0, 24, .rw, 2, 0xC350, false, 1000, 0x4C4B40⟩
/-- SPM.STUCK_OFS (R349). -/
def SPM.STUCK_OFS : RField := ⟨0x60, 1, 0, 1, 0, 3, 18, .ro, 0, 0, false, 0, 0x3FFFF⟩
/-- SPM.CNT_DET_IDLE (R349). -/
def SPM.CNT_DET_IDLE : RField := ⟨0x64, 1, 0, 1, 0, 0, 32, .ro, 0, 0, true, 0, 0xFFFFFFFF⟩
/-- SPM.CNT_CLR (R349). -/
def SPM.CNT_CLR : RField := ⟨0x68, 1, 0, 1, 0, 0, 1, .wo, 3, 0, false, 0, 1⟩
/-- SPM.WMASK_EVEN (R349). -/
def SPM.WMASK_EVEN : RField := ⟨0x200, 1, 0, 16, 4, 0, 16, .ro, 0, 0, false, 0, 0xFFFF⟩
/-- SPM.WMASK_ODD (R349). -/
def SPM.WMASK_ODD : RField := ⟨0x200, 1, 0, 16, 4, 16, 16, .ro, 0, 0, false, 0, 0xFFFF⟩
/-- SPR.BASE (R349). -/
def SPR.BASE : RField := ⟨0x100, 16, 0x10, 1, 0, 0, 15, .rws, 2, 0, false, 0, 0x7FFF⟩
/-- SPR.SLOT_LOG2 (R349). -/
def SPR.SLOT_LOG2 : RField := ⟨0x100, 16, 0x10, 1, 0, 15, 4, .rws, 2, 0, false, 0, 0xA⟩
/-- SPR.SLOTS (R349). -/
def SPR.SLOTS : RField := ⟨0x100, 16, 0x10, 1, 0, 19, 9, .rws, 2, 2, false, 2, 0x100⟩
/-- SPR.EN (R349). -/
def SPR.EN : RField := ⟨0x100, 16, 0x10, 1, 0, 31, 1, .rws, 2, 0, false, 0, 1⟩
/-- SPR.H (R349). -/
def SPR.H : RField := ⟨0x104, 16, 0x10, 1, 0, 0, 10, .ro, 0, 0, false, 0, 0x3FF⟩
/-- SPR.T (R349). -/
def SPR.T : RField := ⟨0x104, 16, 0x10, 1, 0, 16, 10, .ro, 0, 0, false, 0, 0x3FF⟩
/-- SPR.R (R349). -/
def SPR.R : RField := ⟨0x108, 16, 0x10, 1, 0, 0, 10, .ro, 0, 0, false, 0, 0x3FF⟩
/-- SPR.NCONS (R349). -/
def SPR.NCONS : RField := ⟨0x108, 16, 0x10, 1, 0, 12, 3, .rws, 2, 1, false, 1, 4⟩
/-- SPR.OWNER (R349). -/
def SPR.OWNER : RField := ⟨0x108, 16, 0x10, 1, 0, 16, 5, .ro, 0, 0x1F, false, 0, 0x1F⟩
/-- SPR.LOCKED (R349). -/
def SPR.LOCKED : RField := ⟨0x108, 16, 0x10, 1, 0, 24, 1, .ro, 0, 0, false, 0, 1⟩
/-- CMEM.PROT_LO (R350). -/
def CMEM.PROT_LO : RField := ⟨0x40, 1, 0, 1, 0, 0, 32, .rws, 2, 0, false, 0, 0xFFFFFFFF⟩
/-- CMEM.PROT_HI (R350). -/
def CMEM.PROT_HI : RField := ⟨0x44, 1, 0, 1, 0, 0, 32, .rws, 2, 0, false, 0, 0xFFFFFFFF⟩
/-- CMEM.CACHE_SEGS (R350). -/
def CMEM.CACHE_SEGS : RField := ⟨0x48, 1, 0, 1, 0, 0, 3, .rws, 2, 0, false, 0, 4⟩
/-- CMEM.LOCKED_SEG_LO (R350). -/
def CMEM.LOCKED_SEG_LO : RField := ⟨0x4C, 1, 0, 1, 0, 0, 32, .ro, 0, 0, false, 0, 0xFFFFFFFF⟩
/-- CMEM.LOCKED_SEG_HI (R350). -/
def CMEM.LOCKED_SEG_HI : RField := ⟨0x50, 1, 0, 1, 0, 0, 32, .ro, 0, 0, false, 0, 0xFFFFFFFF⟩
/-- CMEM.CNT_CORR (R350). -/
def CMEM.CNT_CORR : RField := ⟨0x54, 1, 0, 1, 0, 0, 32, .ro, 0, 0, true, 0, 0xFFFFFFFF⟩
/-- CMEM.CNT_UNCORR (R350). -/
def CMEM.CNT_UNCORR : RField := ⟨0x58, 1, 0, 1, 0, 0, 32, .ro, 0, 0, true, 0, 0xFFFFFFFF⟩
/-- CMEM.CNT_CACHE_HIT (R350). -/
def CMEM.CNT_CACHE_HIT : RField := ⟨0x5C, 1, 0, 1, 0, 0, 32, .ro, 0, 0, true, 0, 0xFFFFFFFF⟩
/-- CMEM.CNT_CACHE_MISS (R350). -/
def CMEM.CNT_CACHE_MISS : RField := ⟨0x60, 1, 0, 1, 0, 0, 32, .ro, 0, 0, true, 0, 0xFFFFFFFF⟩
/-- CMEM.CNT_CACHE_REFETCH (R350). -/
def CMEM.CNT_CACHE_REFETCH : RField := ⟨0x64, 1, 0, 1, 0, 0, 32, .ro, 0, 0, true, 0, 0xFFFFFFFF⟩
/-- CMEM.SCRUB_PASS (R350). -/
def CMEM.SCRUB_PASS : RField := ⟨0x68, 1, 0, 1, 0, 0, 24, .ro, 0, 0, false, 0, 0xFFFFFF⟩
/-- CMEM.SCRUB_LIMIT (R350). -/
def CMEM.SCRUB_LIMIT : RField := ⟨0x6C, 1, 0, 1, 0, 0, 24, .rw, 2, 0xC350, false, 1000, 0x4C4B40⟩
/-- CMEM.RING_WDOG (R350). -/
def CMEM.RING_WDOG : RField := ⟨0x70, 1, 0, 1, 0, 0, 16, .rw, 2, 0x1F4, false, 10, 0xC350⟩
/-- CMEM.CNT_WDOG (R350). -/
def CMEM.CNT_WDOG : RField := ⟨0x74, 1, 0, 1, 0, 0, 32, .ro, 0, 0, true, 0, 0xFFFFFFFF⟩
/-- CMEM.CNT_CLR (R350). -/
def CMEM.CNT_CLR : RField := ⟨0x78, 1, 0, 1, 0, 0, 1, .wo, 3, 0, false, 0, 1⟩
/-- CMEM.WMASK_EVEN (R350). -/
def CMEM.WMASK_EVEN : RField := ⟨0x600, 1, 0, 32, 4, 0, 16, .ro, 0, 0, false, 0, 0xFFFF⟩
/-- CMEM.WMASK_ODD (R350). -/
def CMEM.WMASK_ODD : RField := ⟨0x600, 1, 0, 32, 4, 16, 16, .ro, 0, 0, false, 0, 0xFFFF⟩
/-- PMC.PM_EN (R351). -/
def PMC.PM_EN : RField := ⟨0x40, 1, 0, 1, 0, 0, 3, .rw, 2, 0, false, 0, 7⟩
/-- PMC.PM_FULL (R351). -/
def PMC.PM_FULL : RField := ⟨0x44, 1, 0, 1, 0, 0, 1, .ro, 0, 0, false, 0, 1⟩
/-- PMC.PM_MISSED (R351). -/
def PMC.PM_MISSED : RField := ⟨0x44, 1, 0, 1, 0, 8, 8, .ro, 0, 0, false, 0, 0xFF⟩
/-- PMC.PM_RELEASE (R351). -/
def PMC.PM_RELEASE : RField := ⟨0x48, 1, 0, 1, 0, 0, 1, .wo, 2, 0, false, 0, 1⟩
/-- PMC.WIN_OFS (R351). -/
def PMC.WIN_OFS : RField := ⟨0x50, 1, 0, 4, 4, 0, 15, .rws, 2, 0, false, 0, 0x7FFF⟩
/-- PMC.WIN_LEN (R351). -/
def PMC.WIN_LEN : RField := ⟨0x50, 1, 0, 4, 4, 16, 10, .rws, 2, 0, false, 0, 0x2FF⟩
/-- MC.ECC_EN (R377). -/
def MC.ECC_EN : RField := ⟨0x40, 1, 0, 1, 0, 0, 1, .rl, 2, 1, false, 0, 1⟩
/-- MC.PATROL_LINES (R377). -/
def MC.PATROL_LINES : RField := ⟨0x44, 1, 0, 1, 0, 0, 7, .rw, 2, 0x10, false, 0, 0x40⟩
/-- MC.CNT_PATROL_PASS (R377). -/
def MC.CNT_PATROL_PASS : RField := ⟨0x48, 1, 0, 1, 0, 0, 32, .ro, 0, 0, false, 0, 0xFFFFFFFF⟩
/-- MC.LAST_UNCORR_LO (R377). -/
def MC.LAST_UNCORR_LO : RField := ⟨0x4C, 1, 0, 1, 0, 0, 32, .ro, 0, 0, false, 0, 0xFFFFFFFF⟩
/-- MC.LAST_UNCORR_HI (R377). -/
def MC.LAST_UNCORR_HI : RField := ⟨0x50, 1, 0, 1, 0, 0, 16, .ro, 0, 0, false, 0, 0xFFFF⟩
/-- MCG.TRAINED (R377). -/
def MCG.TRAINED : RField := ⟨0x40, 1, 0, 1, 0, 0, 1, .ro, 0, 0, false, 0, 1⟩
/-- MCG.MARGIN_MIN (R377). -/
def MCG.MARGIN_MIN : RField := ⟨0x44, 1, 0, 1, 0, 0, 8, .rw, 2, 4, false, 1, 0x20⟩
/-- MCG.CNT_CLR (R377). -/
def MCG.CNT_CLR : RField := ⟨0x48, 1, 0, 1, 0, 0, 1, .wo, 3, 0, false, 0, 1⟩
/-- MCG.LOCKED_SLOTS (R377). -/
def MCG.LOCKED_SLOTS : RField := ⟨0x100, 8, 0x20, 1, 0, 0, 6, .ro, 0, 0, false, 0, 0x3F⟩
/-- MCG.CNT_ECC_CORR (R377). -/
def MCG.CNT_ECC_CORR : RField := ⟨0x104, 8, 0x20, 1, 0, 0, 32, .ro, 0, 0, true, 0, 0xFFFFFFFF⟩
/-- MCG.CNT_ECC_UNCORR (R377). -/
def MCG.CNT_ECC_UNCORR : RField := ⟨0x108, 8, 0x20, 1, 0, 0, 32, .ro, 0, 0, true, 0, 0xFFFFFFFF⟩
/-- MCG.CNT_EDC_RETRY (R377). -/
def MCG.CNT_EDC_RETRY : RField := ⟨0x10C, 8, 0x20, 1, 0, 0, 32, .ro, 0, 0, true, 0, 0xFFFFFFFF⟩
/-- MCG.CNT_EDC_EXHAUST (R377). -/
def MCG.CNT_EDC_EXHAUST : RField := ⟨0x110, 8, 0x20, 1, 0, 0, 32, .ro, 0, 0, true, 0, 0xFFFFFFFF⟩
/-- MCG.MARGIN (R377). -/
def MCG.MARGIN : RField := ⟨0x114, 8, 0x20, 1, 0, 0, 8, .ro, 0, 0, false, 0, 0xFF⟩
/-- MMU.INV_CTX (R378). -/
def MMU.INV_CTX : RField := ⟨0x40, 1, 0, 1, 0, 0, 4, .wo, 3, 0, false, 0, 0xF⟩
/-- MMU.PF_WAIT (R378). -/
def MMU.PF_WAIT : RField := ⟨0x44, 1, 0, 1, 0, 0, 24, .rw, 2, 0x1388, false, 50, 0x4C4B40⟩
/-- MMU.PF_CTX (R378). -/
def MMU.PF_CTX : RField := ⟨0x48, 1, 0, 1, 0, 0, 4, .ro, 0, 0, false, 0, 0xF⟩
/-- MMU.PF_PENDING (R378). -/
def MMU.PF_PENDING : RField := ⟨0x48, 1, 0, 1, 0, 7, 1, .ro, 0, 0, false, 0, 1⟩
/-- MMU.PF_ADDR_LO (R378). -/
def MMU.PF_ADDR_LO : RField := ⟨0x4C, 1, 0, 1, 0, 0, 32, .ro, 0, 0, false, 0, 0xFFFFFFFF⟩
/-- MMU.PF_ADDR_HI (R378). -/
def MMU.PF_ADDR_HI : RField := ⟨0x50, 1, 0, 1, 0, 0, 16, .ro, 0, 0, false, 0, 0xFFFF⟩
/-- MMU.RESUME_CTX (R378). -/
def MMU.RESUME_CTX : RField := ⟨0x54, 1, 0, 1, 0, 0, 4, .wo, 3, 0, false, 0, 0xF⟩
/-- MMU.WIN_COUNT (R378). -/
def MMU.WIN_COUNT : RField := ⟨0x58, 1, 0, 1, 0, 0, 7, .ro, 0, 0, false, 0, 0x7F⟩
/-- MMU.CNT_WALK (R378). -/
def MMU.CNT_WALK : RField := ⟨0x5C, 1, 0, 1, 0, 0, 32, .ro, 0, 0, true, 0, 0xFFFFFFFF⟩
/-- MMU.CNT_PF (R378). -/
def MMU.CNT_PF : RField := ⟨0x60, 1, 0, 1, 0, 0, 32, .ro, 0, 0, true, 0, 0xFFFFFFFF⟩
/-- MMU.CNT_CLR (R378). -/
def MMU.CNT_CLR : RField := ⟨0x64, 1, 0, 1, 0, 0, 1, .wo, 3, 0, false, 0, 1⟩
/-- MMU.ROOT_LO (R378). -/
def MMU.ROOT_LO : RField := ⟨0x100, 1, 0, 16, 8, 0, 32, .ro, 0, 0, false, 0, 0xFFFFFFFF⟩
/-- MMU.ROOT_HI (R378). -/
def MMU.ROOT_HI : RField := ⟨0x104, 1, 0, 16, 8, 0, 16, .ro, 0, 0, false, 0, 0xFFFF⟩
/-- STR.EN (R379). -/
def STR.EN : RField := ⟨0x100, 8, 0x20, 1, 0, 0, 1, .rws, 2, 0, false, 0, 1⟩
/-- STR.DIR (R379). -/
def STR.DIR : RField := ⟨0x100, 8, 0x20, 1, 0, 1, 1, .rws, 2, 0, false, 0, 1⟩
/-- STR.CMEM (R379). -/
def STR.CMEM : RField := ⟨0x100, 8, 0x20, 1, 0, 2, 1, .rws, 2, 0, false, 0, 1⟩
/-- STR.RING (R379). -/
def STR.RING : RField := ⟨0x100, 8, 0x20, 1, 0, 3, 6, .rws, 2, 3, false, 0, 0x3F⟩
/-- STR.RUNAHEAD (R379). -/
def STR.RUNAHEAD : RField := ⟨0x100, 8, 0x20, 1, 0, 9, 4, .rws, 2, 0, false, 0, 8⟩
/-- STR.ARM_ADDR_LO (R379). -/
def STR.ARM_ADDR_LO : RField := ⟨0x104, 8, 0x20, 1, 0, 0, 32, .wo, 3, 0, false, 0, 0xFFFFFFFF⟩
/-- STR.ARM_ADDR_HI (R379). -/
def STR.ARM_ADDR_HI : RField := ⟨0x108, 8, 0x20, 1, 0, 0, 16, .wo, 3, 0, false, 0, 0xFFFF⟩
/-- STR.ARM_COUNT (R379). -/
def STR.ARM_COUNT : RField := ⟨0x10C, 8, 0x20, 1, 0, 0, 16, .wo, 3, 0, false, 0, 0xFFFF⟩
/-- STR.STATE (R379). -/
def STR.STATE : RField := ⟨0x110, 8, 0x20, 1, 0, 0, 3, .ro, 0, 0, false, 0, 7⟩
/-- STR.LOCKED_USE (R379). -/
def STR.LOCKED_USE : RField := ⟨0x110, 8, 0x20, 1, 0, 8, 1, .ro, 0, 0, false, 0, 1⟩
/-- STR.ACT_POS (R379). -/
def STR.ACT_POS : RField := ⟨0x114, 8, 0x20, 1, 0, 0, 16, .ro, 0, 0, false, 0, 0xFFFF⟩
/-- STR.ACT_COUNT (R379). -/
def STR.ACT_COUNT : RField := ⟨0x114, 8, 0x20, 1, 0, 16, 16, .ro, 0, 0, false, 0, 0xFFFF⟩
/-- STR.PEND_COUNT (R379). -/
def STR.PEND_COUNT : RField := ⟨0x118, 8, 0x20, 1, 0, 0, 16, .ro, 0, 0, false, 0, 0xFFFF⟩
/-- STR.AHEAD (R379). -/
def STR.AHEAD : RField := ⟨0x118, 8, 0x20, 1, 0, 16, 4, .ro, 0, 0, false, 0, 0xF⟩
/-- STR.CNT_ARM_OVERRUN (R379). -/
def STR.CNT_ARM_OVERRUN : RField := ⟨0x11C, 8, 0x20, 1, 0, 0, 16, .ro, 0, 0, true, 0, 0xFFFF⟩
/-- DIG.LOG_EN (R393). -/
def DIG.LOG_EN : RField := ⟨0x40, 1, 0, 1, 0, 0, 1, .rws, 2, 0, false, 0, 1⟩
/-- DIG.LOG_OPEN (R393). -/
def DIG.LOG_OPEN : RField := ⟨0x40, 1, 0, 1, 0, 1, 1, .rws, 2, 0, false, 0, 1⟩
/-- DIG.LOG_BASE_LO (R393). -/
def DIG.LOG_BASE_LO : RField := ⟨0x44, 1, 0, 1, 0, 16, 16, .rws, 2, 0, false, 0, 0xFFFF⟩
/-- DIG.LOG_BASE_HI (R393). -/
def DIG.LOG_BASE_HI : RField := ⟨0x48, 1, 0, 1, 0, 0, 16, .rws, 2, 0, false, 0, 0xFFFF⟩
/-- DIG.LOG_SIZE_LOG2 (R393). -/
def DIG.LOG_SIZE_LOG2 : RField := ⟨0x4C, 1, 0, 1, 0, 0, 5, .rws, 2, 0x10, false, 16, 0x1E⟩
/-- DIG.LOG_WRITTEN (R393). -/
def DIG.LOG_WRITTEN : RField := ⟨0x50, 1, 0, 1, 0, 0, 32, .ro, 0, 0, false, 0, 0xFFFFFFFF⟩
/-- DIG.CNT_LOG_DROP (R393). -/
def DIG.CNT_LOG_DROP : RField := ⟨0x54, 1, 0, 1, 0, 0, 32, .ro, 0, 0, true, 0, 0xFFFFFFFF⟩
/-- DIG.ALIGN_PHASE (R393). -/
def DIG.ALIGN_PHASE : RField := ⟨0x58, 1, 0, 1, 0, 0, 6, .ro, 0, 0, false, 0, 0x3F⟩
/-- DIG.CNT_CLR (R393). -/
def DIG.CNT_CLR : RField := ⟨0x5C, 1, 0, 1, 0, 0, 1, .wo, 3, 0, false, 0, 1⟩
/-- DIG.RUN_ID (R393). -/
def DIG.RUN_ID : RField := ⟨0x80, 1, 0, 8, 4, 0, 32, .ro, 0, 0, false, 0, 0xFFFFFFFF⟩
/-- DIGR.COOKIE_LO (R393). -/
def DIGR.COOKIE_LO : RField := ⟨0x100, 4, 0x20, 1, 0, 0, 32, .rw, 2, 0, false, 0, 0xFFFFFFFF⟩
/-- DIGR.COOKIE_HI (R393). -/
def DIGR.COOKIE_HI : RField := ⟨0x104, 4, 0x20, 1, 0, 0, 32, .rw, 2, 0, false, 0, 0xFFFFFFFF⟩
/-- DIGR.SEED_LO (R393). -/
def DIGR.SEED_LO : RField := ⟨0x108, 4, 0x20, 1, 0, 0, 32, .rw, 2, 0, false, 0, 0xFFFFFFFF⟩
/-- DIGR.SEED_HI (R393). -/
def DIGR.SEED_HI : RField := ⟨0x10C, 4, 0x20, 1, 0, 0, 32, .rw, 2, 0, false, 0, 0xFFFFFFFF⟩
/-- DIGR.GRAPH (R393). -/
def DIGR.GRAPH : RField := ⟨0x110, 4, 0x20, 1, 0, 0, 8, .rw, 2, 0xFF, false, 0, 0xFF⟩
/-- DIGR.EN (R393). -/
def DIGR.EN : RField := ⟨0x110, 4, 0x20, 1, 0, 31, 1, .rw, 2, 0, false, 0, 1⟩
/-- DIGR.STEP_LO (R393). -/
def DIGR.STEP_LO : RField := ⟨0x114, 4, 0x20, 1, 0, 0, 32, .rw, 2, 0, false, 0, 0xFFFFFFFF⟩
/-- DIGR.STEP_HI (R393). -/
def DIGR.STEP_HI : RField := ⟨0x118, 4, 0x20, 1, 0, 0, 16, .rw, 2, 0, false, 0, 0xFFFF⟩
/-- DIGR.USED_BEAT_LO (R393). -/
def DIGR.USED_BEAT_LO : RField := ⟨0x11C, 4, 0x20, 1, 0, 0, 32, .ro, 0, 0, false, 0, 0xFFFFFFFF⟩
/-- PLN.SAFE (R417). -/
def PLN.SAFE : RField := ⟨0x40, 1, 0, 1, 0, 0, 1, .ro, 0, 0, false, 0, 1⟩
/-- PLN.HELD (R417). -/
def PLN.HELD : RField := ⟨0x40, 1, 0, 1, 0, 1, 1, .ro, 0, 0, false, 0, 1⟩
/-- PLN.REASON (R417). -/
def PLN.REASON : RField := ⟨0x40, 1, 0, 1, 0, 8, 8, .ro, 0, 0x10, false, 0, 0xFF⟩
/-- PLN.CAUSES (R417). -/
def PLN.CAUSES : RField := ⟨0x44, 1, 0, 1, 0, 1, 8, .ro, 0, 0, false, 0, 0xFF⟩
/-- PLN.SAFE_BEAT_LO (R417). -/
def PLN.SAFE_BEAT_LO : RField := ⟨0x48, 1, 0, 1, 0, 0, 32, .ro, 0, 0, false, 0, 0xFFFFFFFF⟩
/-- PLN.SAFE_BEAT_HI (R417). -/
def PLN.SAFE_BEAT_HI : RField := ⟨0x4C, 1, 0, 1, 0, 0, 32, .ro, 0, 0, false, 0, 0xFFFFFFFF⟩
/-- PLN.SAFE_UNITS (R417). -/
def PLN.SAFE_UNITS : RField := ⟨0x50, 1, 0, 1, 0, 0, 24, .ro, 0, 0, false, 0, 0xFFFFFF⟩
/-- PLN.CLEAR_RESULT (R417). -/
def PLN.CLEAR_RESULT : RField := ⟨0x54, 1, 0, 1, 0, 0, 4, .ro, 0, 0, false, 0, 0xF⟩
/-- PLN.CMD_SEQ (R417). -/
def PLN.CMD_SEQ : RField := ⟨0x54, 1, 0, 1, 0, 16, 16, .ro, 0, 0, false, 0, 0xFFFF⟩
/-- PLN.CLEAR (R417). -/
def PLN.CLEAR : RField := ⟨0x58, 1, 0, 1, 0, 0, 1, .wo, 1, 0, false, 0, 1⟩
/-- PLN.INHIBIT (R417). -/
def PLN.INHIBIT : RField := ⟨0x5C, 1, 0, 1, 0, 0, 1, .rw, 1, 0, false, 0, 1⟩
/-- PLN.SL_INHIBIT (R417). -/
def PLN.SL_INHIBIT : RField := ⟨0x5C, 1, 0, 1, 0, 1, 1, .ro, 0, 0, false, 0, 1⟩
/-- PLN.INV_RUN (R417). -/
def PLN.INV_RUN : RField := ⟨0x60, 1, 0, 1, 0, 0, 4, .ro, 0, 0, false, 0, 0xF⟩
/-- PLN.INV_WIN (R417). -/
def PLN.INV_WIN : RField := ⟨0x60, 1, 0, 1, 0, 8, 7, .ro, 0, 0, false, 0, 0x7F⟩
/-- PLN.INV_WIN_MAX (R417). -/
def PLN.INV_WIN_MAX : RField := ⟨0x64, 1, 0, 1, 0, 0, 6, .rl, 2, 0xC, false, 8, 0x20⟩
/-- PLN.ODO_POS_LO (R417). -/
def PLN.ODO_POS_LO : RField := ⟨0x68, 1, 0, 1, 0, 0, 32, .ro, 0, 0, false, 0, 0xFFFFFFFF⟩
/-- PLN.ODO_POS_HI (R417). -/
def PLN.ODO_POS_HI : RField := ⟨0x6C, 1, 0, 1, 0, 0, 32, .ro, 0, 0, false, 0, 0xFFFFFFFF⟩
/-- PLN.ODO_SEQ (R417). -/
def PLN.ODO_SEQ : RField := ⟨0x70, 1, 0, 1, 0, 0, 16, .ro, 0, 0, false, 0, 0xFFFF⟩
/-- PLN.ODO_AGE (R417). -/
def PLN.ODO_AGE : RField := ⟨0x70, 1, 0, 1, 0, 16, 16, .ro, 0, 0xFFFF, false, 0, 0xFFFF⟩
/-- PLN.VT_LO (R417). -/
def PLN.VT_LO : RField := ⟨0x74, 1, 0, 1, 0, 0, 32, .ro, 0, 0, false, 0, 0xFFFFFFFF⟩
/-- PLN.VT_HI (R417). -/
def PLN.VT_HI : RField := ⟨0x78, 1, 0, 1, 0, 0, 32, .ro, 0, 0, false, 0, 0xFFFFFFFF⟩
/-- PLN.CNT_SL0_CRC (R417). -/
def PLN.CNT_SL0_CRC : RField := ⟨0x80, 1, 0, 1, 0, 0, 16, .ro, 0, 0, true, 0, 0xFFFF⟩
/-- PLN.CNT_SL1_CRC (R417). -/
def PLN.CNT_SL1_CRC : RField := ⟨0x80, 1, 0, 1, 0, 16, 16, .ro, 0, 0, true, 0, 0xFFFF⟩
/-- PLN.CNT_MSG_CONFLICT (R417). -/
def PLN.CNT_MSG_CONFLICT : RField := ⟨0x84, 1, 0, 1, 0, 0, 16, .ro, 0, 0, true, 0, 0xFFFF⟩
/-- PLN.CNT_FAULT_DROP (R417). -/
def PLN.CNT_FAULT_DROP : RField := ⟨0x84, 1, 0, 1, 0, 16, 16, .ro, 0, 0, true, 0, 0xFFFF⟩
/-- PLN.CNT_SAFE_ENTRY (R417). -/
def PLN.CNT_SAFE_ENTRY : RField := ⟨0x88, 1, 0, 1, 0, 0, 16, .ro, 0, 0, true, 0, 0xFFFF⟩
/-- PLN.SL_LOS (R417). -/
def PLN.SL_LOS : RField := ⟨0x8C, 1, 0, 1, 0, 0, 2, .ro, 0, 3, false, 0, 3⟩
/-- PLN.CNT_CLR (R417). -/
def PLN.CNT_CLR : RField := ⟨0x90, 1, 0, 1, 0, 0, 1, .wo, 3, 0, false, 0, 1⟩
/-- CCP.N_PAIRS (R418). -/
def CCP.N_PAIRS : RField := ⟨0x40, 1, 0, 1, 0, 0, 5, .ro, 0, 0, false, 0, 0x1F⟩
/-- CCP.K_DEG (R418). -/
def CCP.K_DEG : RField := ⟨0x40, 1, 0, 1, 0, 8, 8, .ro, 0, 2, false, 0, 0xFF⟩
/-- CCP.K_SAFE (R418). -/
def CCP.K_SAFE : RField := ⟨0x40, 1, 0, 1, 0, 16, 8, .ro, 0, 4, false, 0, 0xFF⟩
/-- CCP.N_WIN (R418). -/
def CCP.N_WIN : RField := ⟨0x40, 1, 0, 1, 0, 24, 8, .ro, 0, 0x10, false, 0, 0xFF⟩
/-- CCP.K_PERSIST (R418). -/
def CCP.K_PERSIST : RField := ⟨0x44, 1, 0, 1, 0, 0, 4, .ro, 0, 3, false, 0, 0xF⟩
/-- CCP.WITHHELD (R418). -/
def CCP.WITHHELD : RField := ⟨0x48, 1, 0, 1, 0, 0, 16, .ro, 0, 0, false, 0, 0xFFFF⟩
/-- CCP.TT_PENDING (R418). -/
def CCP.TT_PENDING : RField := ⟨0x4C, 1, 0, 1, 0, 0, 24, .ro, 0, 0, false, 0, 0xFFFFFF⟩
/-- CCP.CNT_DISAGREE (R418). -/
def CCP.CNT_DISAGREE : RField := ⟨0x50, 1, 0, 1, 0, 0, 32, .ro, 0, 0, true, 0, 0xFFFFFFFF⟩
/-- CCP.CNT_CLR (R418). -/
def CCP.CNT_CLR : RField := ⟨0x54, 1, 0, 1, 0, 0, 1, .wo, 3, 0, false, 0, 1⟩
/-- CCPP.KIND (R418). -/
def CCPP.KIND : RField := ⟨0x100, 16, 0x20, 1, 0, 0, 2, .ro, 0, 0, false, 0, 3⟩
/-- CCPP.FIELD_X (R418). -/
def CCPP.FIELD_X : RField := ⟨0x100, 16, 0x20, 1, 0, 8, 8, .ro, 0, 0, false, 0, 0xFF⟩
/-- CCPP.FIELD_Y (R418). -/
def CCPP.FIELD_Y : RField := ⟨0x100, 16, 0x20, 1, 0, 16, 8, .ro, 0, 0, false, 0, 0xFF⟩
/-- CCPP.TYPE (R418). -/
def CCPP.TYPE : RField := ⟨0x100, 16, 0x20, 1, 0, 24, 8, .ro, 0, 0, false, 0, 0xFF⟩
/-- CCPP.BAND_ABS_LO (R418). -/
def CCPP.BAND_ABS_LO : RField := ⟨0x104, 16, 0x20, 1, 0, 0, 32, .ro, 0, 0, false, 0, 0xFFFFFFFF⟩
/-- CCPP.BAND_ABS_HI (R418). -/
def CCPP.BAND_ABS_HI : RField := ⟨0x108, 16, 0x20, 1, 0, 0, 32, .ro, 0, 0, false, 0, 0xFFFFFFFF⟩
/-- CCPP.BAND_REL (R418). -/
def CCPP.BAND_REL : RField := ⟨0x10C, 16, 0x20, 1, 0, 0, 16, .ro, 0, 0, false, 0, 0xFFFF⟩
/-- CCPP.SKEW (R418). -/
def CCPP.SKEW : RField := ⟨0x10C, 16, 0x20, 1, 0, 16, 16, .ro, 0, 0, false, 0, 0xFFFF⟩
/-- CCPP.MAX_GAP (R418). -/
def CCPP.MAX_GAP : RField := ⟨0x110, 16, 0x20, 1, 0, 0, 16, .ro, 0, 0, false, 0, 0xFFFF⟩
/-- CCPP.COUNT (R418). -/
def CCPP.COUNT : RField := ⟨0x110, 16, 0x20, 1, 0, 16, 8, .ro, 0, 0, false, 0, 0xFF⟩
/-- CCPP.PERSIST_RUN (R418). -/
def CCPP.PERSIST_RUN : RField := ⟨0x110, 16, 0x20, 1, 0, 24, 4, .ro, 0, 0, false, 0, 0xF⟩
/-- CCPP.LAST_MARGIN (R418). -/
def CCPP.LAST_MARGIN : RField := ⟨0x114, 16, 0x20, 1, 0, 0, 32, .ro, 0, 0, false, 0, 0xFFFFFFFF⟩
/-- CCPP.CNT_FAIL (R418). -/
def CCPP.CNT_FAIL : RField := ⟨0x118, 16, 0x20, 1, 0, 0, 32, .ro, 0, 0, true, 0, 0xFFFFFFFF⟩
/-- CCPP.GAP (R418). -/
def CCPP.GAP : RField := ⟨0x11C, 16, 0x20, 1, 0, 0, 16, .ro, 0, 0, false, 0, 0xFFFF⟩
/-- AGM.CNT_LATE (R419). -/
def AGM.CNT_LATE : RField := ⟨0x40, 1, 0, 1, 0, 0, 32, .ro, 0, 0, true, 0, 0xFFFFFFFF⟩
/-- AGM.AGE_MAX (R419). -/
def AGM.AGE_MAX : RField := ⟨0x44, 1, 0, 1, 0, 0, 16, .ro, 0, 0, true, 0, 0xFFFF⟩
/-- AGM.CNT_CLR (R419). -/
def AGM.CNT_CLR : RField := ⟨0x48, 1, 0, 1, 0, 0, 1, .wo, 3, 0, false, 0, 1⟩
/-- AGMF.BOUND (R419). -/
def AGMF.BOUND : RField := ⟨0x100, 32, 0x10, 1, 0, 0, 16, .ro, 0, 0, false, 0, 0xFFFF⟩
/-- AGMF.OFFSET (R419). -/
def AGMF.OFFSET : RField := ⟨0x100, 32, 0x10, 1, 0, 16, 8, .ro, 0, 0, false, 0, 0xFF⟩
/-- AGMF.LENGTH (R419). -/
def AGMF.LENGTH : RField := ⟨0x100, 32, 0x10, 1, 0, 24, 4, .ro, 0, 0, false, 0, 0xF⟩
/-- AGMF.AGE_LAST (R419). -/
def AGMF.AGE_LAST : RField := ⟨0x104, 32, 0x10, 1, 0, 0, 16, .ro, 0, 0, false, 0, 0xFFFF⟩
/-- AGMF.ALT_USED (R419). -/
def AGMF.ALT_USED : RField := ⟨0x104, 32, 0x10, 1, 0, 16, 1, .ro, 0, 0, false, 0, 1⟩
/-- AGMF.WITHHELD (R419). -/
def AGMF.WITHHELD : RField := ⟨0x104, 32, 0x10, 1, 0, 17, 1, .ro, 0, 0, false, 0, 1⟩
/-- AGMF.CNT_LATE_F (R419). -/
def AGMF.CNT_LATE_F : RField := ⟨0x108, 32, 0x10, 1, 0, 0, 32, .ro, 0, 0, true, 0, 0xFFFFFFFF⟩
/-- RSP.DI_BEATS (R433). -/
def RSP.DI_BEATS : RField := ⟨0x40, 1, 0, 1, 0, 0, 24, .rws, 2, 0xC350, false, 5000, 0x7A120⟩
/-- RSP.READMIT_MAX (R433). -/
def RSP.READMIT_MAX : RField := ⟨0x44, 1, 0, 1, 0, 0, 2, .rl, 2, 2, false, 0, 3⟩
/-- RSP.RETIRED (R433). -/
def RSP.RETIRED : RField := ⟨0x48, 1, 0, 1, 0, 0, 24, .ro, 0, 0, false, 0, 0xFFFFFF⟩
/-- RSP.READMIT_PEND (R433). -/
def RSP.READMIT_PEND : RField := ⟨0x4C, 1, 0, 1, 0, 0, 24, .ro, 0, 0, false, 0, 0xFFFFFF⟩
/-- RSP.TARGETED (R433). -/
def RSP.TARGETED : RField := ⟨0x50, 1, 0, 1, 0, 0, 24, .ro, 0, 0, false, 0, 0xFFFFFF⟩
/-- RSP.LATENT_U (R433). -/
def RSP.LATENT_U : RField := ⟨0x54, 1, 0, 1, 0, 0, 24, .ro, 0, 0, false, 0, 0xFFFFFF⟩
/-- RSP.LATENT_MC (R433). -/
def RSP.LATENT_MC : RField := ⟨0x58, 1, 0, 1, 0, 0, 16, .ro, 0, 0, false, 0, 0xFFFF⟩
/-- RSP.LATENT_CLU (R433). -/
def RSP.LATENT_CLU : RField := ⟨0x58, 1, 0, 1, 0, 16, 6, .ro, 0, 0, false, 0, 0x3F⟩
/-- RSP.LATENT_IFE (R433). -/
def RSP.LATENT_IFE : RField := ⟨0x58, 1, 0, 1, 0, 24, 1, .ro, 0, 0, false, 0, 1⟩
/-- RSP.LATENT_CEN (R433). -/
def RSP.LATENT_CEN : RField := ⟨0x58, 1, 0, 1, 0, 25, 1, .ro, 0, 0, false, 0, 1⟩
/-- RSP.LATENT_PLN (R433). -/
def RSP.LATENT_PLN : RField := ⟨0x58, 1, 0, 1, 0, 26, 1, .ro, 0, 0, false, 0, 1⟩
/-- RSP.FAILED_MC (R433). -/
def RSP.FAILED_MC : RField := ⟨0x5C, 1, 0, 1, 0, 0, 16, .ro, 0, 0, false, 0, 0xFFFF⟩
/-- RSP.FAILED_CLU (R433). -/
def RSP.FAILED_CLU : RField := ⟨0x5C, 1, 0, 1, 0, 16, 6, .ro, 0, 0, false, 0, 0x3F⟩
/-- RSP.FAILED_IFE (R433). -/
def RSP.FAILED_IFE : RField := ⟨0x5C, 1, 0, 1, 0, 24, 1, .ro, 0, 0, false, 0, 1⟩
/-- RSP.FAILED_CEN (R433). -/
def RSP.FAILED_CEN : RField := ⟨0x5C, 1, 0, 1, 0, 25, 1, .ro, 0, 0, false, 0, 1⟩
/-- RSP.FAILED_PLN (R433). -/
def RSP.FAILED_PLN : RField := ⟨0x5C, 1, 0, 1, 0, 26, 1, .ro, 0, 0, false, 0, 1⟩
/-- RSP.REQ_UNIT (R433). -/
def RSP.REQ_UNIT : RField := ⟨0x60, 1, 0, 1, 0, 0, 5, .wo, 1, 0, false, 0, 0x1F⟩
/-- RSP.REQ (R433). -/
def RSP.REQ : RField := ⟨0x60, 1, 0, 1, 0, 31, 1, .wo, 1, 0, false, 0, 1⟩
/-- RSP.CNT_ROT (R433). -/
def RSP.CNT_ROT : RField := ⟨0x64, 1, 0, 1, 0, 0, 32, .ro, 0, 0, true, 0, 0xFFFFFFFF⟩
/-- RSP.CNT_INCOMPLETE (R433). -/
def RSP.CNT_INCOMPLETE : RField := ⟨0x68, 1, 0, 1, 0, 0, 16, .ro, 0, 0, true, 0, 0xFFFF⟩
/-- RSP.CNT_TRANSIENT (R433). -/
def RSP.CNT_TRANSIENT : RField := ⟨0x68, 1, 0, 1, 0, 16, 16, .ro, 0, 0, true, 0, 0xFFFF⟩
/-- RSP.CNT_FAIL (R433). -/
def RSP.CNT_FAIL : RField := ⟨0x6C, 1, 0, 1, 0, 0, 16, .ro, 0, 0, true, 0, 0xFFFF⟩
/-- RSP.CNT_DI_MISSED (R433). -/
def RSP.CNT_DI_MISSED : RField := ⟨0x6C, 1, 0, 1, 0, 16, 16, .ro, 0, 0, true, 0, 0xFFFF⟩
/-- RSP.CNT_CLR (R433). -/
def RSP.CNT_CLR : RField := ⟨0x70, 1, 0, 1, 0, 0, 1, .wo, 3, 0, false, 0, 1⟩
/-- RSP.RETIRE_CNT0 (R433). -/
def RSP.RETIRE_CNT0 : RField := ⟨0x80, 1, 0, 1, 0, 0, 32, .ro, 0, 0, false, 0, 0xFFFFFFFF⟩
/-- RSP.RETIRE_CNT1 (R433). -/
def RSP.RETIRE_CNT1 : RField := ⟨0x84, 1, 0, 1, 0, 0, 16, .ro, 0, 0, false, 0, 0xFFFF⟩
/-- RSP.PLN_POS (R433). -/
def RSP.PLN_POS : RField := ⟨0xC0, 1, 0, 1, 0, 0, 9, .ro, 0, 0, false, 0, 0x1FF⟩
/-- RSP.PLN_AGE (R433). -/
def RSP.PLN_AGE : RField := ⟨0xC0, 1, 0, 1, 0, 24, 8, .ro, 0, 0, false, 0, 0xFF⟩
/-- RSPU.POS (R433). -/
def RSPU.POS : RField := ⟨0x100, 24, 4, 1, 0, 0, 16, .ro, 0, 0, false, 0, 0xFFFF⟩
/-- RSPU.TEST (R433). -/
def RSPU.TEST : RField := ⟨0x100, 24, 4, 1, 0, 16, 4, .ro, 0, 0, false, 0, 0xF⟩
/-- RSPU.MODE (R433). -/
def RSPU.MODE : RField := ⟨0x100, 24, 4, 1, 0, 20, 2, .ro, 0, 0, false, 0, 3⟩
/-- RSPU.AGE (R433). -/
def RSPU.AGE : RField := ⟨0x100, 24, 4, 1, 0, 24, 8, .ro, 0, 0, false, 0, 0xFF⟩
/-- LCS.STATE (R455). -/
def LCS.STATE : RField := ⟨0x40, 1, 0, 1, 0, 0, 3, .ro, 0, 0, false, 0, 7⟩
/-- LCS.CHANGING (R455). -/
def LCS.CHANGING : RField := ⟨0x40, 1, 0, 1, 0, 4, 1, .ro, 0, 0, false, 0, 1⟩
/-- LCS.REQ (R455). -/
def LCS.REQ : RField := ⟨0x44, 1, 0, 1, 0, 0, 3, .wo, 7, 0, false, 0, 7⟩
/-- LCS.RESULT (R455). -/
def LCS.RESULT : RField := ⟨0x48, 1, 0, 1, 0, 0, 8, .ro, 0, 0, false, 0, 0xFF⟩
/-- LCS.SERVICE_SEQ_LO (R455). -/
def LCS.SERVICE_SEQ_LO : RField := ⟨0x4C, 1, 0, 1, 0, 0, 32, .ro, 0, 0, false, 0, 0xFFFFFFFF⟩
/-- LCS.SERVICE_SEQ_HI (R455). -/
def LCS.SERVICE_SEQ_HI : RField := ⟨0x50, 1, 0, 1, 0, 0, 32, .ro, 0, 0, false, 0, 0xFFFFFFFF⟩
/-- MGC.FW_VERSION (R456). -/
def MGC.FW_VERSION : RField := ⟨0x40, 1, 0, 1, 0, 0, 32, .ro, 0, 0, false, 0, 0xFFFFFFFF⟩
/-- MGC.FW_FLOOR (R456). -/
def MGC.FW_FLOOR : RField := ⟨0x44, 1, 0, 1, 0, 0, 32, .ro, 0, 0, false, 0, 0xFFFFFFFF⟩
/-- MGC.STORE_CMD (R456). -/
def MGC.STORE_CMD : RField := ⟨0x48, 1, 0, 1, 0, 0, 4, .wo, 6, 0, false, 0, 0xF⟩
/-- MGC.STORE_SLOT (R456). -/
def MGC.STORE_SLOT : RField := ⟨0x48, 1, 0, 1, 0, 8, 3, .wo, 2, 0, false, 0, 7⟩
/-- MGC.STORE_SRC_LO (R456). -/
def MGC.STORE_SRC_LO : RField := ⟨0x4C, 1, 0, 1, 0, 0, 32, .rw, 6, 0, false, 0, 0xFFFFFFFF⟩
/-- MGC.STORE_SRC_HI (R456). -/
def MGC.STORE_SRC_HI : RField := ⟨0x50, 1, 0, 1, 0, 0, 16, .rw, 6, 0, false, 0, 0xFFFF⟩
/-- MGC.STORE_LEN (R456). -/
def MGC.STORE_LEN : RField := ⟨0x54, 1, 0, 1, 0, 0, 32, .rw, 6, 0, false, 0, 0xFFFFFFFF⟩
/-- MGC.STORE_BUSY (R456). -/
def MGC.STORE_BUSY : RField := ⟨0x58, 1, 0, 1, 0, 0, 1, .ro, 0, 0, false, 0, 1⟩
/-- MGC.STORE_RESULT (R456). -/
def MGC.STORE_RESULT : RField := ⟨0x58, 1, 0, 1, 0, 8, 8, .ro, 0, 0, false, 0, 0xFF⟩
/-- MGC.ATT_NONCE (R456). -/
def MGC.ATT_NONCE : RField := ⟨0x60, 1, 0, 8, 4, 0, 32, .rw, 7, 0, false, 0, 0xFFFFFFFF⟩
/-- MGC.ATT_ADDR_LO (R456). -/
def MGC.ATT_ADDR_LO : RField := ⟨0x80, 1, 0, 1, 0, 0, 32, .rw, 7, 0, false, 0, 0xFFFFFFFF⟩
/-- MGC.ATT_ADDR_HI (R456). -/
def MGC.ATT_ADDR_HI : RField := ⟨0x84, 1, 0, 1, 0, 0, 16, .rw, 7, 0, false, 0, 0xFFFF⟩
/-- MGC.ATT_GO (R456). -/
def MGC.ATT_GO : RField := ⟨0x88, 1, 0, 1, 0, 0, 1, .wo, 7, 0, false, 0, 1⟩
/-- MGC.ATT_BUSY (R456). -/
def MGC.ATT_BUSY : RField := ⟨0x88, 1, 0, 1, 0, 1, 1, .ro, 0, 0, false, 0, 1⟩
/-- MGC.AUD_SEQ_LO (R456). -/
def MGC.AUD_SEQ_LO : RField := ⟨0x90, 1, 0, 1, 0, 0, 32, .ro, 0, 0, false, 0, 0xFFFFFFFF⟩
/-- MGC.AUD_SEQ_HI (R456). -/
def MGC.AUD_SEQ_HI : RField := ⟨0x94, 1, 0, 1, 0, 0, 32, .ro, 0, 0, false, 0, 0xFFFFFFFF⟩
/-- MGC.AUD_FIRST_LO (R456). -/
def MGC.AUD_FIRST_LO : RField := ⟨0x98, 1, 0, 1, 0, 0, 32, .rw, 7, 0, false, 0, 0xFFFFFFFF⟩
/-- MGC.AUD_FIRST_HI (R456). -/
def MGC.AUD_FIRST_HI : RField := ⟨0x9C, 1, 0, 1, 0, 0, 32, .rw, 7, 0, false, 0, 0xFFFFFFFF⟩
/-- MGC.AUD_COUNT (R456). -/
def MGC.AUD_COUNT : RField := ⟨0xA0, 1, 0, 1, 0, 0, 18, .rw, 7, 0, false, 0, 0x3FFFF⟩
/-- MGC.AUD_ADDR_LO (R456). -/
def MGC.AUD_ADDR_LO : RField := ⟨0xA4, 1, 0, 1, 0, 0, 32, .rw, 7, 0, false, 0, 0xFFFFFFFF⟩
/-- MGC.AUD_ADDR_HI (R456). -/
def MGC.AUD_ADDR_HI : RField := ⟨0xA8, 1, 0, 1, 0, 0, 16, .rw, 7, 0, false, 0, 0xFFFF⟩
/-- MGC.AUD_GO (R456). -/
def MGC.AUD_GO : RField := ⟨0xAC, 1, 0, 1, 0, 0, 1, .wo, 7, 0, false, 0, 1⟩
/-- MGC.AUD_CKPT_COPY (R456). -/
def MGC.AUD_CKPT_COPY : RField := ⟨0xAC, 1, 0, 1, 0, 1, 1, .rw, 7, 0, false, 0, 1⟩
/-- MGC.AUD_CKPT (R456). -/
def MGC.AUD_CKPT : RField := ⟨0xAC, 1, 0, 1, 0, 2, 1, .wo, 6, 0, false, 0, 1⟩
/-- MGC.CNT_AUD_LOST (R456). -/
def MGC.CNT_AUD_LOST : RField := ⟨0xB0, 1, 0, 1, 0, 0, 16, .ro, 0, 0, false, 0, 0xFFFF⟩
/-- MGC.CNT_AUD_TORN (R456). -/
def MGC.CNT_AUD_TORN : RField := ⟨0xB0, 1, 0, 1, 0, 16, 16, .ro, 0, 0, false, 0, 0xFFFF⟩
/-- MGC.ID_DIGEST (R456). -/
def MGC.ID_DIGEST : RField := ⟨0x100, 1, 0, 8, 4, 0, 32, .ro, 0, 0, false, 0, 0xFFFFFFFF⟩
/-- HDR.BLK_ID (R463). -/
def HDR.BLK_ID : RField := ⟨0, 1, 0, 1, 0, 0, 16, .ro, 0, 0, false, 0, 0xFFFF⟩
/-- HDR.FEATURE (R463). -/
def HDR.FEATURE : RField := ⟨4, 1, 0, 1, 0, 0, 8, .ro, 0, 2, false, 0, 0xFF⟩
/-- HDR.MINOR (R463). -/
def HDR.MINOR : RField := ⟨4, 1, 0, 1, 0, 8, 8, .ro, 0, 0, false, 0, 0xFF⟩
/-- HDR.GENERATION (R463). -/
def HDR.GENERATION : RField := ⟨4, 1, 0, 1, 0, 16, 8, .ro, 0, 1, false, 0, 0xFF⟩
/-- HDR.BLK_CAPS0 (R463). -/
def HDR.BLK_CAPS0 : RField := ⟨8, 1, 0, 1, 0, 0, 32, .ro, 0, 0, false, 0, 0xFFFFFFFF⟩
/-- HDR.BLK_CAPS1 (R463). -/
def HDR.BLK_CAPS1 : RField := ⟨0xC, 1, 0, 1, 0, 0, 32, .ro, 0, 0, false, 0, 0xFFFFFFFF⟩
/-- HDR.EN (R463). -/
def HDR.EN : RField := ⟨0x10, 1, 0, 1, 0, 0, 1, .rw, 2, 1, false, 0, 1⟩
/-- HDR.SWRST (R463). -/
def HDR.SWRST : RField := ⟨0x10, 1, 0, 1, 0, 1, 1, .rw, 2, 0, false, 0, 1⟩
/-- HDR.IDLE_REQ (R463). -/
def HDR.IDLE_REQ : RField := ⟨0x10, 1, 0, 1, 0, 2, 1, .ro, 0, 0, false, 0, 1⟩
/-- HDR.IDLE (R463). -/
def HDR.IDLE : RField := ⟨0x14, 1, 0, 1, 0, 0, 1, .ro, 0, 1, false, 0, 1⟩
/-- HDR.READY (R463). -/
def HDR.READY : RField := ⟨0x14, 1, 0, 1, 0, 1, 1, .ro, 0, 0, false, 0, 1⟩
/-- HDR.LOCKED_USE (R463). -/
def HDR.LOCKED_USE : RField := ⟨0x14, 1, 0, 1, 0, 2, 1, .ro, 0, 0, false, 0, 1⟩
/-- HDR.RESETTING (R463). -/
def HDR.RESETTING : RField := ⟨0x14, 1, 0, 1, 0, 3, 1, .ro, 0, 0, false, 0, 1⟩
/-- HDR.BLK_EVT_STAT (R463). -/
def HDR.BLK_EVT_STAT : RField := ⟨0x18, 1, 0, 1, 0, 0, 32, .w1c, 3, 0, false, 0, 0xFFFFFFFF⟩
/-- HDR.BLK_EVT_MASK (R463). -/
def HDR.BLK_EVT_MASK : RField := ⟨0x1C, 1, 0, 1, 0, 0, 32, .rw, 3, 0, false, 0, 0xFFFFFFFF⟩
/-- HDR.LAST_FAULT (R463). -/
def HDR.LAST_FAULT : RField := ⟨0x20, 1, 0, 1, 0, 0, 16, .ro, 0, 0, false, 0, 0xFFFF⟩
/-- HDR.FAULT_COUNT (R463). -/
def HDR.FAULT_COUNT : RField := ⟨0x20, 1, 0, 1, 0, 16, 16, .ro, 0, 0, false, 0, 0xFFFF⟩
/-- HDR.GO (R463). -/
def HDR.GO : RField := ⟨0x24, 1, 0, 1, 0, 0, 1, .wo, 3, 0, false, 0, 1⟩
/-- HDR.WHEN (R463). -/
def HDR.WHEN : RField := ⟨0x24, 1, 0, 1, 0, 1, 2, .ro, 0, 0, false, 0, 3⟩
/-- HDR.PENDING (R463). -/
def HDR.PENDING : RField := ⟨0x24, 1, 0, 1, 0, 4, 1, .ro, 0, 0, false, 0, 1⟩
/-- HDR.REJECTED (R463). -/
def HDR.REJECTED : RField := ⟨0x24, 1, 0, 1, 0, 5, 1, .ro, 0, 0, false, 0, 1⟩
/-- HDR.SHADOW_VIEW (R463). -/
def HDR.SHADOW_VIEW : RField := ⟨0x24, 1, 0, 1, 0, 6, 1, .rw, 3, 0, false, 0, 1⟩
/-- HDR.REJECT_CODE (R463). -/
def HDR.REJECT_CODE : RField := ⟨0x24, 1, 0, 1, 0, 8, 8, .ro, 0, 0, false, 0, 0xFF⟩
/-- HDR.REJECT_WORD (R463). -/
def HDR.REJECT_WORD : RField := ⟨0x24, 1, 0, 1, 0, 16, 10, .ro, 0, 0, false, 0, 0x3FF⟩
/-- HDR.ROLES (R463). -/
def HDR.ROLES : RField := ⟨0x28, 1, 0, 1, 0, 0, 3, .ro, 0, 0, false, 0, 7⟩
/-- HDR.LOCKED (R463). -/
def HDR.LOCKED : RField := ⟨0x28, 1, 0, 1, 0, 8, 1, .ro, 0, 0, false, 0, 1⟩
/-- DEV.STEPPING (R472). -/
def DEV.STEPPING : RField := ⟨0x40, 1, 0, 1, 0, 0, 8, .ro, 0, 0xB0, false, 0, 0xFF⟩
/-- DEV.VARIANT (R472). -/
def DEV.VARIANT : RField := ⟨0x40, 1, 0, 1, 0, 8, 1, .ro, 0, 0, false, 0, 1⟩
/-- DEV.BEAT_LO (R472). -/
def DEV.BEAT_LO : RField := ⟨0x44, 1, 0, 1, 0, 0, 32, .ro, 0, 0, false, 0, 0xFFFFFFFF⟩
/-- DEV.BEAT_HI (R472). -/
def DEV.BEAT_HI : RField := ⟨0x48, 1, 0, 1, 0, 0, 32, .ro, 0, 0, false, 0, 0xFFFFFFFF⟩
/-- DEV.DISABLED (R472). -/
def DEV.DISABLED : RField := ⟨0x4C, 1, 0, 1, 0, 0, 24, .ro, 0, 0, false, 0, 0xFFFFFF⟩
/-- DEV.FAULT_NEXT (R472). -/
def DEV.FAULT_NEXT : RField := ⟨0x50, 1, 0, 1, 0, 0, 7, .ro, 0, 0, false, 0, 0x7F⟩
/-- DEV.FAULT_TOTAL (R472). -/
def DEV.FAULT_TOTAL : RField := ⟨0x54, 1, 0, 1, 0, 0, 32, .ro, 0, 0, false, 0, 0xFFFFFFFF⟩
/-- DEV.SERIAL (R472). -/
def DEV.SERIAL : RField := ⟨0x60, 1, 0, 4, 4, 0, 32, .ro, 0, 0, false, 0, 0xFFFFFFFF⟩
/-- VIS.LINEMEM_USED (R473). -/
def VIS.LINEMEM_USED : RField := ⟨0x40, 1, 0, 1, 0, 0, 22, .ro, 0, 0, false, 0, 0x3FFFFF⟩
/-- VIS.LOCKED_USE (R473). -/
def VIS.LOCKED_USE : RField := ⟨0x40, 1, 0, 1, 0, 24, 1, .ro, 0, 0, false, 0, 1⟩
/-- VIS.ENG_BUSY (R473). -/
def VIS.ENG_BUSY : RField := ⟨0x44, 1, 0, 1, 0, 0, 5, .ro, 0, 0, false, 0, 0x1F⟩
/-- CMR.BASE (R350). -/
def CMR.BASE : RField := ⟨0x200, 64, 0x10, 1, 0, 0, 16, .rws, 2, 0, false, 0, 0xFFFF⟩
/-- CMR.SLOT_LOG2 (R350). -/
def CMR.SLOT_LOG2 : RField := ⟨0x200, 64, 0x10, 1, 0, 16, 4, .rws, 2, 0, false, 0, 0xA⟩
/-- CMR.SLOTS (R350). -/
def CMR.SLOTS : RField := ⟨0x200, 64, 0x10, 1, 0, 20, 9, .rws, 2, 2, false, 2, 0x100⟩
/-- CMR.EN (R350). -/
def CMR.EN : RField := ⟨0x200, 64, 0x10, 1, 0, 31, 1, .rws, 2, 0, false, 0, 1⟩
/-- CMR.H (R350). -/
def CMR.H : RField := ⟨0x204, 64, 0x10, 1, 0, 0, 10, .ro, 0, 0, false, 0, 0x3FF⟩
/-- CMR.T (R350). -/
def CMR.T : RField := ⟨0x204, 64, 0x10, 1, 0, 16, 10, .ro, 0, 0, false, 0, 0x3FF⟩
/-- CMR.R (R350). -/
def CMR.R : RField := ⟨0x208, 64, 0x10, 1, 0, 0, 10, .ro, 0, 0, false, 0, 0x3FF⟩
/-- CMR.NCONS (R350). -/
def CMR.NCONS : RField := ⟨0x208, 64, 0x10, 1, 0, 12, 3, .rws, 2, 1, false, 1, 4⟩
/-- CMR.OWNER (R350). -/
def CMR.OWNER : RField := ⟨0x208, 64, 0x10, 1, 0, 16, 5, .ro, 0, 0x1F, false, 0, 0x1F⟩
/-- CMR.LOCKED (R350). -/
def CMR.LOCKED : RField := ⟨0x208, 64, 0x10, 1, 0, 24, 1, .ro, 0, 0, false, 0, 1⟩

/-- The fields of table PDC. -/
def PDC.table : List RField :=
  [PDC.ON_REQ0, PDC.ON_REQ1, PDC.ON_STAT0, PDC.ON_STAT1, PDC.AUTO_MODE, PDC.IDLE_OFF,
   PDC.SLEEP_ENTER, PDC.IN_SLEEP, PDC.WAKE_TIMER_EN, PDC.WAKE_MOTION_EN, PDC.LAST_WAKE, PDC.WAKE_BEAT_LO,
   PDC.WAKE_BEAT_HI, PDC.WAKE_MOVE, PDC.REFUSE_PD, PDC.REFUSE_REASON]

/-- The fields of table CLK. -/
def CLK.table : List RField :=
  [CLK.STRAP_CLKM, CLK.ACTIVE_SRC, CLK.HOLDOVER, CLK.STRAP_RSVD, CLK.REVERT, CLK.THM_WARN,
   CLK.THM_STOP, CLK.THM_MAX, CLK.THM_MAX_IDX, CLK.VIN_READ, CLK.THM_S]

/-- The fields of table RSTC. -/
def RSTC.table : List RField :=
  [RSTC.LAST_CAUSE, RSTC.WARM_COUNT, RSTC.STRAP_BOOT, RSTC.LAST_RST_BEAT_LO, RSTC.LAST_RST_BEAT_HI, RSTC.BRINGUP_BEATS,
   RSTC.BRINGUP_DONE, RSTC.BLKLOG_NEXT, RSTC.BKP_OI, RSTC.BKP_I]

/-- The fields of table OPL. -/
def OPL.table : List RField :=
  [OPL.STATE, OPL.OPTIONS_FALLBACK, OPL.PASS_FAILS, OPL.RECORDS_APPLIED, OPL.FAIL_RECORD, OPL.FAIL_CODE,
   OPL.OPT_DIGEST]

/-- The fields of table HLK. -/
def HLK.table : List RField :=
  [HLK.LINK_STATE, HLK.WIDTH, HLK.LANE_LOS, HLK.VERSION, HLK.BOOT_PORT, HLK.RETRAIN,
   HLK.WIDTH2_EN, HLK.VC2_MAXCRED, HLK.KEEPALIVE, HLK.REPLAY_TMO, HLK.HOST_TMO, HLK.SESS_OPEN,
   HLK.REC_SUB, HLK.AUTH_FAILS, HLK.LOCKOUT, HLK.VC2_GRANTED, HLK.CNT_CELL_CRC, HLK.CNT_REPLAY,
   HLK.CNT_FEC_CORR, HLK.CNT_FEC_UNCORR, HLK.CNT_RETRAIN, HLK.CNT_REC_DROP, HLK.CNT_EVT_LOST, HLK.CNT_CLR]

/-- The fields of table CPX. -/
def CPX.table : List RField :=
  [CPX.PORT_EN, CPX.LOS, CPX.FRAMING_LOST, CPX.LOSS_ROWS, CPX.TUN_ACK_TMO, CPX.CNT_LATE_SET,
   CPX.TUN_PUSH, CPX.CNT_CLR]

/-- The fields of table CPP. -/
def CPP.table : List RField :=
  [CPP.TRIG_GROUP, CPP.TRIG_PERIOD, CPP.TRIG_NEXT, CPP.LOCK, CPP.LOCKED_USE, CPP.TUN_DEPTH,
   CPP.CNT_ECC_CORR, CPP.CNT_ECC_UNCORR, CPP.CNT_CRC, CPP.CNT_ROW_MISS, CPP.CNT_ROW_LEN, CPP.CNT_FN_SKIP,
   CPP.CNT_UNTRIG, CPP.CNT_TUN_FAIL, CPP.CNT_UNSUPP]

/-- The fields of table CPS. -/
def CPS.table : List RField :=
  [CPS.PORT, CPS.VC, CPS.DT, CPS.LINESCAN, CPS.TRIGGERED, CPS.DEST,
   CPS.CMASK, CPS.EN, CPS.WIDTH, CPS.HEIGHT, CPS.FS_MIN, CPS.FS_MAX,
   CPS.ROW_CLKS, CPS.LATCH_MARGIN, CPS.DELAY, CPS.FN_MAX, CPS.FRAME_IDX, CPS.LAST_FN]

/-- The fields of table IFE. -/
def IFE.table : List RField :=
  [IFE.CTX_ACTIVE, IFE.CNT_PQ_REFUSED, IFE.CNT_LINEMEM_CORR, IFE.CNT_CLR, IFE.PQ_CTX, IFE.PQ_CLASS,
   IFE.PQ_LINKED, IFE.PQ_FRAME, IFE.PQ_ADDR_LO, IFE.PQ_ADDR_HI]

/-- The fields of table IFX. -/
def IFX.table : List RField :=
  [IFX.EN, IFX.SOURCE, IFX.STREAM, IFX.CFA, IFX.PRIV, IFX.HIST_TAP,
   IFX.DISP_EN, IFX.CODE_EN, IFX.CODE_FMT, IFX.MV_EN, IFX.MV_TAP, IFX.MV_FMT,
   IFX.STATS_EN, IFX.WIDTH, IFX.HEIGHT, IFX.BITS, IFX.PQ_DEPTH, IFX.TEMP_REF_VALID,
   IFX.MC_ACTIVE, IFX.SETTINGS_UNKNOWN, IFX.LOCKED_USE, IFX.FRAME_IDX, IFX.LAST_PSET, IFX.CNT_PQ_LATE,
   IFX.CNT_MC_FALLBACK, IFX.CNT_ROW_MISS]

/-- The fields of table IFP. -/
def IFP.table : List RField :=
  [IFP.CTX, IFP.EN, IFP.EMB_ENTRY, IFP.EXT_OFFSET, IFP.EXT_LEN, IFP.EXT_BE,
   IFP.EXT_CLASS, IFP.EXT_CHECK]

/-- The fields of table SGE. -/
def SGE.table : List RField :=
  [SGE.CTX_ACTIVE, SGE.CNT_LINEMEM_CORR, SGE.CNT_LINEMEM_UNCORR, SGE.CNT_CLR]

/-- The fields of table SGX. -/
def SGX.table : List RField :=
  [SGX.EN, SGX.WIN, SGX.PRED_MODE, SGX.LR_EN, SGX.RIGHT_EN, SGX.FIT_MODE,
   SGX.CEXP, SGX.IN_BITS, SGX.LEFT_SRC, SGX.RIGHT_SRC, SGX.WIDTH, SGX.HEIGHT,
   SGX.P1, SGX.P2_MAX, SGX.P2_EDGE, SGX.CW_CEN, SGX.CW_AD, SGX.AD_TRUNC,
   SGX.UNIQ, SGX.FLAT_T, SGX.LR_TOL, SGX.SAT_LEVEL, SGX.PRED_DEFAULT, SGX.PLANE_A,
   SGX.PLANE_BX, SGX.PLANE_BY, SGX.FRAME_IDX, SGX.LOCKED_USE, SGX.PRED_FALLBACK, SGX.CNT_PRED_FALLBACK,
   SGX.N_STATUS, SGX.BC]

/-- The fields of table OFE. -/
def OFE.table : List RField :=
  [OFE.CTX_ACTIVE, OFE.CNT_LINEMEM_CORR, OFE.CNT_LINEMEM_UNCORR, OFE.CNT_CLR]

/-- The fields of table OFX. -/
def OFX.table : List RField :=
  [OFX.EN, OFX.LEV_TOP, OFX.LEV_OUT, OFX.PRED_MODE, OFX.REF_DIST, OFX.IN_BITS,
   OFX.SRC, OFX.WIDTH, OFX.HEIGHT, OFX.TRUNC, OFX.LAMBDA, OFX.FLAT_T,
   OFX.UNIQ, OFX.SAT_CNT, OFX.SAT_LEVEL, OFX.PRED_DX, OFX.PRED_DY, OFX.FRAME_IDX,
   OFX.LOCKED_USE, OFX.PRED_FALLBACK, OFX.REF_MISSING, OFX.CNT_PRED_FALLBACK, OFX.N_STATUS]

/-- The fields of table FPE. -/
def FPE.table : List RField :=
  [FPE.CTX_ACTIVE, FPE.MATCH_BUSY, FPE.CNT_LINEMEM_CORR, FPE.CNT_LINEMEM_UNCORR, FPE.CNT_CLR, FPE.MR,
   FPE.MAX_DIST, FPE.RATIO, FPE.CROSS, FPE.M_PRED, FPE.M_PRED_DX, FPE.M_PRED_DY,
   FPE.M_LOCKED_USE]

/-- The fields of table FPX. -/
def FPX.table : List RField :=
  [FPX.EN, FPX.N_ARC, FPX.NMS_R, FPX.CELL_SIZE, FPX.SRC, FPX.IN_BITS,
   FPX.WIDTH, FPX.HEIGHT, FPX.FT, FPX.HK, FPX.SCORE_MIN, FPX.CELL_QUOTA,
   FPX.MAX_FEAT, FPX.FRAME_IDX, FPX.N_FEAT, FPX.LOCKED_USE, FPX.OVERFLOW, FPX.CNT_OVERFLOW]

/-- The fields of table WPE. -/
def WPE.table : List RField :=
  [WPE.CTX_ACTIVE, WPE.CNT_LINEMEM_CORR, WPE.CNT_LINEMEM_UNCORR, WPE.CNT_CLR]

/-- The fields of table WPX. -/
def WPX.table : List RField :=
  [WPX.EN, WPX.INTERP, WPX.OOB_MODE, WPX.VBOUND, WPX.SRC, WPX.IN_BITS,
   WPX.SRC_WIDTH, WPX.SRC_HEIGHT, WPX.OUT_WIDTH, WPX.OUT_HEIGHT, WPX.ROW_OFF, WPX.FILL,
   WPX.MESH_ADDR_LO, WPX.MESH_ADDR_HI, WPX.FRAME_IDX, WPX.LOCKED_USE, WPX.MESH_BAD, WPX.MESH_BAD_NODE,
   WPX.CNT_ROW_MISS]

/-- The fields of table PYE. -/
def PYE.table : List RField :=
  [PYE.CTX_ACTIVE, PYE.CNT_LINEMEM_CORR, PYE.CNT_LINEMEM_UNCORR, PYE.CNT_CLR]

/-- The fields of table PYX. -/
def PYX.table : List RField :=
  [PYX.EN, PYX.TOP, PYX.LAP_EN, PYX.LAP_FMT, PYX.SRC, PYX.IN_BITS,
   PYX.WIDTH, PYX.HEIGHT, PYX.FRAME_IDX, PYX.LOCKED_USE, PYX.LEV_DONE, PYX.CNT_ROW_MISS]

/-- The fields of table AMT. -/
def AMT.table : List RField :=
  [AMT.GSET_RUN, AMT.GSET_MAQ, AMT.RUN_STATE, AMT.MAQ_STATE, AMT.LAST_REFUSAL, AMT.REFUSAL_DETAIL,
   AMT.OP_CMD, AMT.INST_CMD, AMT.AT_BEAT_LO, AMT.AT_BEAT_HI, AMT.LOAD_SLOT, AMT.LOAD_ADDR_LO,
   AMT.LOAD_ADDR_HI, AMT.SWAP_WAIT, AMT.PLACEMENT_IDX, AMT.ABSENT, AMT.CTX_BUSY, AMT.CTX_LOCKED,
   AMT.INTAKE_DEPTH, AMT.CANCEL_CTX, AMT.CNT_TASK_DONE, AMT.CNT_TASK_ABORT, AMT.LAST_SWAP_BEAT_LO, AMT.LAST_SWAP_BEAT_HI,
   AMT.CNT_CLR]

/-- The fields of table CLU. -/
def CLU.table : List RField :=
  [CLU.CNT_LOCKED, CLU.CNT_OPEN, CLU.FLAGS_LOCKED, CLU.RL_DEPTH0, CLU.RL_DEPTH1, CLU.RL_DEPTH2,
   CLU.RL_DEPTH3, CLU.PENDING, CLU.CNT_FLAG_FAULT, CLU.CNT_CTR_FAULT, CLU.CNT_CLR, CLU.FLAG_BANK,
   CLU.FLAG_LO, CLU.FLAG_HI]

/-- The fields of table TC. -/
def TC.table : List RField :=
  [TC.STATE, TC.NODES_RUN, TC.ENG_BUSY, TC.RINGS_RESV, TC.MV_REQ_ORDERED, TC.LAST_NODE,
   TC.LAST_CMD, TC.LAST_CLASS, TC.CNT_CMD, TC.CNT_SAT, TC.CNT_NONFINITE, TC.CNT_CMD_FAULT,
   TC.CNT_MXE_LO, TC.CNT_MXE_HI, TC.CNT_MAC_LO, TC.CNT_MAC_HI, TC.CNT_ORDERED_STALL, TC.CNT_CLR]

/-- The fields of table ENG. -/
def ENG.table : List RField :=
  [ENG.BUSY, ENG.LOCKED_USE, ENG.CNT_BUSY_LO, ENG.CNT_BUSY_HI, ENG.CNT_CLR]

/-- The fields of table BOD. -/
def BOD.table : List RField :=
  [BOD.N_VALID, BOD.N_LOCKED, BOD.ENT_SEL, BOD.ENT_LO, BOD.ENT_HI, BOD.BULK_ADDR_LO,
   BOD.BULK_ADDR_HI, BOD.BULK_FIRST, BOD.BULK_COUNT, BOD.BULK_GO, BOD.BULK_BUSY, BOD.BULK_STATUS,
   BOD.CNT_COORD_FAULT, BOD.CNT_CLR]

/-- The fields of table BODR. -/
def BODR.table : List RField :=
  [BODR.BASE_ENTRY, BODR.BLOCK_LOG2, BODR.LOCKED, BODR.EN, BODR.GRID0, BODR.GRID1,
   BODR.GRID2]

/-- The fields of table SPM. -/
def SPM.table : List RField :=
  [SPM.PROT, SPM.LOCKED_SEG, SPM.CNT_CORR, SPM.CNT_UNCORR, SPM.CNT_RERUN, SPM.CNT_RERUN_FAIL,
   SPM.SCRUB_PASS, SPM.SCRUB_LIMIT, SPM.STUCK_OFS, SPM.CNT_DET_IDLE, SPM.CNT_CLR, SPM.WMASK_EVEN,
   SPM.WMASK_ODD]

/-- The fields of table SPR. -/
def SPR.table : List RField :=
  [SPR.BASE, SPR.SLOT_LOG2, SPR.SLOTS, SPR.EN, SPR.H, SPR.T,
   SPR.R, SPR.NCONS, SPR.OWNER, SPR.LOCKED]

/-- The fields of table CMEM. -/
def CMEM.table : List RField :=
  [CMEM.PROT_LO, CMEM.PROT_HI, CMEM.CACHE_SEGS, CMEM.LOCKED_SEG_LO, CMEM.LOCKED_SEG_HI, CMEM.CNT_CORR,
   CMEM.CNT_UNCORR, CMEM.CNT_CACHE_HIT, CMEM.CNT_CACHE_MISS, CMEM.CNT_CACHE_REFETCH, CMEM.SCRUB_PASS, CMEM.SCRUB_LIMIT,
   CMEM.RING_WDOG, CMEM.CNT_WDOG, CMEM.CNT_CLR, CMEM.WMASK_EVEN, CMEM.WMASK_ODD]

/-- The fields of table PMC. -/
def PMC.table : List RField :=
  [PMC.PM_EN, PMC.PM_FULL, PMC.PM_MISSED, PMC.PM_RELEASE, PMC.WIN_OFS, PMC.WIN_LEN]

/-- The fields of table MC. -/
def MC.table : List RField :=
  [MC.ECC_EN, MC.PATROL_LINES, MC.CNT_PATROL_PASS, MC.LAST_UNCORR_LO, MC.LAST_UNCORR_HI]

/-- The fields of table MCG. -/
def MCG.table : List RField :=
  [MCG.TRAINED, MCG.MARGIN_MIN, MCG.CNT_CLR, MCG.LOCKED_SLOTS, MCG.CNT_ECC_CORR, MCG.CNT_ECC_UNCORR,
   MCG.CNT_EDC_RETRY, MCG.CNT_EDC_EXHAUST, MCG.MARGIN]

/-- The fields of table MMU. -/
def MMU.table : List RField :=
  [MMU.INV_CTX, MMU.PF_WAIT, MMU.PF_CTX, MMU.PF_PENDING, MMU.PF_ADDR_LO, MMU.PF_ADDR_HI,
   MMU.RESUME_CTX, MMU.WIN_COUNT, MMU.CNT_WALK, MMU.CNT_PF, MMU.CNT_CLR, MMU.ROOT_LO,
   MMU.ROOT_HI]

/-- The fields of table STR. -/
def STR.table : List RField :=
  [STR.EN, STR.DIR, STR.CMEM, STR.RING, STR.RUNAHEAD, STR.ARM_ADDR_LO,
   STR.ARM_ADDR_HI, STR.ARM_COUNT, STR.STATE, STR.LOCKED_USE, STR.ACT_POS, STR.ACT_COUNT,
   STR.PEND_COUNT, STR.AHEAD, STR.CNT_ARM_OVERRUN]

/-- The fields of table DIG. -/
def DIG.table : List RField :=
  [DIG.LOG_EN, DIG.LOG_OPEN, DIG.LOG_BASE_LO, DIG.LOG_BASE_HI, DIG.LOG_SIZE_LOG2, DIG.LOG_WRITTEN,
   DIG.CNT_LOG_DROP, DIG.ALIGN_PHASE, DIG.CNT_CLR, DIG.RUN_ID]

/-- The fields of table DIGR. -/
def DIGR.table : List RField :=
  [DIGR.COOKIE_LO, DIGR.COOKIE_HI, DIGR.SEED_LO, DIGR.SEED_HI, DIGR.GRAPH, DIGR.EN,
   DIGR.STEP_LO, DIGR.STEP_HI, DIGR.USED_BEAT_LO]

/-- The fields of table PLN. -/
def PLN.table : List RField :=
  [PLN.SAFE, PLN.HELD, PLN.REASON, PLN.CAUSES, PLN.SAFE_BEAT_LO, PLN.SAFE_BEAT_HI,
   PLN.SAFE_UNITS, PLN.CLEAR_RESULT, PLN.CMD_SEQ, PLN.CLEAR, PLN.INHIBIT, PLN.SL_INHIBIT,
   PLN.INV_RUN, PLN.INV_WIN, PLN.INV_WIN_MAX, PLN.ODO_POS_LO, PLN.ODO_POS_HI, PLN.ODO_SEQ,
   PLN.ODO_AGE, PLN.VT_LO, PLN.VT_HI, PLN.CNT_SL0_CRC, PLN.CNT_SL1_CRC, PLN.CNT_MSG_CONFLICT,
   PLN.CNT_FAULT_DROP, PLN.CNT_SAFE_ENTRY, PLN.SL_LOS, PLN.CNT_CLR]

/-- The fields of table CCP. -/
def CCP.table : List RField :=
  [CCP.N_PAIRS, CCP.K_DEG, CCP.K_SAFE, CCP.N_WIN, CCP.K_PERSIST, CCP.WITHHELD,
   CCP.TT_PENDING, CCP.CNT_DISAGREE, CCP.CNT_CLR]

/-- The fields of table CCPP. -/
def CCPP.table : List RField :=
  [CCPP.KIND, CCPP.FIELD_X, CCPP.FIELD_Y, CCPP.TYPE, CCPP.BAND_ABS_LO, CCPP.BAND_ABS_HI,
   CCPP.BAND_REL, CCPP.SKEW, CCPP.MAX_GAP, CCPP.COUNT, CCPP.PERSIST_RUN, CCPP.LAST_MARGIN,
   CCPP.CNT_FAIL, CCPP.GAP]

/-- The fields of table AGM. -/
def AGM.table : List RField :=
  [AGM.CNT_LATE, AGM.AGE_MAX, AGM.CNT_CLR]

/-- The fields of table AGMF. -/
def AGMF.table : List RField :=
  [AGMF.BOUND, AGMF.OFFSET, AGMF.LENGTH, AGMF.AGE_LAST, AGMF.ALT_USED, AGMF.WITHHELD,
   AGMF.CNT_LATE_F]

/-- The fields of table RSP. -/
def RSP.table : List RField :=
  [RSP.DI_BEATS, RSP.READMIT_MAX, RSP.RETIRED, RSP.READMIT_PEND, RSP.TARGETED, RSP.LATENT_U,
   RSP.LATENT_MC, RSP.LATENT_CLU, RSP.LATENT_IFE, RSP.LATENT_CEN, RSP.LATENT_PLN, RSP.FAILED_MC,
   RSP.FAILED_CLU, RSP.FAILED_IFE, RSP.FAILED_CEN, RSP.FAILED_PLN, RSP.REQ_UNIT, RSP.REQ,
   RSP.CNT_ROT, RSP.CNT_INCOMPLETE, RSP.CNT_TRANSIENT, RSP.CNT_FAIL, RSP.CNT_DI_MISSED, RSP.CNT_CLR,
   RSP.RETIRE_CNT0, RSP.RETIRE_CNT1, RSP.PLN_POS, RSP.PLN_AGE]

/-- The fields of table RSPU. -/
def RSPU.table : List RField :=
  [RSPU.POS, RSPU.TEST, RSPU.MODE, RSPU.AGE]

/-- The fields of table LCS. -/
def LCS.table : List RField :=
  [LCS.STATE, LCS.CHANGING, LCS.REQ, LCS.RESULT, LCS.SERVICE_SEQ_LO, LCS.SERVICE_SEQ_HI]

/-- The fields of table MGC. -/
def MGC.table : List RField :=
  [MGC.FW_VERSION, MGC.FW_FLOOR, MGC.STORE_CMD, MGC.STORE_SLOT, MGC.STORE_SRC_LO, MGC.STORE_SRC_HI,
   MGC.STORE_LEN, MGC.STORE_BUSY, MGC.STORE_RESULT, MGC.ATT_NONCE, MGC.ATT_ADDR_LO, MGC.ATT_ADDR_HI,
   MGC.ATT_GO, MGC.ATT_BUSY, MGC.AUD_SEQ_LO, MGC.AUD_SEQ_HI, MGC.AUD_FIRST_LO, MGC.AUD_FIRST_HI,
   MGC.AUD_COUNT, MGC.AUD_ADDR_LO, MGC.AUD_ADDR_HI, MGC.AUD_GO, MGC.AUD_CKPT_COPY, MGC.AUD_CKPT,
   MGC.CNT_AUD_LOST, MGC.CNT_AUD_TORN, MGC.ID_DIGEST]

/-- The fields of table HDR. -/
def HDR.table : List RField :=
  [HDR.BLK_ID, HDR.FEATURE, HDR.MINOR, HDR.GENERATION, HDR.BLK_CAPS0, HDR.BLK_CAPS1,
   HDR.EN, HDR.SWRST, HDR.IDLE_REQ, HDR.IDLE, HDR.READY, HDR.LOCKED_USE,
   HDR.RESETTING, HDR.BLK_EVT_STAT, HDR.BLK_EVT_MASK, HDR.LAST_FAULT, HDR.FAULT_COUNT, HDR.GO,
   HDR.WHEN, HDR.PENDING, HDR.REJECTED, HDR.SHADOW_VIEW, HDR.REJECT_CODE, HDR.REJECT_WORD,
   HDR.ROLES, HDR.LOCKED]

/-- The fields of table DEV. -/
def DEV.table : List RField :=
  [DEV.STEPPING, DEV.VARIANT, DEV.BEAT_LO, DEV.BEAT_HI, DEV.DISABLED, DEV.FAULT_NEXT,
   DEV.FAULT_TOTAL, DEV.SERIAL]

/-- The fields of table VIS. -/
def VIS.table : List RField :=
  [VIS.LINEMEM_USED, VIS.LOCKED_USE, VIS.ENG_BUSY]

/-- The fields of table CMR. -/
def CMR.table : List RField :=
  [CMR.BASE, CMR.SLOT_LOG2, CMR.SLOTS, CMR.EN, CMR.H, CMR.T,
   CMR.R, CMR.NCONS, CMR.OWNER, CMR.LOCKED]

/-- The fields of a page beyond the common header. -/
def Page.fields : Page → List RField
  | .dev => DEV.table
  | .clk => CLK.table
  | .pdc => PDC.table
  | .rstc => RSTC.table
  | .lcs => LCS.table
  | .opl => OPL.table
  | .pmc => PMC.table
  | .pln => PLN.table
  | .ccp => CCP.table ++ CCPP.table
  | .agm => AGM.table ++ AGMF.table
  | .rsp => RSP.table ++ RSPU.table
  | .hlk _ => HLK.table
  | .cpx => CPX.table ++ CPP.table ++ CPS.table
  | .ife => IFE.table ++ IFX.table ++ IFP.table
  | .mc => MC.table
  | .mmu => MMU.table
  | .mcg _ => MCG.table
  | .bod => BOD.table ++ BODR.table
  | .amt => AMT.table
  | .dig => DIG.table ++ DIGR.table
  | .mgc => MGC.table
  | .clu _ => CLU.table
  | .tc _ => TC.table
  | .vis _ => VIS.table
  | .cmem _ => CMEM.table ++ CMR.table
  | .spm _ => SPM.table ++ SPR.table
  | .sge _ => SGE.table ++ SGX.table
  | .ofe _ => OFE.table ++ OFX.table
  | .fpe _ => FPE.table ++ FPX.table
  | .wpe _ => WPE.table ++ WPX.table
  | .pye _ => PYE.table ++ PYX.table
  | .eng _ _ => ENG.table
  | .str _ => STR.table

end Sys2Proof.Machine
end

