-- ==== Sys2Proof/Machine/Num.lean ====
section
/-! DEFINITION. Exact numbers, the sixteen formats and every rounding into them (chapter 12), and the arithmetic of the
compute types (R272). -/

namespace Sys2Proof.Machine

/-- A value an engine works with: NaN, an infinity, or ± m × 2^e. -/
inductive Num where
  | nan
  | inf (neg : Bool)
  | fin (neg : Bool) (m : Nat) (e : Int)
deriving DecidableEq, Repr

/-- What a stage of a chain hands to the next (R282): element codes of a format, or values, in logical order. -/
inductive StageOut where
  | codes (fmt : Nat) (l : List Nat)
  | vals (l : List Num)
deriving DecidableEq, Repr

/-- An integer as a value. -/
def Num.ofInt (v : Int) : Num := .fin (v < 0) v.natAbs 0

/-- Plus zero. -/
def Num.zero : Num := .fin false 0 0

/-- One. -/
def Num.one : Num := .fin false 1 0

/-- ± m × 2^e as an integer multiple of 2^q, for q at most e. -/
def scaled (neg : Bool) (m : Nat) (e q : Int) : Int :=
  let v : Int := m * 2 ^ (e - q).toNat
  if neg then -v else v

/-- The sign changed. -/
def Num.neg : Num → Num
  | .nan => .nan
  | .inf s => .inf (!s)
  | .fin s m e => .fin (!s) m e

/-- The magnitude. -/
def Num.abs : Num → Num
  | .nan => .nan
  | .inf _ => .inf false
  | .fin _ m e => .fin false m e

/-- The exact sum; an exact zero is −0 only when both are negative. -/
def Num.add : Num → Num → Num
  | .nan, _ => .nan
  | _, .nan => .nan
  | .inf a, .inf b => if a = b then .inf a else .nan
  | .inf a, .fin _ _ _ => .inf a
  | .fin _ _ _, .inf b => .inf b
  | .fin s m e, .fin t n f =>
    let q := min e f
    let v := scaled s m e q + scaled t n f q
    if v = 0 then .fin (s && t) 0 0 else .fin (v < 0) v.natAbs q

/-- The exact difference. -/
def Num.sub (a b : Num) : Num := a.add b.neg

/-- The exact product. -/
def Num.mul : Num → Num → Num
  | .nan, _ => .nan
  | _, .nan => .nan
  | .inf a, .inf b => .inf (a != b)
  | .inf a, .fin t n _ => if n = 0 then .nan else .inf (a != t)
  | .fin s m _, .inf b => if m = 0 then .nan else .inf (s != b)
  | .fin s m e, .fin t n f => .fin (s != t) (m * n) (e + f)

/-- Whether a value lies below another; false with a NaN. -/
def Num.lt : Num → Num → Bool
  | .nan, _ => false
  | _, .nan => false
  | .inf a, .inf b => a && !b
  | .inf a, .fin _ _ _ => a
  | .fin _ _ _, .inf b => !b
  | .fin s m e, .fin t n f => decide (scaled s m e (min e f) < scaled t n f (min e f))

/-- A NaN. -/
def Num.isNan : Num → Bool
  | .nan => true
  | _ => false

/-- A NaN or an infinity. -/
def Num.nonFinite : Num → Bool
  | .fin _ _ _ => false
  | _ => true

/-- The value 0. -/
def Num.isZero : Num → Bool
  | .fin _ m _ => m = 0
  | _ => false

/-- ⌊log2 |v|⌋ of a finite value that is not 0. -/
def log2Of (m : Nat) (e : Int) : Int := (m.log2 : Int) + e

/-! ### Rounding (R295, R296, R300) -/

/-- |v| = m × 2^e rounded to a multiple of 2^q, in units of 2^q. `r`: the 32-bit word of R298 for mode 0x5. -/
def roundTo (mode : Nat) (r : Nat) (neg : Bool) (m : Nat) (e q : Int) : Nat :=
  if q ≤ e then m * 2 ^ (e - q).toNat
  else
    let d := 2 ^ (q - e).toNat
    let n := m / d
    let rem := m % d
    let up : Bool :=
      if mode = 0 then decide (d < 2 * rem) || (decide (2 * rem = d) && decide (n % 2 = 1))
      else if mode = 1 then false
      else if mode = 2 then decide (0 < rem) && !neg
      else if mode = 3 then decide (0 < rem) && neg
      else if mode = 4 then decide (d ≤ 2 * rem)
      else decide (r / 256 < rem * 2 ^ 24 / d)
    if up then n + 1 else n

/-- A floating-point format (R289, R290): exponent and mantissa bits, bias, its largest finite code, whether it has
infinities. -/
structure FloatFmt where
  ebits : Nat
  mbits : Nat
  bias : Int
  maxCode : Nat
  infs : Bool
  nanCode : Nat

/-- The float formats by code. -/
def floatFmt (code : Nat) : FloatFmt :=
  if code = 0x7 then ⟨2, 1, 1, 0x7, false, 0⟩
  else if code = 0x8 then ⟨3, 2, 3, 0x1F, false, 0⟩
  else if code = 0x9 then ⟨2, 3, 1, 0x1F, false, 0⟩
  else if code = 0xA then ⟨4, 3, 7, 0x7E, false, 0x7F⟩
  else if code = 0xB then ⟨5, 2, 15, 0x7B, true, 0x7E⟩
  else if code = 0xC then ⟨5, 10, 15, 0x7BFF, true, 0x7E00⟩
  else if code = 0xD then ⟨8, 7, 127, 0x7F7F, true, 0x7FC0⟩
  else ⟨8, 23, 127, 0x7F7FFFFF, true, 0x7FC00000⟩

/-- Bits of an element (R289). -/
def fmtBits (code : Nat) : Nat := [8, 8, 4, 12, 16, 16, 32, 4, 6, 6, 8, 8, 16, 16, 32, 8].getD code 8

/-- Elements of a packing group, and its bytes (R292). -/
def fmtGroup (code : Nat) : Nat × Nat :=
  if code = 0x2 ∨ code = 0x7 then (2, 1)
  else if code = 0x3 then (2, 3)
  else if code = 0x8 ∨ code = 0x9 then (4, 3)
  else (1, fmtBits code / 8)

/-- The packed formats of R293. -/
def fmtPacked (code : Nat) : Bool := code = 0x2 || code = 0x3 || code = 0x7 || code = 0x8 || code = 0x9

/-- The integer formats. -/
def fmtInteger (code : Nat) : Bool := code ≤ 0x6

/-- The range of an integer format. -/
def intRange (code : Nat) : Int × Int :=
  [((0 : Int), (255 : Int)), (-128, 127), (-8, 7), (0, 4095), (-32768, 32767), (0, 65535),
   (-2147483648, 2147483647)].getD code (0, 0)

/-- A float code read (R290, R291). -/
def decodeFloat (f : FloatFmt) (code : Nat) : Num :=
  let neg := code.testBit (f.ebits + f.mbits)
  let mag := code % 2 ^ (f.ebits + f.mbits)
  let ex := mag / 2 ^ f.mbits
  let man := mag % 2 ^ f.mbits
  if f.maxCode < mag then
    (if f.infs && mag = f.maxCode + 1 then .inf neg else if f.infs ∨ f.nanCode ≠ 0 then .nan else .fin neg man 0)
  else if ex = 0 then .fin neg man (1 - f.bias - f.mbits)
  else .fin neg (2 ^ f.mbits + man) ((ex : Int) - f.bias - f.mbits)

/-- An element code read as a value (R289–R291). -/
def decodeElem (fmt code : Nat) : Num :=
  if fmt = 0xF then (if code = 0xFF then .nan else .fin false 1 ((code : Int) - 127))
  else if fmt = 0x0 ∨ fmt = 0x3 ∨ fmt = 0x5 then .ofInt code
  else if fmt ≤ 0x6 then .ofInt (toInt (fmtBits fmt) code)
  else decodeFloat (floatFmt fmt) code

/-- A code written, and what it adds to CNT_SAT and CNT_NONFINITE (R297). -/
structure Enc where
  code : Nat
  sat : Nat
  nonfin : Nat
deriving DecidableEq, Repr

/-- Conversion to an integer format (R296, R297). -/
def encodeInt (fmt mode r : Nat) : Num → Enc
  | .nan => ⟨0, 0, 1⟩
  | .inf neg => ⟨ofInt (fmtBits fmt) (if neg then (intRange fmt).1 else (intRange fmt).2), 1, 0⟩
  | .fin neg m e =>
    let n := roundTo mode r neg m e 0
    let v : Int := if neg then -(n : Int) else n
    let c := clampInt (intRange fmt).1 (intRange fmt).2 v
    ⟨ofInt (fmtBits fmt) c, b2n (c ≠ v), 0⟩

/-- The magnitude code of n × 2^q, where 2^q is the spacing at the value before rounding. -/
def magCode (f : FloatFmt) (n : Nat) (q : Int) : Nat :=
  if n < 2 ^ f.mbits then n else ((q + f.bias + f.mbits).toNat - 1) * 2 ^ f.mbits + n

/-- Conversion to a float format (R296, R297); `clip`: magnitudes beyond the range become the largest finite value in
every mode (R302). -/
def encodeFloat (f : FloatFmt) (mode r : Nat) (clip : Bool) : Num → Enc
  | .nan => ⟨f.nanCode, 0, 1⟩
  | .inf neg =>
    let s := b2n neg * 2 ^ (f.ebits + f.mbits)
    if f.infs && !clip then ⟨s + f.maxCode + 1, 0, 1⟩ else ⟨s + f.maxCode, 1, 0⟩
  | .fin neg m e =>
    let s := b2n neg * 2 ^ (f.ebits + f.mbits)
    if m = 0 then ⟨s, 0, 0⟩
    else
      let q := max (log2Of m e) (1 - f.bias) - f.mbits
      let c := magCode f (roundTo mode r neg m e q) q
      if c ≤ f.maxCode then ⟨s + c, 0, 0⟩
      else
        let toInf : Bool := f.infs && !clip && (mode = 0 || mode ≥ 4 || (mode = 2 && !neg) || (mode = 3 && neg))
        if toInf then ⟨s + f.maxCode + 1, 0, 1⟩ else ⟨s + f.maxCode, 1, 0⟩

/-- Conversion of a value to a format (R295–R297). -/
def encodeElem (fmt mode r : Nat) (v : Num) : Enc :=
  if fmtInteger fmt then encodeInt fmt mode r v else encodeFloat (floatFmt fmt) mode r false v

/-! ### The stochastic rounding generator (R298) -/

/-- 64-bit wrap. -/
def w64 (v : Nat) : Nat := v % 2 ^ 64

/-- mix of R298. -/
def srMix (z : Nat) : Nat :=
  let a := w64 (z.xor (z >>> 30) * 0xBF58476D1CE4E5B9)
  let b := w64 (a.xor (a >>> 27) * 0x94D049BB133111EB)
  b.xor (b >>> 31)

/-- srgen of R298. -/
def srGen (seed graph node cmd step elem : Nat) : Nat :=
  let g := 0x9E3779B97F4A7C15
  let w1 := (graph % 256) * 2 ^ 56 + (node % 65536) * 2 ^ 40 + (cmd % 1024) * 2 ^ 30
  let h0 := srMix (w64 (seed + g))
  let h1 := srMix (w64 (h0.xor w1 + g))
  let h2 := srMix (w64 (h1.xor (step % 2 ^ 48) + g))
  srMix (w64 (h2.xor (elem % 2 ^ 48) + g)) >>> 32

/-! ### The compute types (R272) -/

/-- FP32 or FP16. -/
def ctFloat (ct : Nat) : Bool := ct < 2

/-- The format code of a compute type: FP32, FP16, INT32, INT16. -/
def ctFmt (ct : Nat) : Nat := [0xE, 0xC, 0x6, 0x4].getD ct 0xE

/-- Lanes of a compute type (R259). -/
def ctLanes (ct : Nat) : Nat := if ct % 2 = 0 then 256 else 512

/-- An exact result brought into the compute type, RNE; and how many saturations that was. -/
def ctRound (ct : Nat) (v : Num) : Num × Nat :=
  let e := encodeElem (ctFmt ct) 0 0 v
  (decodeElem (ctFmt ct) e.code, if ctFloat ct then 0 else e.sat)

/-- A correctly rounded FP32 result. -/
def f32 (v : Num) : Num := (ctRound 0 v).1

/-- MAX in a compute type: NaN when either is; +0 above −0. -/
def Num.max (a b : Num) : Num :=
  if a.isNan || b.isNan then .nan
  else if a.isZero && b.isZero then (match a, b with
    | .fin true _ _, x => x
    | x, _ => x)
  else if a.lt b then b else a

/-- MIN in a compute type. -/
def Num.min (a b : Num) : Num := (a.neg.max b.neg).neg

/-! ### Reciprocal, square root, exponential, logarithm: enough bits for a correct rounding -/

/-- A positive quotient n / d as a value of at least 80 significant bits with a sticky bit. -/
def ratio (neg : Bool) (n d : Nat) (e : Int) : Num :=
  let k := 80 + d.log2
  let q := n * 2 ^ k / d
  .fin neg (2 * q + b2n (n * 2 ^ k % d ≠ 0)) (e - k - 1)

/-- The reciprocal, before rounding. -/
def Num.recip : Num → Num
  | .nan => .nan
  | .inf s => .fin s 0 0
  | .fin s m e => if m = 0 then .inf s else ratio s 1 m (-e)

/-- The reciprocal square root, before rounding. -/
def Num.rsqrt : Num → Num
  | .nan => .nan
  | .inf s => if s then .nan else .zero
  | .fin s m e =>
    if m = 0 then .inf s
    else if s then .nan
    else
      let m2 := if e % 2 = 0 then m else 2 * m
      let e2 := if e % 2 = 0 then e else e - 1
      let k := 2 * (90 + m2.log2)
      let v := 2 ^ k / m2
      let r := isqrt v
      .fin false (2 * r + b2n (r * r ≠ v ∨ 2 ^ k % m2 ≠ 0)) (-(e2 / 2) - (k / 2 : Nat) - 1)

/-- Fraction bits of the fixed point below (log 15). -/
def fixBits : Nat := 320

/-- 2 atanh(n / d) in fixed point: `k` terms from the i-th. `p` is (n / d)^(2i + 1). -/
def atanhSum (n d : Nat) : Nat → Nat → Nat → Nat
  | 0, _, _ => 0
  | k + 1, i, p => 2 * p / (2 * i + 1) + atanhSum n d k (i + 1) (p * n * n / (d * d))

/-- ln 2 in fixed point. -/
def fixLn2 : Nat := atanhSum 1 3 110 0 (2 ^ fixBits / 3)

/-- The terms of e^r from r^i / i! on. -/
def expSum (r : Nat) : Nat → Nat → Nat → Nat
  | 0, _, _ => 0
  | k + 1, i, t => t + expSum r k (i + 1) (t * r / 2 ^ fixBits / (i + 1))

/-- ± m × 2^e in fixed point, rounded down. -/
def toFixed (s : Bool) (m : Nat) (e : Int) : Int :=
  let q := min (e + fixBits) 0
  scaled s m (e + fixBits) q / 2 ^ (-q).toNat

/-- The exponential, before rounding; the last bit is sticky. -/
def Num.exp : Num → Num
  | .nan => .nan
  | .inf s => if s then .zero else .inf false
  | .fin s m e =>
    if m = 0 then .one
    else if log2Of m e > 10 then (if s then .fin false 1 (-400) else .fin false 1 400)
    else
      let x := toFixed s m e
      let k := x / (fixLn2 : Int)
      let r := (x - k * fixLn2).toNat
      .fin false (2 * expSum r 90 0 (2 ^ fixBits) + 1) (k - fixBits - 1)

/-- The natural logarithm, before rounding; the last bit is sticky. -/
def Num.ln : Num → Num
  | .nan => .nan
  | .inf s => if s then .nan else .inf false
  | .fin s m e =>
    if m = 0 then .inf true
    else if s then .nan
    else
      let l := m.log2
      let f := m - 2 ^ l
      if f = 0 ∧ e + l = 0 then .zero
      else
        let d := m + 2 ^ l
        let v : Int := (e + l) * fixLn2 + atanhSum f d 110 0 (2 ^ fixBits * f / d)
        .fin (v < 0) (2 * v.natAbs + 1) (-(fixBits : Int) - 1)

end Sys2Proof.Machine
end

