-- ==== Sys2Proof/Machine/Hash.lean ====
section
/-! DEFINITION. The checks and digests the spec names: CRC-32C (R23), the CRC-16 of CSI-2 (R107), the two CRC-64
halves (R388) and SHA-256 (FIPS 180-4, an external standard: PRESUMED, log 5). -/

namespace Sys2Proof.Machine

/-- One bit of a reflected CRC with polynomial `poly`. -/
def crcStepR (poly c : Nat) : Nat := if c % 2 = 1 then (c / 2) ^^^ poly else c / 2

/-- `n` bits of a reflected CRC. -/
def crcBitsR (poly : Nat) : Nat → Nat → Nat
  | 0, c => c
  | n + 1, c => crcBitsR poly n (crcStepR poly c)

/-- A reflected CRC over bytes. -/
def crcR (poly init : Nat) (l : List Byte) : Nat :=
  l.foldl (fun c b => crcBitsR poly 8 (c ^^^ b.toNat)) init

/-- CRC-32C (R23): reflected, initial and final all ones. -/
def crc32c (l : List Byte) : Nat := crcR 0x82F63B78 0xFFFFFFFF l ^^^ 0xFFFFFFFF

/-- CRC-16 of a long packet's payload (R107): x^16 + x^12 + x^5 + 1, initial 0xFFFF, least significant bit first as
CSI-2 sends it. -/
def crc16 (l : List Byte) : Nat := crcR 0x8408 0xFFFF l

/-- One bit of a CRC of `w` bits taken most significant bit first. -/
def crcStepL (w poly c : Nat) : Nat :=
  if 2 ^ (w - 1) ≤ c then ((2 * c) % 2 ^ w) ^^^ poly else 2 * c

/-- `n` bits of such a CRC. -/
def crcBitsL (w poly : Nat) : Nat → Nat → Nat
  | 0, c => c
  | n + 1, c => crcBitsL w poly n (crcStepL w poly c)

/-- The first digest half continued over bytes (R386): not reflected. -/
def crc64AFrom (c : Nat) (l : List Byte) : Nat :=
  l.foldl (fun c b => crcBitsL 64 0x42F0E1EBA9EA3693 8 (c ^^^ (b.toNat <<< 56))) c

/-- The first digest half (R386): initial value 0. -/
def crc64A (l : List Byte) : Nat := crc64AFrom 0 l

/-- All ones in 64 bits. -/
def ones64 : Nat := 0xFFFFFFFFFFFFFFFF

/-- The second digest half continued over bytes (R386): polynomial 0x1B reflected. -/
def crc64BFrom (c : Nat) (l : List Byte) : Nat := crcR 0xD800000000000000 c l

/-- The second digest half (R386): initial and final all ones. -/
def crc64B (l : List Byte) : Nat := crc64BFrom ones64 l ^^^ ones64

/-- A digest under way (R386): D2 before its final exclusive or. -/
structure Digest where
  a : Nat
  b : Nat
deriving DecidableEq, Repr

/-- A digest continued over bytes. -/
def Digest.add (d : Digest) (l : List Byte) : Digest := ⟨crc64AFrom d.a l, crc64BFrom d.b l⟩

/-- The digest of a run of index `j` before any element (R386). -/
def Digest.start (j : Nat) : Digest := Digest.add ⟨0, ones64⟩ (leBytes 8 j)

/-- D1. -/
def Digest.d1 (d : Digest) : Nat := d.a

/-- D2. -/
def Digest.d2 (d : Digest) : Nat := d.b ^^^ ones64

/-- The SHA-256 round constants. -/
def shaK : List (BitVec 32) :=
  [0x428a2f98, 0x71374491, 0xb5c0fbcf, 0xe9b5dba5, 0x3956c25b, 0x59f111f1, 0x923f82a4, 0xab1c5ed5,
   0xd807aa98, 0x12835b01, 0x243185be, 0x550c7dc3, 0x72be5d74, 0x80deb1fe, 0x9bdc06a7, 0xc19bf174,
   0xe49b69c1, 0xefbe4786, 0x0fc19dc6, 0x240ca1cc, 0x2de92c6f, 0x4a7484aa, 0x5cb0a9dc, 0x76f988da,
   0x983e5152, 0xa831c66d, 0xb00327c8, 0xbf597fc7, 0xc6e00bf3, 0xd5a79147, 0x06ca6351, 0x14292967,
   0x27b70a85, 0x2e1b2138, 0x4d2c6dfc, 0x53380d13, 0x650a7354, 0x766a0abb, 0x81c2c92e, 0x92722c85,
   0xa2bfe8a1, 0xa81a664b, 0xc24b8b70, 0xc76c51a3, 0xd192e819, 0xd6990624, 0xf40e3585, 0x106aa070,
   0x19a4c116, 0x1e376c08, 0x2748774c, 0x34b0bcb5, 0x391c0cb3, 0x4ed8aa4a, 0x5b9cca4f, 0x682e6ff3,
   0x748f82ee, 0x78a5636f, 0x84c87814, 0x8cc70208, 0x90befffa, 0xa4506ceb, 0xbef9a3f7, 0xc67178f2]

/-- The eight working words of SHA-256. -/
structure Sha where
  a : BitVec 32
  b : BitVec 32
  c : BitVec 32
  d : BitVec 32
  e : BitVec 32
  f : BitVec 32
  g : BitVec 32
  h : BitVec 32
deriving DecidableEq, Repr

/-- The initial hash value. -/
def Sha.init : Sha :=
  ⟨0x6a09e667, 0xbb67ae85, 0x3c6ef372, 0xa54ff53a, 0x510e527f, 0x9b05688c, 0x1f83d9ab, 0x5be0cd19⟩

/-- One round with constant `k` and schedule word `w`. -/
def Sha.round (s : Sha) (kw : BitVec 32 × BitVec 32) : Sha :=
  let t1 := s.h + (s.e.rotateRight 6 ^^^ s.e.rotateRight 11 ^^^ s.e.rotateRight 25)
    + ((s.e &&& s.f) ^^^ (~~~ s.e &&& s.g)) + kw.1 + kw.2
  let t2 := (s.a.rotateRight 2 ^^^ s.a.rotateRight 13 ^^^ s.a.rotateRight 22)
    + ((s.a &&& s.b) ^^^ (s.a &&& s.c) ^^^ (s.b &&& s.c))
  ⟨t1 + t2, s.a, s.b, s.c, s.d + t1, s.e, s.f, s.g⟩

/-- `n` more schedule words after the sixteen newest, newest last. -/
def shaExtend : Nat → List (BitVec 32) → List (BitVec 32)
  | 0, l => l
  | n + 1, l =>
    let k := l.length
    let w2 := l.getD (k - 2) 0
    let w15 := l.getD (k - 15) 0
    let s1 := w2.rotateRight 17 ^^^ w2.rotateRight 19 ^^^ w2 >>> 10
    let s0 := w15.rotateRight 7 ^^^ w15.rotateRight 18 ^^^ w15 >>> 3
    shaExtend n (l ++ [s1 + l.getD (k - 7) 0 + s0 + l.getD (k - 16) 0])

/-- Big-endian 32-bit words of a block. -/
def beWords : Nat → List Byte → List (BitVec 32)
  | 0, _ => []
  | n + 1, l => BitVec.ofNat 32 (beNat (l.take 4)) :: beWords n (l.drop 4)

/-- One 64-byte block. -/
def Sha.block (s : Sha) (l : List Byte) : Sha :=
  let w := shaExtend 48 (beWords 16 l)
  let t := (shaK.zip w).foldl Sha.round s
  ⟨s.a + t.a, s.b + t.b, s.c + t.c, s.d + t.d, s.e + t.e, s.f + t.f, s.g + t.g, s.h + t.h⟩

/-- `n` blocks of a padded message. -/
def Sha.blocks : Nat → Sha → List Byte → Sha
  | 0, s, _ => s
  | n + 1, s, l => Sha.blocks n (s.block (l.take 64)) (l.drop 64)

/-- SHA-256 of a byte list: 32 bytes. -/
def sha256 (m : List Byte) : List Byte :=
  let n := m.length
  let p := m ++ (0x80 : Byte) :: zeros ((119 - n % 64) % 64) ++ beBytes 8 (8 * n)
  let s := Sha.blocks (p.length / 64) Sha.init p
  [s.a, s.b, s.c, s.d, s.e, s.f, s.g, s.h].flatMap fun w => beBytes 4 w.toNat

end Sys2Proof.Machine
end

