-- ==== Sys2Proof/Machine/State/Core.lean ====
section
/-! DEFINITION. State of the beat, the reset sequences, the power domains, the clock and the sensors (chapters 01, 02
and 03), the fault records and what leaves the device. -/

namespace Sys2Proof.Machine

/-- Where the clock stands in the present beat (chapter 01, "Inside one beat"): before clock 1800, from the payload
latch at 1800, from the first record bit at 2000. -/
inductive Phase where
  | early
  | latched
  | emitted
deriving DecidableEq, Repr

/-- How far the device is from power-on (R41, R50–R53). `starting`: AON coming up before the release; `cold`: beats
0 to b1 - 1; `failedCheck`: the Plinth's start-up check failed; `on`: from b1; `stopped`: below 9.0 V or stopped by
the AON thermal limit. -/
inductive RunPhase where
  | unpowered
  | starting
  | cold
  | failedCheck
  | on
  | stopped (thermal : Bool)
deriving DecidableEq, Repr

/-- A switched power domain (R42, R43). -/
inductive Domain where
  | off
  | ramping (start : Nat)
  | ready
deriving DecidableEq, Repr

/-- A warm reset sequence (R59): its beat w, whether step 3 and the restart have been taken. -/
structure Warm where
  w : Nat
  begun : Bool
  restarted : Bool
deriving DecidableEq, Repr

/-- The beat counter and its place in the beat (R6, R7, R22). -/
structure TimeState where
  beatNo : Nat
  phase : Phase
  clkARunning : Bool
  seq : BitVec 32
  recordsSent : Nat
  /-- The FAULT window of this beat has been used (R396). -/
  windowDone : Bool
deriving DecidableEq, Repr

/-- Reset and power sequencing: what the PDC, the reset controller and the regulator monitor keep beyond their
register pages. -/
structure PowerState where
  run : RunPhase
  checkPassed : Bool
  resetLow : Bool
  /-- r: the beat in which the rising edge of RESET_N was recognised (R52, R59). -/
  riseBeat : Nat
  /-- b1, once the first record's beat has come (R52). -/
  firstBeat : Option Nat
  warm : Option Warm
  /-- The beat from which BRINGUP_BEATS counts: b1 or w (R58). -/
  bringupFrom : Nat
  domains : List Domain
  /-- Domains requested on and not yet ramping (R43). -/
  queue : List Nat
  /-- Domains whose logic is still held in reset through a warm reset while powered (R59). -/
  heldInReset : List Nat
  /-- Domains held off until a warm reset or power-on (R44, R474). -/
  heldOff : List Nat
  /-- Domains held off until the next cold start (R25). -/
  failedClusters : List Nat
  lastRamp : Option Nat
  /-- Since when each open-pool core has been idle (R44). -/
  idleSince : List (Nat × Nat)
  sleepDomains : List Nat
  sleepPos : Option Int
  /-- A wake cause has arisen: the beat at whose boundary PD38 starts (R47). -/
  wakeAt : Option Nat
  /-- Sleep exit still waits for the domains of sleep entry (R47). -/
  sleepExit : Bool
  /-- Register values and shadows that the latest completed option pass leaves to pages of switched domains (R58, R67),
  by `RField.key`. -/
  optRegs : List (Nat × Nat)
  optShadow : List (Nat × Nat)
  /-- The cold start's audit entry and re-admission decisions are still to come (R430, R449). -/
  coldPending : Bool
  optionsDone : Bool
  factoryInvalid : Bool
  firmwareChecked : Bool
  linkBoot : Bool
deriving DecidableEq, Repr

/-- The supply and temperature monitors (chapter 02, "Supply monitoring" and "Thermal protection"). -/
structure SensorState where
  vin : Nat
  vinLow : Nat
  vinHigh : Nat
  vinIn : Nat
  temps : List Int
  hotRuns : List Nat
  /-- The condition of the 105.0 degree row holds, and the sensors that have tripped at 120.0 degrees (R50, R474). -/
  hotActive : Bool
  trips : List Nat
  warnActive : Bool
  stopActive : Bool
deriving DecidableEq, Repr

/-- The CLK_A reference (R48, R49). -/
structure ClockState where
  hl0Locked : Bool
  firstMoveDone : Bool
deriving DecidableEq, Repr

/-- A fault record (R470); `mid` is bytes 12–15: context, unit, node, or a MARGIN for class 0x6. -/
structure FaultRec where
  code : Nat
  blk : Nat
  beat : Nat
  mid : Nat
  d0 : Nat
  d1 : Nat
  d2 : Nat
  d3 : Nat
deriving DecidableEq, Repr

/-- A block reset log entry (R65). -/
structure BlkLog where
  beat : Nat
  blk : Nat
  outcome : Nat
  role : Nat
  clocks : Nat
deriving DecidableEq, Repr

/-- A block software reset in progress (R71). -/
structure BlkReset where
  page : Nat
  beat : Nat
  role : Nat
  forced : Bool
  clocks : Nat
  done : Bool
  /-- The domain is switched off instead of a reset: an off-request met work (R44). -/
  off : Bool
deriving DecidableEq, Repr

/-- Retention memory (R65): entries by slot. `pm` is the post-mortem area's bytes, none written reading zero. -/
structure Retention where
  blkLog : List (Nat × BlkLog)
  faults : List (Nat × FaultRec)
  pm : List Byte
deriving DecidableEq, Repr

/-- What leaves the device: a cell on a host link, a frame on a safety port, a trigger or a tunnel frame on a camera
downlink. -/
inductive Out where
  | cell (port : Nat) (bytes : List Byte)
  | sl (port : Nat) (bytes : List Byte)
  | trigger (cam beat clock : Nat)
  | tunnel (cam : Nat) (bytes : List Byte)
deriving DecidableEq, Repr

end Sys2Proof.Machine
end

