-- ==== Sys2Proof/Machine/State/Link.lean ====
section
/-! DEFINITION. State of one host link port (chapter 04) beyond its HLK page. -/

namespace Sys2Proof.Machine

/-- A message (R85): `ticket` names the audit entry its sending waits for (R450). -/
structure Msg where
  mtype : Nat
  sid : Nat
  tag : Nat
  param : Nat
  addr : Nat
  body : List Byte
  ticket : Option Nat
deriving DecidableEq, Repr

/-- A data cell with its place in a message (R78). -/
structure TxCell where
  vc : Nat
  som : Bool
  eom : Bool
  payload : List Byte
  lseq : Nat
deriving DecidableEq, Repr

/-- A message being received on a virtual channel: its bytes and cells so far. -/
structure Assembly where
  vc : Nat
  cells : Nat
  bytes : List Byte
deriving DecidableEq, Repr

/-- A challenge outstanding (R99). -/
structure Challenge where
  nonce : List Byte
  beat : Nat
  role : Nat
deriving DecidableEq, Repr

/-- A response under decision (R99). -/
structure Response where
  challenge : Option Challenge
  tag : Nat
  signatures : List Byte
deriving DecidableEq, Repr

/-- A request of an open task to a host window (R92). -/
structure HostReq where
  tag : Nat
  ctx : Nat
  unit : Nat
  channel : Nat
  write : Bool
  addr : Nat
  len : Nat
  beat : Nat
  dest : Nat
deriving DecidableEq, Repr

/-- A job message waiting for the writes that came before it (R86). -/
structure JobMsg where
  port : Nat
  sid : Nat
  param : Nat
  body : List Byte
  waits : List Nat
deriving DecidableEq, Repr

/-- One host link port. -/
structure HlPort where
  /-- Receive lanes that hold block lock (R75). -/
  rxLock : Nat
  /-- LSEQ of the next data cell sent, and of the next expected (R79). -/
  txNext : Nat
  rxNext : Nat
  /-- A NAK was sent and its cell has not come (R79). -/
  awaiting : Bool
  /-- Data cells sent and not acknowledged, oldest first: at most 2048 (R79). -/
  replay : List TxCell
  /-- The LSEQ at which the latest replay began, and how many in a row began there (R80). -/
  replayAt : Nat
  replayRun : Nat
  /-- Uncorrectable codewords in the present beat (R80). -/
  uncorrBeat : Nat
  lastRx : Nat
  lastAckProgress : Nat
  lastTx : Nat
  lastHello : Nat
  /-- 0x2030 was written since NEGOTIATE was entered (R77). -/
  versionNoneSent : Bool
  retrainSince : Nat
  darkSince : Option Nat
  /-- Credits the partner granted per VC, and credits granted to it for VC0 and VC1 (R83, R84). -/
  txCredits : List Nat
  rxGranted : List Nat
  assembly : List Assembly
  /-- Cells cut from a message and not yet sent, by VC. -/
  cellQ : List TxCell
  /-- Completions of VC0 and VC1 and requests to host windows, in order (R86). -/
  outQ0 : List Msg
  outQ1 : List Msg
  /-- Events (R97) and record copies (R98) that wait for VC3 credits. -/
  eventQ : List Msg
  recordQ : List Msg
  /-- Events were lost since the last EVT_LOSS (R97). -/
  lossPending : Bool
  challenge : Option Challenge
  response : Option Response
  lockoutEnd : Option Nat
  recSubs : List Nat
  hostReqs : List HostReq
  nextHostTag : Nat
  /-- Jobs that reached the device and wait for the intake queue (R86). -/
  jobs : List JobMsg
deriving DecidableEq, Repr

/-- A link layer that has not come up: numbering from 0, nothing outstanding. -/
def HlPort.fresh : HlPort :=
  { rxLock := 0, txNext := 0, rxNext := 0, awaiting := false, replay := [], replayAt := 0, replayRun := 0, uncorrBeat := 0,
    lastRx := 0, lastAckProgress := 0, lastTx := 0, lastHello := 0, versionNoneSent := false, retrainSince := 0,
    darkSince := none, txCredits := [0, 0, 0, 0], rxGranted := [0, 0], assembly := [], cellQ := [], outQ0 := [],
    outQ1 := [], eventQ := [], recordQ := [], lossPending := false, challenge := none, response := none,
    lockoutEnd := none, recSubs := [], hostReqs := [], nextHostTag := 0, jobs := [] }

/-- A link boot under way (R102). -/
structure BootSession where
  port : Nat
  tag : Nat
  header : List Byte
  ready : Bool
  /-- Chunk offsets received. -/
  chunks : List Nat
deriving DecidableEq, Repr

/-- A job in the intake queue (R94). -/
structure Job where
  port : Nat
  sid : Nat
  descAddr : Nat
  priority : Nat
  ordered : Bool
  notify : Bool
  seed : Nat
  cookie : Nat
  /-- Later tasks that have started past this one (R246). -/
  passed : Nat
deriving DecidableEq, Repr

/-- An EVT_JOB_DONE that no port could take (R96). -/
structure HeldJobDone where
  cookie : Nat
  status : Nat
  fault : Nat
deriving DecidableEq, Repr

/-- The two host link ports and what they share. -/
structure LinkState where
  ports : List HlPort
  boot : Option BootSession
  intake : List Job
  heldJobs : List HeldJobDone
  /-- The firmware a completed link boot left running: version and body digest (R102). -/
  bootedFirmware : Option (Nat × List Byte)
deriving DecidableEq, Repr

end Sys2Proof.Machine
end

