-- ==== Sys2Proof/Machine/State/Graph.lean ====
section
/-! DEFINITION. Graph packages as the Armature reads them, the running set, the Maquette, open tasks and the cluster
controllers (chapter 10). Where the spec names a section's contents but no byte layout, the decoded contents stand here
and `Config.decodeSections` reads them from the bytes (log 8). -/

namespace Sys2Proof.Machine

/-- The unit classes of a node (R234). -/
inductive NodeClass where
  | tensor | sge | ofe | fpeDetect | fpeMatch | wpe | pye | ife | recordWrite | cameraControl
deriving DecidableEq, Repr

/-- A node's anchor (R234): a driving stream of its graph, or a producer node. -/
inductive Anchor where
  | stream (n : Nat)
  | node (i : Nat)
deriving DecidableEq, Repr

/-- A node descriptor (R234). -/
structure NodeDesc where
  index : Nat
  cls : NodeClass
  engineCtx : Nat
  step : Int
  perFrame : Bool
  mayVary : Bool
  anchor : Anchor
  start : Nat
  flag : Nat
  lane : Nat
  inFlag : Nat
  inCount : Nat
  outCount : Nat
  outFlag : Nat
  cmdAddr : Nat
deriving DecidableEq, Repr

/-- The core an open node names (R245): the layout gives it no field of its own, so the low bits of the lane field,
which open work does not use (log 22). -/
def NodeDesc.coreIndex (d : NodeDesc) : Nat := d.lane % 4

/-- A graph of the set (R233, type 0x01): its driving streams are CPX stream entries. -/
structure GraphDesc where
  digest : List Byte
  streams : List Nat
  stripHeight : Nat
  firstNode : Nat
  nodeCount : Nat
deriving DecidableEq, Repr

/-- What a lane lies on (R239). -/
inductive LaneUnit where
  | engine (u e : Nat)
  | ifeRows
  | gddr (ch : Nat)
  | fabric (port : Nat)
  | cmem (c port : Nat)
deriving DecidableEq, Repr

/-- A lane: a clock range of every beat on one unit, owned by a driving stream; `test` for a test lane (R239, R240). -/
structure Lane where
  on : LaneUnit
  number : Nat
  first : Nat
  last : Nat
  stream : Nat
  test : Bool
deriving DecidableEq, Repr

/-- A placement entry (R235): a unit for each node (0xFF unplaced, 0xFE none), its plan, and the memory, counters and
flags it declares. -/
structure Placement where
  units : List Nat
  lanes : List Lane
  /-- Re-run reservations: node, first clock from the anchor (R240). -/
  reruns : List (Nat × Nat)
  /-- Scratchpad segments by core, cluster memory segments by cluster. -/
  spmSegs : List (Nat × Nat)
  cmemSegs : List (Nat × Nat)
  /-- Counters held by cluster: numbers. -/
  counters : List (Nat × Nat)
  /-- GDDR6 slots that carry the lines of a locked transfer (R357): channel, slot, lines, DRAM rows. -/
  gddrSlots : List (Nat × Nat × Nat × Nat)
  /-- Rings of cores and clusters the entry uses: (isCluster, index, ring). -/
  rings : List (Bool × Nat × Nat)
deriving DecidableEq, Repr

/-- A stream of the set (R233, type 0x04): CPX entry, its shadowed fields as (word offset, low bit, width, value), P,
TRIG_GROUP, trigger offset, ring address. -/
structure StreamDesc where
  entry : Nat
  fields : List (Nat × Nat × Nat × Nat)
  period : Nat
  trigGroup : Nat
  offset : Nat
  ring : Nat
deriving DecidableEq, Repr

/-- Settings of one engine or IFE context (R233, type 0x06), named by a node that uses it: fields as for a stream, word
offsets from the start of the context's words. -/
structure ContextDesc where
  node : Nat
  fields : List (Nat × Nat × Nat × Nat)
deriving DecidableEq, Repr

/-- Where a node's prediction comes from (R160, R181, R198): the producer node, how many frames back its output is used,
and the device address of a map when the producer writes one to memory. -/
structure PredDesc where
  node : Nat
  producer : Nat
  back : Nat
  addr : Nat
deriving DecidableEq, Repr

/-- The lists of a match job (R198): the matcher node, the detection context and frames back of its query list, and of
its train list. -/
structure MatchDesc where
  node : Nat
  ctxA : Nat
  backA : Nat
  ctxB : Nat
  backB : Nat
deriving DecidableEq, Repr

/-- An image in memory under an open task (R155, R178, R192, R206): the engine context that reads it, which of its
inputs or levels, its address, row pitch and bytes a sample. -/
structure TaskImage where
  page : Nat
  ctx : Nat
  input : Nat
  addr : Nat
  pitch : Nat
  bytes : Nat
deriving DecidableEq, Repr

/-- A stream channel a locked node uses (R370, R372): the node, whose start clock arms the list; the channel, its
fields as for a stream, the list. -/
structure ChannelDesc where
  node : Nat
  unit : Nat
  number : Nat
  fields : List (Nat × Nat × Nat × Nat)
  addr : Nat
  count : Nat
deriving DecidableEq, Repr

/-- Entries and regions of the block owner directory that a locked set declares (R320); regions as number, base entry,
block size log2, extents. -/
structure BodDesc where
  entries : List (Nat × Nat)
  regions : List (Nat × Nat × Nat × Nat × Nat × Nat)
deriving DecidableEq, Repr, Inhabited

/-- A pinned window (R233, type 0x07). -/
structure WindowDesc where
  addr : Nat
  size : Nat
  content : Nat
  contentLen : Nat
  shared : Bool
  digest : List Byte
deriving DecidableEq, Repr

/-- A parameter push the graph declares (R150): the control node that makes it, the context, its link, how many frames
ahead its target lies, its block. -/
structure PqDesc where
  node : Nat
  ctx : Nat
  cls : Nat
  linked : Bool
  ahead : Nat
  addr : Nat
deriving DecidableEq, Repr

/-- A field of the payload map (R236). -/
structure PayloadField where
  off : Nat
  len : Nat
  primary : Nat
  alternate : Option Nat
  bound : Nat
  carry : Bool
deriving DecidableEq, Repr

/-- A comparator pair (R400). -/
structure ComparePair where
  kind : Nat
  fieldX : Nat
  fieldY : Nat
  type : Nat
  unit : Nat
  maxGap : Nat
  bandAbs : Nat
  bandRel : Nat
  skew : Nat
  unitsX : Nat
  unitsY : Nat
deriving DecidableEq, Repr

/-- The COMPARE section (R400), its header defaults filled in. -/
structure Compare where
  kDeg : Nat
  kSafe : Nat
  window : Nat
  kPersist : Nat
  pairs : List ComparePair
deriving DecidableEq, Repr

/-- A strip flag to set: the node, its cluster, the flag, the readers the package declares (R242). -/
structure FlagDecl where
  node : Nat
  cluster : Nat
  flag : Nat
  readers : Nat
deriving DecidableEq, Repr

/-- What the sections without a byte layout hold. -/
structure Sections where
  graphs : List GraphDesc
  placements : List Placement
  streams : List StreamDesc
  /-- Camera configuration lists: port, descriptors of 16 bytes. -/
  camcfg : List (Nat × List (List Byte))
  contexts : List ContextDesc
  windows : List WindowDesc
  pq : List PqDesc
  payload : List PayloadField
  flags : List FlagDecl
  /-- Successor counters of locked nodes: node, cluster, counter (R244). -/
  successors : List (Nat × Nat × Nat)
  /-- The counter of a locked node (R244): node, cluster, counter, initial value. -/
  counterInit : List (Nat × Nat × Nat × Nat)
  /-- GSET_IDs fields may be carried from (R233, type 0x0C). -/
  carry : List Nat
  /-- Dependence of a node's value: input nodes with strip steps, back to a stream (R237). -/
  deps : List (Nat × Nat × Int)
  /-- Where a record write node's value lies: node, field, alternate source, device address. -/
  recordWrites : List (Nat × Nat × Bool × Nat)
  /-- The flow field of a motion-compensated front end context (R137): context, OFE page number, OFE context. -/
  flowFor : List (Nat × Nat × Nat)
  predFor : List PredDesc
  channels : List ChannelDesc
  bod : BodDesc
  matches_ : List MatchDesc
deriving DecidableEq, Repr, Inhabited

/-- What an open task's settings block holds (R245, bytes 32–39): streams it starts, context settings by node, images
it reads, predictions. -/
structure TaskSettings where
  streams : List StreamDesc
  contexts : List ContextDesc
  images : List TaskImage
  channels : List ChannelDesc
  predFor : List PredDesc
deriving DecidableEq, Repr, Inhabited

/-- A package read and decoded. -/
structure Package where
  gset : Nat
  latency : Nat
  fwMin : Nat
  bodyDigest : List Byte
  /-- Where the PLACEMENTS section stands in the directory (R249, REFUSAL_DETAIL). -/
  placementPos : Nat
  nodes : List NodeDesc
  compare : Compare
  compareBytes : List Byte
  /-- Nodes whose runs are logged, and EVERY (R389). -/
  logged : List (Nat × Nat)
  sec : Sections
deriving DecidableEq, Repr

/-- A load under way (R248): the bytes read, and who asked. -/
structure LoadOp where
  bytes : List Byte
  fromSlot : Bool
  port : Nat
  role : Nat
deriving DecidableEq, Repr

/-- A set that is running, or the old set of a swap while it drains. -/
structure RunSet where
  /-- MODEL'S OWN: which set since reset this is, so that two sets with one GSET_ID stay apart. -/
  key : Nat
  pkg : Package
  entry : Nat
  /-- The first beat from whose acquisition beats its records report: s of R250, w of R251. -/
  since : Nat
  /-- The boundary of the last strips it admits, once STOP or SWAP has fixed it (R250, R251). -/
  lastAdmit : Option Nat
  /-- The entry before the latest fallback, and the boundary s of that fallback (R254). -/
  oldEntry : Option (Nat × Nat)
  /-- MODEL'S OWN: the key of the set it took over from in a swap (R253). -/
  swapFrom : Option Nat
  /-- B0 of each of its streams (R10): stream entry, beat. -/
  starts : List (Nat × Nat)
  /-- Runs that the nodes of graphs continuing from a swap have behind them (R299): node, runs. -/
  steps : List (Nat × Nat)
  /-- Its last flag has been set after STOP or SWAP: it holds nothing any more, and stays for its last records. -/
  released : Bool
deriving DecidableEq, Repr

/-- A strip admitted (R8): its stream entry, frame, index in the frame, index among all admitted of the stream,
acquisition beat, admission beat, row mask, and the set that admitted it. -/
structure Strip where
  gset : Nat
  stream : Nat
  frame : Nat
  index : Nat
  serial : Nat
  acq : Nat
  admitted : Nat
  mask : Nat
  lastOfFrame : Bool
deriving DecidableEq, Repr

/-- A run of a locked node for one anchor strip (its serial), of the set with key `gset`. `poison`: the reason its outputs
carry, 0x20 or 0x21; `rerun`: it ran twice (R338); `index`: its step key J. -/
structure NodeRun where
  gset : Nat
  node : Nat
  strip : Nat
  unit : Nat
  index : Nat
  poison : Option Nat
  rerun : Bool
  acqNew : Nat
  acqOld : Nat
  flagged : Bool
  lost : Bool
  digest : Digest
deriving DecidableEq, Repr

/-- A retirement being moved through (R254). -/
structure Retiring where
  units : List Nat
  d : Nat
  s : Nat
  entry : Option Nat
  aborted : Bool
deriving DecidableEq, Repr

/-- A command that waits for its beat: START, STOP or SWAP (R250, R251). -/
inductive PendingOp where
  | start (at_ : Nat)
  | stop (at_ : Nat)
  | swap (cmdBeat at_ : Nat)
deriving DecidableEq, Repr

/-- A strip flag (R242); `reason` and `acqOld` say what its contents descend from (R237, R238). -/
structure StripFlag where
  strip : Nat
  readers : Nat
  full : Bool
  poison : Bool
  reason : Nat
  acqOld : Nat
deriving DecidableEq, Repr

/-- An open task (R245, R247). `succ` holds each node's successors, `counters` the cluster counter of each node
that has one (1024 where its initial value is 0), `held` every counter it holds. -/
structure Task where
  ctx : Nat
  cluster : Nat
  job : Job
  nodes : List NodeDesc
  succ : List (List Nat)
  counters : List Nat
  held : List Nat
  completed : List Nat
  root : Nat
  completionAddr : Nat
  /-- Rounding keys: seed, graph, step base, and the key of each node (R299, R392). -/
  seed : Nat
  graphKey : Nat
  stepBase : Nat
  nodeKeys : List Nat
  settings : TaskSettings
deriving DecidableEq, Repr

/-- A ready node (R244): its task, its index, the core. -/
structure ReadyNode where
  ctx : Nat
  node : Nat
  core : Nat
  priority : Nat
deriving DecidableEq, Repr

/-- A cluster controller (R242, R244): flags and counters not listed are 0. -/
structure Cluster where
  flags : List (Nat × StripFlag)
  counters : List (Nat × Nat)
  lockedCounters : List Nat
  openCounters : List Nat
  lockedFlags : List Nat
  /-- Ready lists of cores 0–3, and nodes pending for a full list. -/
  ready : List ReadyNode
  pendingNodes : List ReadyNode
deriving DecidableEq, Repr

/-- A write in the Plinth's record buffer (R237). -/
structure RecWrite where
  set : Nat
  field : Nat
  alternate : Bool
  acqNew : Nat
  acqOld : Nat
  poison : Option Nat
  value : Nat
  d1 : Nat
  d2 : Nat
deriving DecidableEq, Repr

/-- What a record chose for a field (R238). -/
inductive Choice where
  | used (w : RecWrite)
  | failed (reason : Nat)
  | noWrite
deriving DecidableEq, Repr

/-- A field carried over a swap (R253): field of the new set, what the old set's last record chose. -/
structure Carried where
  field : Nat
  choice : Choice
deriving DecidableEq, Repr

/-- The Armature (chapter 10) beyond its page. -/
structure AmtState where
  running : Option RunSet
  /-- Sets that took part in a swap, or stopped before a later start, oldest first, until their last record is behind. -/
  draining : List RunSet
  maquette : Option (Package × Nat)
  maqPorts : List Nat
  load : Option LoadOp
  op : Option PendingOp
  retiring : Option Retiring
  strips : List Strip
  runs : List NodeRun
  /-- Runs of each locked node so far, by set and node: J of R299 and R386. -/
  runCounts : List ((Nat × Nat) × Nat)
  carried : List Carried
  tasks : List Task
  /-- Runs of each open node so far: context, node, count. -/
  openRuns : List (Nat × Nat × Nat)
  /-- MODEL'S OWN: how many sets have begun to run. -/
  sets : Nat
deriving DecidableEq, Repr

end Sys2Proof.Machine
end

