-- ==== Sys2Proof/Machine/State/Fabric.lean ====
section
/-! DEFINITION. State of the memories, rings, streams, translation, digests and tensor cores (chapters 11, 13–16). -/

namespace Sys2Proof.Machine

/-- Memory by device address, ascending, no entry equal to 0: what an unlisted address reads as (R63: wiped). -/
abbrev Mem := List (Nat × Byte)

/-- A ring (R340): in a cluster's memory or a core's scratchpad, which one, its number. -/
structure RingRef where
  inCmem : Bool
  owner : Nat
  ring : Nat
deriving DecidableEq, Repr

/-- A consumer of a ring: its drain pointer and who it is (a context, or none for locked work). -/
structure RingConsumer where
  ring : RingRef
  number : Nat
  drain : Nat
  ctx : Option Nat
deriving DecidableEq, Repr

/-- A list armed on a channel (R370). -/
structure StreamList where
  addr : Nat
  count : Nat
deriving DecidableEq, Repr

/-- A stream channel (R368–R374) beyond its page words. `pos`: blocks of ACTIVE moved; `ahead`: run-ahead blocks of
PENDING filled; `heldFault`: a fault of a run-ahead block not yet reported, its code and task address; `stalled`: task
address, code, beat; `walked`: the next block of ACTIVE has issued; `node`: the locked node it serves. -/
structure Channel where
  unit : Nat
  number : Nat
  active : Option StreamList
  pend : Option StreamList
  pos : Nat
  ahead : Nat
  heldFault : Option (Nat × Nat)
  stalled : Option (Nat × Nat × Nat)
  walked : Bool
  /-- A resume has been written for the block (R374). -/
  resumed : Bool
  /-- Requests to a host window for the block have been sent (R92). -/
  requested : Bool
  ctx : Option Nat
  node : Option Nat
deriving DecidableEq, Repr

/-- A translation held (R365): context, task page number, leaf entry. -/
structure TlbEntry where
  ctx : Nat
  page : Nat
  entry : Nat
deriving DecidableEq, Repr

/-- An OUT page written by a running task, or being wiped after its abort (R376). -/
structure OutPage where
  ctx : Nat
  page : Nat
deriving DecidableEq, Repr

/-- A digest log entry in the buffer (R390). -/
abbrev LogEntry := List Byte

/-- An ordered contribution waiting at a combine unit (R279): core, task, command position, operation, format and
element addresses and codes. -/
structure Contribution where
  core : Nat
  ctx : Nat
  order : Nat
  op : Nat
  fmt : Nat
  values : List (Nat × Nat)
deriving DecidableEq, Repr

/-- A node in one of a core's four running places (R262). -/
structure CoreNode where
  slot : Nat
  locked : Bool
  /-- The key of a locked node's set. -/
  gset : Nat
  ctx : Nat
  node : Nat
  strip : Nat
  /-- Index of the next command in its command words. -/
  cmd : Nat
  /-- A command or stage has run and the completion of its chain has not been taken (R283). -/
  busy : Bool
  /-- What the latest stage of the chain handed to the next: its shape, its elements (R282). -/
  stage : Option (List Nat × StageOut)
  finished : Bool
  reran : Bool
  needsRerun : Bool
  /-- Executes nothing further: a fault of a locked node (R284, R325). -/
  dead : Bool
  waiting : Option RingRef
  waitSince : Nat
  poison : Option Nat
  /-- Its re-run reservation began without a re-run (R338). -/
  noRerun : Bool
  /-- Contributions to a shared combine have entered its digest (R387). -/
  combined : Bool
  /-- Its run's digest so far (R386). -/
  digest : Digest
deriving DecidableEq, Repr

/-- A tensor core's or vision core's running nodes. -/
structure CoreState where
  unit : Nat
  nodes : List CoreNode
deriving DecidableEq, Repr

/-- A segment being wiped (R345): in a cluster's memory or a scratchpad. -/
structure WipeSeg where
  inCmem : Bool
  owner : Nat
  seg : Nat
deriving DecidableEq, Repr

/-- A post-mortem capture under way (R347). -/
structure Capture where
  cause : Nat
  beat : Nat
  unit : Nat
  ctx : Nat
  node : Nat
  code : Nat
deriving DecidableEq, Repr

/-- What a scrubber knows of an array (R336): words corrected in the latest passes, newest pass first; whether the pass
under way has been reported slow. -/
structure Scrubber where
  inCmem : Bool
  owner : Nat
  passes : List (List Nat)
  slow : Bool
deriving DecidableEq, Repr

/-- A MC channel's patrol pointer, next line index (R361). -/
structure Patrol where
  ch : Nat
  q : Nat
deriving DecidableEq, Repr

/-- The block owner directory's bulk load under way (R327). -/
structure BulkLoad where
  addr : Nat
  first : Nat
  count : Nat
deriving DecidableEq, Repr

/-- Memories, streams and tensor cores. -/
structure FabricState where
  mem : Mem
  /-- GDDR6 lines whose errors the ECC cannot correct, and lines corrected and not yet rewritten (R359). -/
  badLines : List Nat
  weakLines : List Nat
  /-- ECC mode in force by group (R353). -/
  eccOn : List Bool
  patrol : List Patrol
  bod : List (Nat × Nat)
  bulk : Option BulkLoad
  consumers : List RingConsumer
  poisonedRings : List RingRef
  channels : List Channel
  tlb : List TlbEntry
  outPages : List OutPage
  wiping : List WipeSeg
  capture : Option Capture
  scrubbers : List Scrubber
  logBuffer : List LogEntry
  logPos : Nat
  cores : List CoreState
  combine : List Contribution
deriving DecidableEq, Repr

end Sys2Proof.Machine
end

