-- ==== Sys2Proof/Machine/State/Mgc.lean ====
section
/-! DEFINITION. State of the MGC: the non-volatile store, the audit log, the running commands (chapter 19). -/

namespace Sys2Proof.Machine

/-- A public key pair of a slot (R437): RSA modulus and SLH-DSA key. -/
structure KeyPair where
  rsa : List Byte
  slh : List Byte
deriving DecidableEq, Repr

/-- One copy of the key block (R442): generation count, the keys of slots 0x04–0x06, the firmware floor and the
life-cycle state; `torn` when its digest does not match. -/
structure KeyBlock where
  generation : Nat
  keys : List (Nat × KeyPair)
  fwFloor : Nat
  lifeCycle : Nat
  torn : Bool
deriving DecidableEq, Repr

/-- The FACTORY partition (R442), by its contents. -/
structure Factory where
  present : Bool
  /-- The maker's option layer: an option image (R66) without layout of its own. -/
  layer : List (Nat × Nat × Nat × Nat)
  /-- Its own checks hold (R70). -/
  valid : Bool
  disabled : BitVec 24
  certificate : List Byte
  keys : List (Nat × KeyPair)
deriving DecidableEq, Repr, Inhabited

/-- An audit entry as programmed (R451): 128 bytes. -/
abbrev AuditBytes := List Byte

/-- What an audit entry will hold before it is programmed (R449, R451); `ticket` releases a held completion. -/
structure AuditReq where
  beat : Nat
  kind : Nat
  actor : Nat
  port : Nat
  result : Nat
  data : List Byte
  ticket : Option Nat
deriving DecidableEq, Repr

/-- The non-volatile store (R442). -/
structure Store where
  factory : Factory
  options : List Byte
  firmware : List Byte
  fwHeader : List Byte
  /-- Slots 0–6 that hold a package. -/
  graphs : List (Nat × List Byte)
  /-- Entries still present, newest first, and the SEQ of the newest plus one. -/
  audit : List AuditBytes
  auditNext : Nat
  /-- HASH of the last sound entry. -/
  auditHash : List Byte
  /-- The newest slot is torn (R453), and the next entry must say so. -/
  auditTorn : Bool
  /-- Checkpoints, newest first (R452). -/
  checkpoints : List (List Byte)
  keys0 : KeyBlock
  keys1 : KeyBlock
  scrapped : Bool
  /-- SEQ of the latest entry into SERVICE. -/
  serviceSeq : Nat
  coldStarts : Nat
  /-- Retirement counts by unit (R430, R452). -/
  retireCounts : List (Nat × Nat)
deriving DecidableEq, Repr

/-- A store command under way (R443). -/
structure StoreCmd where
  cmd : Nat
  slot : Nat
  image : List Byte
  len : Nat
  result : Nat
  role : Nat
  port : Nat
deriving DecidableEq, Repr

/-- An attestation under way (R441): the nonce, the report's address, who asked. -/
structure Attest where
  nonce : List Byte
  addr : Nat
  role : Nat
  port : Nat
deriving DecidableEq, Repr

/-- An audit copy under way (R454). -/
structure AuditCopy where
  first : Nat
  count : Nat
  addr : Nat
  checkpoints : Bool
deriving DecidableEq, Repr

/-- A life-cycle change under way (R446). -/
structure LifeChange where
  target : Nat
  role : Nat
  port : Nat
deriving DecidableEq, Repr

/-- The MGC beyond its pages. -/
structure MgcState where
  store : Store
  /-- The life-cycle state in force (R446). -/
  lifeCycle : Nat
  /-- Firmware now running: version, body digest. -/
  fwVersion : Nat
  fwDigest : List Byte
  storeCmd : Option StoreCmd
  attest : Option Attest
  audCopy : Option AuditCopy
  checkpointDue : Bool
  change : Option LifeChange
  /-- Entries being programmed, in order (R450). -/
  toProgram : List AuditReq
  nextTicket : Nat
deriving DecidableEq, Repr

end Sys2Proof.Machine
end

