-- ==== Sys2Proof/Machine/State/Plinth.lean ====
section
/-! DEFINITION. State of the Plinth: causes of safe state, odometry and vehicle time, comparator, age monitor, the
record under way and the safety ports' queues (chapters 01 and 17), and the Rasp's tests (chapter 18). -/

namespace Sys2Proof.Machine

/-- A cause of safe state that is not gone (R410): its reason code, its REASON_DETAIL, whether it has ended, the units
whose targeted tests its clearance still needs, whether it needs the test of a block that is no unit. -/
structure Cause where
  code : Nat
  detail : Nat
  ended : Bool
  units : List Nat
  block : Bool
deriving DecidableEq, Repr

/-- An odometry message used (R20): arrival in CLK_AON clocks, position, MSG_SEQ. -/
structure OdoMsg where
  stamp : Nat
  pos : Int
  seq : Nat
deriving DecidableEq, Repr

/-- A downlink frame that was used, kept for the conflict check of R397. -/
structure UsedFrame where
  type : Nat
  seq : Nat
  port : Nat
  content : List Byte
deriving DecidableEq, Repr

/-- A comparator pair's own state (R402–R407): the combination last evaluated, the beats of out-of-band evaluations,
the persistence run, the gap count, withheld. -/
structure PairState where
  combo : Option (Bool × Nat × Bool × Nat)
  oob : List Nat
  persist : Nat
  gap : Nat
  withheld : Bool
  lastEval : Option Nat
deriving DecidableEq, Repr

/-- A pair before any evaluation. -/
def PairState.fresh : PairState :=
  { combo := none, oob := [], persist := 0, gap := 0, withheld := false, lastEval := none }

/-- A record as latched at clock 1800 (R13): its 120 bytes before SEQ, its beat. -/
structure LatchedRecord where
  beat : Nat
  body : List Byte
deriving DecidableEq, Repr

/-- A CLEAR_ACK that waits for its window (R396). -/
structure ClearAck where
  cmdSeq : Nat
  result : Nat
  beat : Nat
deriving DecidableEq, Repr

/-- A SAFE_MARK that waits to be sent (R396). -/
structure SafeMark where
  beat : Nat
  reason : Nat
  detail : Nat
deriving DecidableEq, Repr

/-- The Plinth beyond its pages. -/
structure PlinthState where
  safe : Bool
  causes : List Cause
  writes : List RecWrite
  latched : Option LatchedRecord
  /-- What the newest record chose for each field, in PAYLOAD order, and whose set it was. -/
  chosen : List Choice
  chosenSet : Nat
  /-- The COMPARE header and entries the pairs' state belongs to (R408). -/
  compareBytes : List Byte
  odo : List OdoMsg
  vt : Option (Nat × Nat)
  used : List UsedFrame
  cmdSeen : Bool
  faultQ : List FaultRec
  acks : List ClearAck
  marks : List SafeMark
  /-- Whether each of the latest 64 records was INVALID, newest first (R414). -/
  history : List Bool
  pairs : List PairState
  auditQ : List AuditReq
  auditLost : Nat
  /-- Record fields of the record last emitted, for host copies (R98). -/
  lastRecord : List Byte
deriving DecidableEq, Repr

/-- A run of a test in a mode (R425): 0 ROTATION, 1 PRIORITY, 2 TARGETED, 3 READMIT; its next quantum; whether it has
passed and waits for the instance's other tests; how often the quantum was cut; whether it is being repeated. -/
structure TestRun where
  mode : Nat
  pos : Nat
  passed : Bool
  cuts : Nat
  repeating : Bool
deriving DecidableEq, Repr

/-- A test of an instance (R420–R426). -/
structure TestState where
  inst : TestInstance
  test : Nat
  rotation : TestRun
  /-- Runs in higher modes that are under way or paused, at most one of each mode. -/
  runs : List TestRun
  /-- Beat from which its diagnostic interval runs, none while it is stopped (R426). -/
  last : Option Nat
  /-- Beat of its latest completed rotation. -/
  passedAt : Option Nat
  missed : Bool
  expired : Bool
deriving DecidableEq, Repr

/-- The Rasp beyond its page. -/
structure RaspState where
  tests : List TestState
  /-- Scrubbers over their limit (R427), by (isCluster, index). -/
  slowScrubs : List (Bool × Nat)
  /-- Units retired in service since cold start (reason 0x30). RSP.RETIRED and RSP.READMIT_PEND hold the rest. -/
  retiredInService : List Nat
  /-- Units whose targeted test begins at the next beat boundary (R425). -/
  toTarget : List TestInstance
deriving DecidableEq, Repr

end Sys2Proof.Machine
end

