-- ==== Sys2Proof/Machine/State/Vision.lean ====
section
/-! DEFINITION. State of the camera ports, the front end and the vision engines (chapters 05–09). -/

namespace Sys2Proof.Machine

/-- A tunnelled write (R121): its 16 descriptor bytes, its target frame as resolved at the push, whether it belongs to
the port's configuration list. -/
structure TunnelDesc where
  bytes : List Byte
  target : Nat
  config : Bool
deriving DecidableEq, Repr

/-- A tunnel frame that waits for its acknowledgement (R123): the frame whose window it was sent in, its effective
frame. -/
structure TunnelFrame where
  desc : TunnelDesc
  seq : Nat
  sent : Nat
  tries : Nat
  window : Nat
  effective : Nat
  again : Bool
deriving DecidableEq, Repr

/-- Framing lost on a port (R119): the beat its span begins, the fault code of its first event. -/
structure FramingLost where
  since : Nat
  code : Nat
deriving DecidableEq, Repr

/-- What the CPX told the front end of a keyed write (R122, R123): class, target, effective frame, none when unknown. -/
structure EffReport where
  cls : Nat
  target : Nat
  effective : Option Nat
deriving DecidableEq, Repr

/-- A keyed write the camera confirmed (R149, R152): class, effective frame, beat, data. -/
structure Confirmed where
  cls : Nat
  effective : Nat
  beat : Nat
  data : List Byte
deriving DecidableEq, Repr

/-- A camera port. `resend` goes before `queue` (R120); `configList` is the list of the set or task that uses the port;
`settings` the latest write sent of each class; `reports` and `confirmed` newest first. -/
structure CamPort where
  queue : List TunnelDesc
  resend : List TunnelDesc
  configList : List TunnelDesc
  outstanding : Option TunnelFrame
  nextSeq : Nat
  sentBeat : Option Nat
  lost : Option FramingLost
  /-- Spans of framing lost that have ended: first acquisition beat, and the beat just after the last (R119). -/
  spans : List (Nat × Nat)
  settings : List (Nat × TunnelDesc)
  reports : List EffReport
  confirmed : List Confirmed
deriving DecidableEq, Repr

/-- A row that arrived complete and checked (`got`) or was marked missing, and the beat it counts in (R116). -/
structure RowSeen where
  row : Nat
  got : Bool
  beat : Nat
deriving DecidableEq, Repr

/-- A frame of a stream (R115–R118); in line-scan the frame of a trigger, with row 0 alone (R117). `count`: long packets
taken as rows since FS. `admitted`: its strips admitted so far. -/
structure Frame where
  n : Nat
  opened : Bool
  closed : Bool
  count : Nat
  sensorFn : Nat
  log : List RowSeen
  admitted : List Nat
deriving DecidableEq, Repr

/-- A stream entry's run. `task`: the open context that started it. `serial`: strips admitted so far. -/
structure StreamRun where
  entry : Nat
  active : Bool
  task : Option Nat
  b0 : Nat
  period : Nat
  frames : List Frame
  nextFrame : Nat
  lastFn : Option Nat
  serial : Nat
deriving DecidableEq, Repr

/-- Which image a row belongs to: a camera stream, an output of a front end context, an output of an engine context by
page number; `node`: what a tensor node of a set wrote to memory. -/
inductive ImageKey where
  | stream (entry : Nat)
  | ife (ctx out : Nat)
  | engine (page ctx out : Nat)
  | node (gset i : Nat)
deriving DecidableEq, Repr

/-- One row of an image: values in order. A missing row's values are zeros. -/
structure ImgRow where
  key : ImageKey
  frame : Nat
  row : Nat
  data : List Nat
  missing : Bool
deriving DecidableEq, Repr

/-- An entry of a context's parameter queue (R148, R149). `unknown`: its effective frame was reported unknown. -/
structure PqEntry where
  target : Nat
  linked : Bool
  cls : Nat
  block : List Byte
  effective : Option Nat
  late : Bool
deriving DecidableEq, Repr

/-- A front end context (chapter 06). `params`: the parameter block in force, empty for the Default column of R146;
`unknown`: SETTINGS_UNKNOWN with its class, the beat it was set and the frame it begins with; `flags`: the statistics flags of the frame. -/
structure IfeCtx where
  params : List Byte
  queue : List PqEntry
  refFrame : Option Nat
  frame : Option Nat
  unknown : Option (Nat × Nat × Nat)
  flags : Nat
  temporal : Bool
  motion : Bool
deriving DecidableEq, Repr

/-- A statistics record (R151). -/
structure StatsRecord where
  ctx : Nat
  frame : Nat
  bytes : List Byte
deriving DecidableEq, Repr

/-- The prediction or reference an engine context uses for a frame (R162, R179): page, context, frame, present. -/
structure FrameInput where
  page : Nat
  ctx : Nat
  frame : Nat
  present : Bool
deriving DecidableEq, Repr

/-- A row an engine lost to an uncorrectable error in its line memory: page, context, input as `LineCheck` numbers it, the
frame it worked on, the row. -/
structure LostRow where
  page : Nat
  ctx : Nat
  input : Nat
  frame : Nat
  row : Nat
deriving DecidableEq, Repr

/-- Cameras, front end, engines. `complete`: images whose last strip has been flagged (R138, R162, R179). -/
structure VisionState where
  ports : List CamPort
  streams : List StreamRun
  ife : List IfeCtx
  stats : List StatsRecord
  rows : List ImgRow
  complete : List (ImageKey × Nat)
  inputs : List FrameInput
  lostRows : List LostRow
deriving DecidableEq, Repr

end Sys2Proof.Machine
end

