-- ==== Sys2Proof/Machine/State.lean ====
section
/-! DEFINITION. The machine's state, its outcomes, and the state after reset. -/

namespace Sys2Proof.Machine

/-- Why the block stops with a fault. -/
inductive Fault where
  /-- Raised by a meaning whose operands do not have the command's form (`Instr.wf`): a cell that is not 64 bytes, a
  sample list that is not fifteen. SAFE: the hardware never sees such a command. -/
  | illFormed (mnemonic : String)
deriving DecidableEq, Repr

/-- Why the block refuses a command. -/
inductive Refusal where
  /-- Raised by a dispatch arm whose command has no meaning yet. SAFE: nothing is claimed of it. -/
  | notModelled (mnemonic : String)
deriving DecidableEq, Repr

/-- Register values by `RField.key`, ascending; a field at its after-reset value is not listed (R463, R468). -/
abbrev RegFile := List (Nat × Nat)

/-- The state of the RZ6. -/
structure State where
  /-- Commands that wait, first in, first out. -/
  pending : List Instr
  /-- MODEL'S OWN: how many free values have been drawn (log 3). -/
  draws : Nat
  time : TimeState
  power : PowerState
  sensors : SensorState
  clock : ClockState
  regs : RegFile
  /-- Shadows of RWS fields written since they were last applied or reloaded (R466); a field not listed has the value
  in force as its shadow. -/
  shadow : RegFile
  /-- Pages whose next EVT_BLOCK is due at the beat boundary (R465). -/
  events : List Nat
  /-- Contexts that wait to apply a passed commit: page number, context (R466). -/
  commits : List (Nat × Nat)
  resets : List BlkReset
  retention : Retention
  link : LinkState
  mgc : MgcState
  plinth : PlinthState
  rasp : RaspState
  amt : AmtState
  clusters : List Cluster
  fabric : FabricState
  vision : VisionState
  /-- MODEL'S OWN: what has left the device, newest first (log 9). -/
  wire : List Out
deriving DecidableEq, Repr

/-- What a meaning answers. -/
abbrev Result := Host.Outcome State Fault Refusal

/-- Nothing in the store: a part before its maker has programmed it (log 10). -/
def Store.blank : Store :=
  { factory := { present := false, layer := [], valid := true, disabled := 0, certificate := [], keys := [] }
    options := [], firmware := [], fwHeader := [], graphs := [], audit := [], auditNext := 0, auditHash := zeros 32
    auditTorn := false, checkpoints := []
    keys0 := { generation := 0, keys := [], fwFloor := 0, lifeCycle := 1, torn := false }
    keys1 := { generation := 0, keys := [], fwFloor := 0, lifeCycle := 1, torn := true }
    scrapped := false, serviceSeq := 0, coldStarts := 0, retireCounts := [] }

/-- A cluster controller with nothing held. -/
def Cluster.fresh : Cluster :=
  { flags := [], counters := [], lockedCounters := [], openCounters := [], lockedFlags := [], ready := []
    pendingNodes := [] }

/-- A camera port with nothing queued. -/
def CamPort.fresh : CamPort :=
  { queue := [], resend := [], configList := [], outstanding := none, nextSeq := 0, sentBeat := none, lost := none, spans := []
    settings := [], reports := [], confirmed := [] }

/-- A stream that is not running. -/
def StreamRun.fresh (s : Nat) : StreamRun :=
  { entry := s, active := false, task := none, b0 := 0, period := 0, frames := [], nextFrame := 0, lastFn := none
    serial := 0 }

/-- A stream channel with no list. -/
def Channel.fresh (u n : Nat) : Channel :=
  { unit := u, number := n, active := none, pend := none, pos := 0, ahead := 0, heldFault := none, 
    stalled := none, walked := false, resumed := false, requested := false, ctx := none, node := none }

/-- A run from quantum 0. -/
def TestRun.fresh (mode : Nat) : TestRun := { mode := mode, pos := 0, passed := false, cuts := 0, repeating := false }

/-- A test that has not run. -/
def TestState.fresh (i : TestInstance) (t : Nat) : TestState :=
  { inst := i, test := t, rotation := TestRun.fresh 0, runs := [], last := none, passedAt := none, missed := false
    expired := false }

/-- The tests of each instance (R420). -/
def instanceTests : TestInstance → List Nat
  | .unit u => if u.val % 4 = 3 then [4, 5, 6, 7, 8] else [0, 1, 2, 3]
  | .cluster _ => [9]
  | .ife => [0xA]
  | .channel _ => [0xB]
  | .central => [0xC]
  | .plinth => [0xD]

/-- Every instance of the device (R420). -/
def allInstances : List TestInstance :=
  (List.finRange 24).map .unit ++ (List.finRange 6).map .cluster ++ [.ife] ++ (List.finRange 16).map .channel
    ++ [.central, .plinth]

/-- The Armature with no set. -/
def AmtState.fresh : AmtState :=
  { running := none, draining := [], maquette := none, maqPorts := [], load := none, op := none, retiring := none
    strips := [], runs := [], runCounts := [], carried := [], tasks := [], openRuns := [], sets := 0 }

/-- Memories wiped, nothing moving. -/
def FabricState.fresh : FabricState :=
  { mem := [], badLines := [], weakLines := [], eccOn := [true, true]
    patrol := (List.range 16).map fun ch => { ch := ch, q := 0 }
    bod := [], bulk := none, consumers := [], poisonedRings := []
    channels := (List.range 24).flatMap fun u =>
      if u % 4 = 3 then [] else (List.range 8).map fun n => Channel.fresh u n
    tlb := [], outPages := [], wiping := [], capture := none, scrubbers := [], logBuffer := []
    logPos := 0, cores := (List.range 24).map fun u => { unit := u, nodes := [] }, combine := [] }

/-- A front end context at its default parameters (R154). -/
def IfeCtx.fresh : IfeCtx :=
  { params := [], queue := [], refFrame := none, frame := none, unknown := none, flags := 0, temporal := false
    motion := false }

/-- Cameras and engines with nothing received. -/
def VisionState.fresh : VisionState :=
  { ports := List.replicate 12 CamPort.fresh, streams := (List.range 32).map StreamRun.fresh
    ife := List.replicate 8 IfeCtx.fresh, stats := [], rows := [], complete := [], inputs := [], lostRows := [] }

/-- The Plinth after power-on (R63). -/
def PlinthState.fresh : PlinthState :=
  { safe := false, causes := [], writes := [], latched := none, chosen := [], chosenSet := 0, compareBytes := [], odo := [], vt := none
    used := [], cmdSeen := false, faultQ := [], acks := [], marks := [], history := []
    pairs := List.replicate 16 PairState.fresh, auditQ := [], auditLost := 0, lastRecord := [] }

/-- The Rasp after power-on. -/
def RaspState.fresh : RaspState :=
  { tests := allInstances.flatMap fun i => (instanceTests i).map (TestState.fresh i), slowScrubs := []
    retiredInService := [], toTarget := [] }

/-- The MGC before boot, over a store. -/
def MgcState.fresh (st : Store) : MgcState :=
  { store := st, lifeCycle := 1, fwVersion := 0, fwDigest := zeros 32, storeCmd := none, attest := none
    audCopy := none, checkpointDue := false, change := none, toProgram := [], nextTicket := 0 }

/-- Reset sequencing before power. -/
def PowerState.fresh : PowerState :=
  { run := .unpowered, checkPassed := false, resetLow := false, riseBeat := 0, firstBeat := none, warm := none
    bringupFrom := 0, domains := List.replicate 39 .off, queue := [], heldInReset := [], heldOff := []
    failedClusters := [], lastRamp := none, idleSince := [], sleepDomains := [], sleepPos := none, wakeAt := none
    sleepExit := false, optRegs := [], optShadow := [], coldPending := false, optionsDone := false, factoryInvalid := false, firmwareChecked := false
    linkBoot := false }

/-- The state after reset: a part without power, every register at its after-reset value, its store blank. A cold
start begins with POWER_ON (R51). -/
def State.reset : State :=
  { pending := [], draws := 0
    time := { beatNo := 0, phase := .early, clkARunning := false, seq := 0, recordsSent := 0, windowDone := false }
    power := PowerState.fresh
    sensors := { vin := 0, vinLow := 0, vinHigh := 0, vinIn := 0, temps := List.replicate 15 0
                 hotRuns := List.replicate 15 0, hotActive := false, trips := [], warnActive := false, stopActive := false }
    clock := { hl0Locked := false, firstMoveDone := false }
    regs := [], shadow := [], events := [], commits := [], resets := []
    retention := { blkLog := [], faults := [], pm := [] }
    link := { ports := [HlPort.fresh, HlPort.fresh], boot := none, intake := [], heldJobs := []
              bootedFirmware := none }
    mgc := MgcState.fresh Store.blank
    plinth := PlinthState.fresh, rasp := RaspState.fresh, amt := AmtState.fresh
    clusters := List.replicate 6 Cluster.fresh, fabric := FabricState.fresh, vision := VisionState.fresh
    wire := [] }

end Sys2Proof.Machine
end

