-- ==== Sys2Proof/Machine/Ops.lean ====
section
/-! DEFINITION. The named operations every meaning is made of: registers, memory, power domains, link messages, events,
fault records, audit entries. -/

namespace Sys2Proof.Machine

/-! ### Registers -/

/-- The value of a key, `d` where none is listed. -/
def regGet (d k : Nat) : RegFile → Nat
  | [] => d
  | (a, v) :: r => if a = k then v else if k < a then d else regGet d k r

/-- A register file with a key set; setting the value `d` that an unlisted key has removes the entry. -/
def regSet (d k v : Nat) : RegFile → RegFile
  | [] => if v = d then [] else [(k, v)]
  | (a, b) :: r =>
    if a < k then (a, b) :: regSet d k v r
    else if a = k then (if v = d then r else (k, v) :: r)
    else if v = d then (a, b) :: r else (k, v) :: (a, b) :: r

/-- The canonical form of a register file: keys rising. -/
abbrev RegFile.wf (r : RegFile) : Prop := r.Pairwise fun x y => x.1 < y.1

/-- The value in force of a field's copy. -/
def State.rd (s : State) (p : Page) (f : RField) (i : Nat := 0) (j : Nat := 0) : Nat :=
  regGet f.rst (f.key p i j) s.regs

/-- A field's copy given a value, cut to its width. -/
def State.wr (s : State) (p : Page) (f : RField) (v : Nat) (i : Nat := 0) (j : Nat := 0) : State :=
  { s with regs := regSet f.rst (f.key p i j) (v % 2 ^ f.width) s.regs }

/-- The value a shadow never takes, so that a shadow once written stays listed (R466). -/
def noShadow : Nat := 2 ^ 64

/-- The shadow of a field's copy: what was written to it, else the value in force (R466). -/
def State.rdShadow (s : State) (p : Page) (f : RField) (i : Nat := 0) (j : Nat := 0) : Nat :=
  let v := regGet noShadow (f.key p i j) s.shadow
  if v = noShadow then s.rd p f i j else v

/-- A shadow written (R466). -/
def State.wrShadow (s : State) (p : Page) (f : RField) (v : Nat) (i : Nat := 0) (j : Nat := 0) : State :=
  { s with shadow := regSet noShadow (f.key p i j) (v % 2 ^ f.width) s.shadow }

/-- Whether a key lies in a page. -/
def inPage (p : Page) (k : Nat) : Bool := p.num * 131072 ≤ k ∧ k < (p.num + 1) * 131072

/-- A counter field up by `d`, saturating at its width. -/
def State.count (s : State) (p : Page) (f : RField) (d : Nat := 1) (i : Nat := 0) (j : Nat := 0) : State :=
  s.wr p f (satAdd f.width (s.rd p f i j) d) i j

/-- The shadows of a page reloaded from the values in force (R466). -/
def State.dropShadows (s : State) (p : Page) : State :=
  { s with shadow := s.shadow.filter fun e => !inPage p e.1 }

/-- Every register of a page at its after-reset value (R63, R463). -/
def State.clearPage (s : State) (p : Page) : State :=
  { s with
    regs := s.regs.filter fun e => !inPage p e.1
    shadow := s.shadow.filter fun e => !inPage p e.1
    events := s.events.filter (· ≠ p.num)
    commits := s.commits.filter fun e => e.1 ≠ p.num }

/-- A 64-bit value that stands in two words. -/
def State.rd2 (s : State) (p : Page) (lo hi : RField) : Nat := s.rd p lo + 2 ^ 32 * s.rd p hi

/-- A value written to two words. -/
def State.wr2 (s : State) (p : Page) (lo hi : RField) (v : Nat) : State := (s.wr p lo (v % 2 ^ 32)).wr p hi (v / 2 ^ 32)

/-! ### Memory -/

/-- The byte at an address: 0 where none is listed. -/
def memGet (a : Nat) : Mem → Byte
  | [] => 0
  | (b, v) :: r => if b = a then v else if a < b then 0 else memGet a r

/-- Memory with one byte written; writing 0 removes the entry. -/
def memSet (a : Nat) (v : Byte) : Mem → Mem
  | [] => if v = 0 then [] else [(a, v)]
  | (b, w) :: r =>
    if b < a then (b, w) :: memSet a v r
    else if b = a then (if v = 0 then r else (a, v) :: r)
    else if v = 0 then (b, w) :: r else (a, v) :: (b, w) :: r

/-- `n` bytes from an address. -/
def memRead (m : Mem) (a : Nat) : Nat → List Byte
  | 0 => []
  | n + 1 => memGet a m :: memRead m (a + 1) n

/-- Bytes written from an address upward. -/
def memWrite (m : Mem) (a : Nat) : List Byte → Mem
  | [] => m
  | b :: r => memWrite (memSet a b m) (a + 1) r

/-- A range of memory wiped (R63: written with zeros). -/
def memWipe (m : Mem) (a n : Nat) : Mem := m.filter fun e => e.1 < a || a + n ≤ e.1

/-- The canonical form of memory: addresses rising, no listed 0. -/
abbrev Mem.wf (m : Mem) : Prop := m.Pairwise (fun x y => x.1 < y.1) ∧ ∀ e ∈ m, e.2 ≠ 0

/-- Bytes of device memory. -/
def State.load (s : State) (a n : Nat) : List Byte := memRead s.fabric.mem a n

/-- A little-endian number of device memory. -/
def State.loadNat (s : State) (a n : Nat) : Nat := leNat (s.load a n)

/-- Lines written whole hold no earlier error (R359). -/
def freshLines (l : List Nat) (a n : Nat) : List Nat := l.filter fun q => !(a ≤ 64 * q && 64 * q + 64 ≤ a + n)

/-- Bytes stored to device memory. -/
def State.store (s : State) (a : Nat) (b : List Byte) : State :=
  { s with fabric := { s.fabric with
      mem := memWrite s.fabric.mem a b
      badLines := freshLines s.fabric.badLines a b.length } }

/-- A range of device memory wiped. -/
def State.wipe (s : State) (a n : Nat) : State :=
  { s with fabric := { s.fabric with
      mem := memWipe s.fabric.mem a n
      badLines := freshLines s.fabric.badLines a n } }

/-! ### Power domains, units, roles -/

/-- A domain's condition. -/
def State.domain (s : State) (n : Nat) : Domain := s.power.domains.getD n .off

/-- A domain is ready. -/
def State.domainReady (s : State) (n : Nat) : Bool := s.domain n = .ready

/-- A domain is off. -/
def State.domainOff (s : State) (n : Nat) : Bool := s.domain n = .off

/-- A domain's condition changed. -/
def State.setDomain (s : State) (n : Nat) (d : Domain) : State :=
  { s with power := { s.power with domains := s.power.domains.set n d } }

/-- The page can be reached: AON, or its domain ready and out of reset (R459). -/
def State.pageOn (s : State) (p : Page) : Bool :=
  match p.domain with
  | none => true
  | some d => s.domainReady d && !(d ∈ s.power.heldInReset)

/-- The disabled-unit map (R1, R472). -/
def State.disabled (s : State) (u : Nat) : Bool := (s.rd .dev DEV.DISABLED).testBit u

/-- Retired in the sense of RSP.RETIRED (R429, R430). -/
def State.retired (s : State) (u : Nat) : Bool := (s.rd .rsp RSP.RETIRED).testBit u

/-- Disabled, retired, or waiting for its READMIT pass: not usable by a placement (R249, R430). -/
def State.absent (s : State) (u : Nat) : Bool :=
  s.disabled u || s.retired u || (s.rd .rsp RSP.READMIT_PEND).testBit u

/-- UNIT_MAP: disabled or retired (record bytes 108–111). -/
def State.unitMap (s : State) : Nat := ofBits 24 fun u => s.disabled u || s.retired u

/-- The present life-cycle state (R446). -/
def State.lifeCycle (s : State) : Nat := s.mgc.lifeCycle

/-! ### Free values -/

/-- A free value, and the state that has drawn it (log 3). -/
def State.draw (s : State) : Nat × State := (Config.freeValue s.draws, { s with draws := s.draws + 1 })

/-- The bytes of `n` draws from a given one on. -/
def freeBytes (first : Nat) : Nat → List Byte
  | 0 => []
  | n + 1 => Config.freeByte first :: freeBytes (first + 1) n

/-- `n` free bytes (log 3). -/
def State.drawBytes (s : State) (n : Nat) : List Byte × State :=
  (freeBytes s.draws n, { s with draws := s.draws + n })

/-! ### Host link messages -/

/-- A port's state. -/
def State.port (s : State) (p : Nat) : HlPort := s.link.ports.getD p HlPort.fresh

/-- A port's state changed. -/
def State.setPort (s : State) (p : Nat) (x : HlPort) : State :=
  { s with link := { s.link with ports := s.link.ports.set p x } }

/-- A port is UP (R76). -/
def State.portUp (s : State) (p : Nat) : Bool := s.rd (.hlk p) HLK.LINK_STATE = 4

/-- Some session is open on a port (R96). -/
def State.hasSession (s : State) (p : Nat) : Bool := s.rd (.hlk p) HLK.SESS_OPEN ≠ 0

/-- A session of role `r` is open on a port (R100). -/
def State.sessionOpen (s : State) (p r : Nat) : Bool := r ≠ 0 && (s.rd (.hlk p) HLK.SESS_OPEN).testBit (r - 1)

/-- Something leaves the device. -/
def State.emit (s : State) (o : Out) : State := { s with wire := o :: s.wire }

/-- The bytes of a message (R85). -/
def Msg.bytes (m : Msg) : List Byte :=
  leBytes 1 m.mtype ++ leBytes 1 m.sid ++ leBytes 2 m.tag ++ leBytes 2 m.body.length ++ leBytes 2 m.param
    ++ leBytes 8 m.addr ++ m.body

/-- The virtual channel a message of a type travels on from the device (R85). -/
def msgVc (mtype : Nat) : Nat :=
  if mtype / 16 = 5 then 3
  else if mtype ∈ [0xA1, 0xB0, 0xB1, 0x30, 0x31] then 1 else 0

/-- A message cut into cells of 56 bytes (R78), LSEQ not yet given. -/
def cutCells (vc : Nat) (first : Bool) : Nat → List Byte → List TxCell
  | 0, _ => []
  | n + 1, b =>
    { vc := vc, som := first, eom := n = 0, payload := padTo 56 b, lseq := 0 } :: cutCells vc false n (b.drop 56)

/-- The cells of a message (R85: header and body). -/
def Msg.cells (m : Msg) : List TxCell := cutCells (msgVc m.mtype) true (ceilDiv m.bytes.length 56) m.bytes

/-- The 64 bytes of a cell: its first word, its payload, its CRC (R78). -/
def cellBytes (word : Nat) (payload : List Byte) : List Byte :=
  let b := leBytes 4 word ++ payload
  b ++ leBytes 4 (crc32c b)

/-- The ACK a port sends: the LSEQ of the newest data cell received in order (R78). -/
def HlPort.ack (x : HlPort) : Nat := (x.rxNext + 4095) % 4096

/-- A data cell as bytes (R78). -/
def TxCell.bytes (x : HlPort) (c : TxCell) : List Byte :=
  cellBytes (c.vc + 8 * b2n c.som + 16 * b2n c.eom + 256 * c.lseq + 1048576 * x.ack) c.payload

/-- A control cell: its type and the bytes after it (R78). -/
def controlCell (x : HlPort) (type : Nat) (rest : List Byte) : List Byte :=
  cellBytes (4 + 1048576 * x.ack) (padTo 56 (BitVec.ofNat 8 type :: rest))

/-- The first cell a port may send now: in order of VC, one it holds a credit for (R83, R84). -/
def HlPort.sendable (x : HlPort) : Option TxCell :=
  if 2048 ≤ x.replay.length then none
  else ([0, 1, 3].filterMap fun vc =>
    if nth x.txCredits vc = 0 then none else x.cellQ.find? (·.vc = vc)).head?

/-- The first cell of a VC taken out of the queue. -/
def dropFirst (vc : Nat) : List TxCell → List TxCell
  | [] => []
  | c :: r => if c.vc = vc then r else c :: dropFirst vc r

/-- A message may leave its queue: it waits for no audit entry (R450). -/
def headReady : List Msg → Option (Msg × List Msg)
  | [] => none
  | m :: r => if m.ticket.isNone then some (m, r) else none

/-- Queues of a VC whose cells have all been sent give their next message to the cell queue (R85). -/
def HlPort.refill (x : HlPort) : HlPort :=
  let idle (y : HlPort) (vc : Nat) : Bool := y.cellQ.all fun c => c.vc ≠ vc
  let x := match headReady x.outQ0 with
    | some (m, r) => if idle x 0 then { x with outQ0 := r, cellQ := x.cellQ ++ m.cells } else x
    | none => x
  let x := match headReady x.outQ1 with
    | some (m, r) => if idle x 1 then { x with outQ1 := r, cellQ := x.cellQ ++ m.cells } else x
    | none => x
  if idle x 3 then
    match x.eventQ, x.recordQ with
    | m :: r, _ => { x with eventQ := r, cellQ := x.cellQ ++ m.cells }
    | [], m :: r => { x with recordQ := r, cellQ := x.cellQ ++ m.cells }
    | [], [] => x
  else x

/-- Sends what credits, the replay buffer and the queues allow, at most `n` cells. -/
def pumpN (p : Nat) : Nat → State → State
  | 0, s => s
  | n + 1, s =>
    let x := (s.port p).refill
    match x.sendable with
    | none => s.setPort p x
    | some c =>
      let c := { c with lseq := x.txNext }
      let y : HlPort := { x with
        cellQ := dropFirst c.vc x.cellQ
        txNext := (x.txNext + 1) % 4096
        txCredits := x.txCredits.set c.vc (nth x.txCredits c.vc - 1)
        lastAckProgress := if x.replay = [] then s.time.beatNo else x.lastAckProgress
        replay := x.replay ++ [c]
        lastTx := s.time.beatNo }
      pumpN p n ((s.setPort p y).emit (.cell p (c.bytes x)))

/-- Everything a port can send now, sent; nothing while it is not UP (R76, R80). -/
def State.pump (s : State) (p : Nat) : State := if s.portUp p then pumpN p 2048 s else s

/-- A completion queued, to be sent at once or when its audit entry has been programmed (R86, R450). -/
def State.queueMsg (s : State) (p : Nat) (m : Msg) : State :=
  let x := s.port p
  let x := if msgVc m.mtype = 1 then { x with outQ1 := x.outQ1 ++ [m] } else { x with outQ0 := x.outQ0 ++ [m] }
  (s.setPort p x).pump p

/-- The completion of a request (R85): status, ADDR, body. -/
def State.complete (s : State) (rq : Req) (mtype status : Nat) (addr : Nat := 0) (body : List Byte := [])
    (ticket : Option Nat := none) : State :=
  s.queueMsg rq.port { mtype := mtype, sid := rq.sid, tag := rq.tag.toNat, param := status, addr := addr
                       body := body, ticket := ticket }

/-- An event for a port: queued, or counted as lost when 256 wait (R97). -/
def State.queueEvent (s : State) (p : Nat) (mtype : Nat) (body : List Byte) : State :=
  let x := s.port p
  if 256 ≤ x.eventQ.length then
    (s.count (.hlk p) HLK.CNT_EVT_LOST).setPort p { x with lossPending := true }
  else
    let m : Msg := { mtype := mtype, sid := 0, tag := 0, param := 0, addr := s.time.beatNo, body := body, ticket := none }
    (s.setPort p { x with eventQ := x.eventQ ++ [m] }).pump p

/-- An event for every port that has a session open (R96). -/
def State.broadcast (s : State) (mtype : Nat) (body : List Byte) : State :=
  [0, 1].foldl (fun s p => if s.hasSession p then s.queueEvent p mtype body else s) s

/-- EVT_JOB_DONE (R95, R96): to the submitting port when it is up, else to the other with bit 15 of the status set,
else held. -/
def State.jobDone (s : State) (port cookie status fault : Nat) : State :=
  let body (st : Nat) := leBytes 8 cookie ++ leBytes 2 st ++ zeros 2 ++ leBytes 2 fault ++ zeros 2
  let up (p : Nat) : Bool := s.rd (.hlk p) HLK.LINK_STATE = 4 || s.rd (.hlk p) HLK.LINK_STATE = 5
  if up port then s.queueEvent port 0x53 (body status)
  else if s.portUp (1 - port) then s.queueEvent (1 - port) 0x53 (body (status % 32768 + 32768))
  else { s with link := { s.link with heldJobs := s.link.heldJobs ++ [⟨cookie, status, fault⟩] } }

/-! ### Fault records -/

/-- Bytes 12–15 that name a context, a unit and a node (R470). -/
def faultMid (ctx unit node : Nat) : Nat := ctx % 256 + 256 * (unit % 256) + 65536 * (node % 65536)

/-- Bytes 12–15 when no context, unit or node is named (R470). -/
def noMid : Nat := faultMid 0xFF 0xFF 0xFFFF

/-- The 32 bytes of a fault record (R470). -/
def FaultRec.bytes (f : FaultRec) : List Byte :=
  leBytes 2 f.code ++ leBytes 2 f.blk ++ leBytes 8 f.beat ++ leBytes 4 f.mid ++ leBytes 4 f.d0 ++ leBytes 4 f.d1
    ++ leBytes 4 f.d2 ++ leBytes 4 f.d3

/-- The 16 bytes of a block reset log entry. -/
def BlkLog.bytes (e : BlkLog) : List Byte :=
  leBytes 8 e.beat ++ leBytes 2 e.blk ++ leBytes 1 e.outcome ++ leBytes 1 e.role ++ leBytes 4 e.clocks

/-- A fault record into its retention slot and the device's counts (R470). -/
def State.keepFault (s : State) (f : FaultRec) : State :=
  let n := s.rd .dev DEV.FAULT_NEXT
  let s1 : State := { s with retention := { s.retention with faults := assocSet n f s.retention.faults } }
  (s1.wr .dev DEV.FAULT_NEXT ((n + 1) % 128)).count .dev DEV.FAULT_TOTAL

/-- A fault record into the header of the block it names (R463). -/
def State.headFault (s : State) (p : Page) (code : Nat) : State :=
  (s.wr p HDR.LAST_FAULT code).count p HDR.FAULT_COUNT

/-- A fault record into the safety ports' queue of 64, or counted as dropped (R396). -/
def State.slFault (s : State) (f : FaultRec) : State :=
  if 64 ≤ s.plinth.faultQ.length then s.count .pln PLN.CNT_FAULT_DROP
  else { s with plinth := { s.plinth with faultQ := s.plinth.faultQ ++ [f] } }

/-- Detail words: those the spec states, then free values for those it does not (log 11). -/
def State.details (s : State) (d : List Nat) : List Nat × State :=
  ((List.range 4).map fun i =>
    match d[i]? with
    | some v => v % 2 ^ 32
    | none => Config.freeValue (s.draws + i) % 2 ^ 32,
   if d.length < 4 then { s with draws := s.draws + 4 } else s)

/-- A fault record is written (R470): to its retention slot, into the block's header, as EVT_FAULT, and, for classes
0x6 and 0x7 and records that make a record INVALID or SAFE (`sl`), into the safety ports' queue (R396). -/
def State.faultRec (s : State) (p : Page) (code mid : Nat) (d : List Nat) (sl : Bool) : State :=
  let w := s.details d
  let f : FaultRec := ⟨code, p.blkId, s.time.beatNo, mid, nth w.1 0, nth w.1 1, nth w.1 2, nth w.1 3⟩
  let s1 := ((w.2.keepFault f).headFault p code).broadcast 0x51 f.bytes
  if sl || code / 4096 = 6 || code / 4096 = 7 then s1.slFault f else s1

/-- A fault record that names no context, unit or node. -/
def State.fault (s : State) (p : Page) (code : Nat) (d : List Nat := []) (sl : Bool := false) : State :=
  s.faultRec p code noMid d sl

/-- A fault record that names a unit. -/
def State.unitFault (s : State) (p : Page) (code u : Nat) (d : List Nat := []) (sl : Bool := false) : State :=
  s.faultRec p code (faultMid 0xFF u 0xFFFF) d sl

/-! ### The audit log -/

/-- An entry handed to the MGC; `ticket` names the completion it holds (R450). -/
def State.audit (s : State) (kind actor port result : Nat) (data : List Byte) (ticket : Option Nat := none) : State :=
  let e : AuditReq := { beat := s.time.beatNo, kind := kind, actor := actor, port := port, result := result
                        data := data, ticket := ticket }
  { s with mgc := { s.mgc with toProgram := s.mgc.toProgram ++ [e] } }

/-- An entry the Plinth originates: its queue of 64 in AON, or counted as lost (R450). -/
def State.plinthAudit (s : State) (kind actor port result : Nat) (data : List Byte) : State :=
  if 64 ≤ s.plinth.auditQ.length then
    { s with plinth := { s.plinth with auditLost := s.plinth.auditLost + 1 } }
  else
    let e : AuditReq := { beat := s.time.beatNo, kind := kind, actor := actor, port := port, result := result
                          data := data, ticket := none }
    { s with plinth := { s.plinth with auditQ := s.plinth.auditQ ++ [e] } }

/-- A completion that is sent once its audit entry has been programmed (R450). -/
def State.completeAudited (s : State) (rq : Req) (mtype status : Nat) (kind : Nat) (data : List Byte)
    (addr : Nat := 0) (body : List Byte := []) : State :=
  let t := s.mgc.nextTicket
  let s := { s with mgc := { s.mgc with nextTicket := t + 1 } }
  let s := s.audit kind rq.sid rq.port status data (some t)
  s.complete rq mtype status addr body (some t)

/-- The completions that waited for an audit entry may be sent (R450). -/
def State.releaseTicket (s : State) (t : Nat) : State :=
  let free (m : Msg) : Msg := if m.ticket = some t then { m with ticket := none } else m
  [0, 1].foldl (fun s p =>
    let x := s.port p
    (s.setPort p { x with outQ0 := x.outQ0.map free, outQ1 := x.outQ1.map free
                          jobs := x.jobs.map fun j => { j with waits := j.waits.filter (· ≠ t) } }).pump p) s

end Sys2Proof.Machine
end

