-- ==== Sys2Proof/Machine/Flags.lean ====
section
/-! DEFINITION. The event flags of the blocks (R465): a bit set, and the EVT_BLOCK that tells the hosts. -/

namespace Sys2Proof.Machine

/-- An event bit of a page becomes set; a rise the mask lets through makes the page's next EVT_BLOCK due (R465). -/
def State.raise (s : State) (p : Page) (bit : Nat) : State :=
  let st := s.rd p HDR.BLK_EVT_STAT
  if st.testBit bit then s
  else
    let s1 := s.wr p HDR.BLK_EVT_STAT (st + 2 ^ bit)
    if (s.rd p HDR.BLK_EVT_MASK).testBit bit then { s1 with events := setInsert p.num s1.events } else s1

/-- One page's EVT_BLOCK: its bits that the mask lets through, as latched here; none if they are all clear. -/
def State.blockEvent (s : State) (p : Page) : State :=
  let v := s.rd p HDR.BLK_EVT_STAT &&& s.rd p HDR.BLK_EVT_MASK
  if v = 0 then s else s.broadcast 0x50 (leBytes 2 p.blkId ++ zeros 2 ++ leBytes 4 v)

/-- The EVT_BLOCKs due at a boundary. -/
def State.blockEvents (s : State) : State :=
  s.events.foldl (fun s n => match pageAt n with
    | some p => s.blockEvent p
    | none => s) { s with events := [] }

end Sys2Proof.Machine
end

