-- ==== Sys2Proof/Machine/Access.lean ====
section
/-! DEFINITION. The device address space (R331, R352, R353, R457): what lies at an address, which locked set holds it, and
what a bulk access of a host is answered (R90). -/

namespace Sys2Proof.Machine

/-- What lies at a device address. -/
inductive Place where
  | gddr (group : Nat)
  | cmem (c off : Nat)
  | spm (u off : Nat)
  | csr
  | host
  | hole
  | nothing
deriving DecidableEq, Repr

/-- The bytes of a GDDR6 group that exist: 7.5 GiB with inline ECC, 8 GiB without (R353). -/
def groupBytes (ecc : Bool) : Nat := if ecc then 0x1E0000000 else 0x200000000

/-- What lies at a device address (R457, R331, R353). -/
def State.place (s : State) (a : Nat) : Place :=
  if a < 0x400000000 then
    let g := a / 2 ^ 33
    if a % 2 ^ 33 < groupBytes (s.fabric.eccOn.getD g true) then .gddr g else .hole
  else if 0x10000000000 ≤ a ∧ a < 0x10006000000 then
    let c := (a - 0x10000000000) / 0x1000000
    let o := (a - 0x10000000000) % 0x1000000
    if o < 0x400000 then .cmem c o
    else if o < 0xA00000 then .spm (4 * c + (o - 0x400000) / 0x200000) ((o - 0x400000) % 0x200000)
    else .nothing
  else if 0xF0000000000 ≤ a ∧ a < 0xF0001000000 then .csr
  else if 0x800000000000 ≤ a ∧ a < 0x1000000000000 then .host
  else .nothing

/-- The device address of a cluster's shared memory (R331). -/
def cmemBase (c : Nat) : Nat := 0x10000000000 + c * 0x1000000

/-- The device address of a core's scratchpad (R331). -/
def spmBase (u : Nat) : Nat := cmemBase (u / 4) + 0x400000 + (u % 4) * 0x200000

/-- The GDDR6 channel of an address (R352). -/
def gddrChannel (a : Nat) : Nat := 8 * bits a 33 33 + (bits a 8 6).xor (bits a 16 14)

/-- The GDDR6 line index within its channel (R352). -/
def gddrLine (a : Nat) : Nat := bits a 32 9

/-- The device address of line `q` of a channel (R352). -/
def gddrLineAddr (ch q : Nat) : Nat :=
  (ch / 8) * 2 ^ 33 + q * 512 + ((ch % 8).xor (bits q 7 5)) * 64

/-! ### What a locked set holds -/

/-- The placement of a package's entry. -/
def Package.entry? (p : Package) (e : Nat) : Option Placement := p.sec.placements[e]?

/-- The running set and the set that drains, unless released. -/
def State.liveSets (s : State) : List RunSet := (s.amt.running.toList ++ s.amt.draining).filter (!·.released)

/-- The packages whose state the device holds: the running set, the set that drains, the Maquette, each with its
entry. -/
def State.heldSets (s : State) : List (Package × Nat) :=
  s.liveSets.map (fun r => (r.pkg, r.entry))
    ++ (match s.amt.maquette with | some m => [m] | none => [])

/-- The sets whose settings are in force: those that run or drain, and one that is being started (R250). -/
def State.lockedSets (s : State) : List (Package × Nat) :=
  s.liveSets.map (fun r => (r.pkg, r.entry))
    ++ (match s.amt.op, s.amt.maquette with
        | some (.start _), some m => [m]
        | _, _ => [])

/-- The placements in use: with the entry before a fallback until it is released, and the one a fallback is about to enter
(R255). -/
def State.heldPlacements (s : State) : List Placement :=
  let old : List Placement :=
    s.liveSets.flatMap fun r => (match r.oldEntry with | some (e, _) => (r.pkg.entry? e).toList | none => [])
  let next : List Placement := match s.amt.retiring, s.amt.running with
    | some m, some r => (m.entry.bind r.pkg.entry?).toList
    | _, _ => []
  s.heldSets.filterMap (fun x => x.1.entry? x.2) ++ old ++ next

/-- A placement names a unit. -/
def Placement.names (p : Placement) (u : Nat) : Bool := u ∈ p.units

/-- A unit belongs to a locked set or the Maquette (R90: no open-pool unit). -/
def State.lockedUnit (s : State) (u : Nat) : Bool := s.heldPlacements.any (·.names u)

/-- A unit belongs to the running set, or to the set that drains. -/
def State.runningUnit (s : State) (u : Nat) : Bool :=
  s.liveSets.any fun r => (match r.pkg.entry? r.entry with | some p => p.names u | none => false)

/-- A segment of 64 KiB of a cluster's shared memory belongs to a locked set. -/
def State.lockedCmem (s : State) (c seg : Nat) : Bool := s.heldPlacements.any fun p => (c, seg) ∈ p.cmemSegs

/-- A GDDR6 range meets a pinned window of a locked set. -/
def State.lockedGddr (s : State) (a n : Nat) : Bool :=
  s.heldSets.any fun x => x.1.sec.windows.any fun w => w.addr < a + n ∧ a < w.addr + w.size

/-- A locked set runs (R250): one is running or still drains. -/
def State.lockedRuns (s : State) : Bool := s.liveSets ≠ []

/-! ### Bulk access by a host -/

/-- Segments of the cluster memory that form its cache (R332). -/
def State.cacheSegs (s : State) (c : Nat) : Nat := 8 * s.rd (.cmem c) CMEM.CACHE_SEGS

/-- The status of a bulk access (R90, R333, R353): 0 when it is served. -/
def State.memStatus (s : State) (a n : Nat) : Nat :=
  if a % 4 ≠ 0 ∨ n = 0 ∨ n % 4 ≠ 0 ∨ 4096 < n ∨ a / 4096 ≠ (a + n - 1) / 4096 ∨ 2 ^ 48 ≤ a then 0x06
  else match s.place a with
    | .csr | .host | .nothing => 0x06
    | .hole => 0x05
    | .gddr g => if !s.domainReady (35 + g) then 0x08 else if s.lockedGddr a n then 0x07 else 0
    | .cmem c o =>
      if !s.domainReady (24 + c) then 0x08
      else if 64 - s.cacheSegs c ≤ o / 65536 then 0x05
      else if s.lockedCmem c (o / 65536) then 0x07 else 0
    | .spm u _ =>
      if s.disabled u || s.retired u || !s.domainReady u then 0x08 else if s.lockedUnit u then 0x07 else 0

/-- A range of GDDR6 that a device command may read or write for a host: open memory of one powered group (R90). -/
def State.openGddr (s : State) (a n : Nat) : Bool :=
  match s.place a, s.place (a + n - 1) with
  | .gddr g, .gddr h => g = h && s.domainReady (35 + g) && !s.lockedGddr a n
  | _, _ => false

/-- The 64-byte lines of a range that read as uncorrectable (R359), as a bitmap from the range's first line (R91). -/
def State.poisonMap (s : State) (a n : Nat) : Nat :=
  ofBits 64 fun i => i ≤ (a + n - 1) / 64 - a / 64 ∧ (a / 64 + i) ∈ s.fabric.badLines

end Sys2Proof.Machine
end

