-- ==== Sys2Proof/Machine/Rings.lean ====
section
/-! DEFINITION. Rings and their pointers (R340–R344): the four operations, attachment, undo and reset. -/

namespace Sys2Proof.Machine

/-- The page of a ring. -/
def RingRef.page (r : RingRef) : Page := if r.inCmem then .cmem r.owner else .spm r.owner

/-- A field of a ring: its SPM row or its CMEM row. -/
def State.ringRd (s : State) (r : RingRef) (f g : RField) : Nat := s.rd r.page (if r.inCmem then g else f) r.ring

/-- A field of a ring written. -/
def State.ringWr (s : State) (r : RingRef) (f g : RField) (v : Nat) : State :=
  s.wr r.page (if r.inCmem then g else f) v r.ring

/-- The fixed chain rings of a scratchpad (R282, R349). -/
def RingRef.fixed (r : RingRef) : Bool := !r.inCmem && r.ring < 3

/-- N of a ring. -/
def State.ringN (s : State) (r : RingRef) : Nat := if r.fixed then 64 else s.ringRd r SPR.SLOTS CMR.SLOTS

/-- Bytes of a slot. -/
def State.ringSlot (s : State) (r : RingRef) : Nat :=
  if r.fixed then 1024 else 64 * 2 ^ s.ringRd r SPR.SLOT_LOG2 CMR.SLOT_LOG2

/-- The ring is enabled. -/
def State.ringOn (s : State) (r : RingRef) : Bool := r.fixed || s.ringRd r SPR.EN CMR.EN = 1

/-- A ring belongs to a held set (R349). -/
def State.ringLocked (s : State) (r : RingRef) : Bool :=
  s.heldPlacements.any fun p => (r.inCmem, r.owner, r.ring) ∈ p.rings

/-- H, T and R (R340). -/
def State.ringH (s : State) (r : RingRef) : Nat := s.ringRd r SPR.H CMR.H

/-- The committed tail. -/
def State.ringT (s : State) (r : RingRef) : Nat := s.ringRd r SPR.T CMR.T

/-- The run-ahead pointer. -/
def State.ringR (s : State) (r : RingRef) : Nat := s.ringRd r SPR.R CMR.R

/-- The distance from one pointer to another, modulo 2N. -/
def State.ringGap (s : State) (r : RingRef) (a b : Nat) : Nat := (b + 2 * s.ringN r - a) % (2 * s.ringN r)

/-- A pointer moved on by `n`. -/
def State.ringPlus (s : State) (r : RingRef) (a n : Nat) : Nat := (a + n) % (2 * s.ringN r)

/-- The device address of the slot of a pointer (R340, R331). -/
def State.ringAddr (s : State) (r : RingRef) (p : Nat) : Nat :=
  let base := if r.fixed then 0x1D0000 + r.ring * 0x10000 else 64 * s.ringRd r SPR.BASE CMR.BASE
  (if r.inCmem then cmemBase r.owner else spmBase r.owner) + base + (p % s.ringN r) * s.ringSlot r

/-- H set to the least drain pointer of those attached, or to T with none (R340). -/
def State.ringHead (s : State) (r : RingRef) : State :=
  let t := s.ringT r
  let behind := (s.fabric.consumers.filter (·.ring = r)).map fun c => s.ringGap r c.drain t
  s.ringWr r SPR.H CMR.H (s.ringPlus r t (2 * s.ringN r - behind.foldl max 0))

/-- FILL (R341). -/
def State.ringFill (s : State) (r : RingRef) : State := s.ringWr r SPR.R CMR.R (s.ringPlus r (s.ringR r) 1)

/-- COMMIT of `n` filled slots (R341); with no consumer attached H follows T. -/
def State.ringCommit (s : State) (r : RingRef) (n : Nat) : State :=
  let k := min n (s.ringGap r (s.ringT r) (s.ringR r))
  (s.ringWr r SPR.T CMR.T (s.ringPlus r (s.ringT r) k)).ringHead r

/-- UNDO (R341). -/
def State.ringUndo (s : State) (r : RingRef) : State := s.ringWr r SPR.R CMR.R (s.ringT r)

/-- The drain pointer of a context's consumer, if it is attached. -/
def State.ringDrainOf (s : State) (r : RingRef) (ctx : Option Nat) (number : Nat) : Option Nat :=
  (s.fabric.consumers.find? fun c => c.ring = r ∧ c.ctx = ctx ∧ c.number = number).map (·.drain)

/-- DRAIN by a consumer (R341). -/
def State.ringDrain (s : State) (r : RingRef) (ctx : Option Nat) (number : Nat) : State :=
  let step (c : RingConsumer) : RingConsumer :=
    if c.ring = r ∧ c.ctx = ctx ∧ c.number = number ∧ c.drain ≠ s.ringT r then { c with drain := s.ringPlus r c.drain 1 } else c
  ({ s with fabric := { s.fabric with consumers := s.fabric.consumers.map step } }).ringHead r

/-- DRAIN of `n` slots by a consumer. -/
def State.ringTake (s : State) (r : RingRef) (who : Option Nat × Nat) (n : Nat) : State :=
  (List.range n).foldl (fun s _ => s.ringDrain r who.1 who.2) s

/-- A consumer attached, from the present head (R340; log 18). -/
def State.ringAttach (s : State) (r : RingRef) (ctx : Option Nat) (number : Nat) : State :=
  if (s.ringDrainOf r ctx number).isSome then s
  else
    let c : RingConsumer := { ring := r, number := number, drain := s.ringH r, ctx := ctx }
    { s with fabric := { s.fabric with consumers := s.fabric.consumers ++ [c] } }

/-- The consumers of a context detached from every ring (R344). -/
def State.ringDetach (s : State) (ctx : Nat) : State :=
  let rs := (s.fabric.consumers.filter (·.ctx = some ctx)).map (·.ring)
  let s1 := { s with fabric := { s.fabric with consumers := s.fabric.consumers.filter (·.ctx ≠ some ctx) } }
  rs.foldl (fun t r => t.ringHead r) s1

/-- A ring reset to empty: H, T and R all 0, its poison mark gone (R344, R373). -/
def State.ringReset (s : State) (r : RingRef) : State :=
  let zero (c : RingConsumer) : RingConsumer := if c.ring = r then { c with drain := 0 } else c
  let s1 := { s with fabric := { s.fabric with
    consumers := s.fabric.consumers.map zero
    poisonedRings := setErase r s.fabric.poisonedRings } }
  ((s1.ringWr r SPR.H CMR.H 0).ringWr r SPR.T CMR.T 0).ringWr r SPR.R CMR.R 0

/-- Every ring of a cluster: its memory's and its scratchpads'. -/
def clusterRings (c : Nat) : List RingRef :=
  (List.range 64).map (RingRef.mk true c ·)
    ++ (List.range 3).flatMap fun k => (List.range 16).map (RingRef.mk false (4 * c + k) ·)

/-- The rings a context owns. -/
def State.ringsOwned (s : State) (cluster ctx : Nat) : List RingRef :=
  (clusterRings cluster).filter fun r => s.ringRd r SPR.OWNER CMR.OWNER = ctx

/-- A read at or beyond T, and a write into a full ring (R342). -/
def State.ringEmptyFor (s : State) (r : RingRef) (ctx : Option Nat) (number : Nat) : Bool :=
  match s.ringDrainOf r ctx number with
  | some d => d = s.ringT r
  | none => s.ringH r = s.ringT r

/-- R = H + N: no slot is free. -/
def State.ringFull (s : State) (r : RingRef) : Bool := s.ringN r ≤ s.ringGap r (s.ringH r) (s.ringR r)

/-- FILL and COMMIT of `n` slots, as many as are free (R341, R342). -/
def State.ringPut (s : State) (r : RingRef) (n : Nat) : State :=
  (List.range n).foldl (fun s _ => if s.ringFull r then s else (s.ringFill r).ringCommit r 1) s

/-- A slot lies at or beyond T (R342). -/
def State.slotAhead (s : State) (r : RingRef) (q : Nat) : Bool :=
  s.ringGap r (s.ringH r) (s.ringT r) ≤ (q + s.ringN r - s.ringH r % s.ringN r) % s.ringN r

/-- Rings that no held set holds any more: reset, and left by the locked nodes and channels that drained them (R344). -/
def State.dropRings (s : State) (l : List RingRef) : State :=
  let gone := l.filter fun r => !s.ringLocked r
  let s1 := { s with fabric := { s.fabric with
    consumers := s.fabric.consumers.filter fun c => !(c.ring ∈ gone && c.ctx.isNone) } }
  gone.foldl (fun s r => s.ringReset r) s1

/-- Consumers of a set's nodes are numbered from here on (log 92). -/
def setConsumer (key : Nat) : Nat := 1024 + 4096 * key

/-- The nodes of a set leave the rings they drained (R344). -/
def State.leaveSetRings (s : State) (key : Nat) : State :=
  let mine (c : RingConsumer) : Bool := c.ctx.isNone && setConsumer key ≤ c.number && c.number < setConsumer (key + 1)
  let rs := (s.fabric.consumers.filter mine).map (·.ring)
  let s1 := { s with fabric := { s.fabric with consumers := s.fabric.consumers.filter fun c => !mine c } }
  rs.foldl (fun t r => t.ringHead r) s1

end Sys2Proof.Machine
end

