-- ==== Sys2Proof/Machine/Tasks.lean ====
section
/-! DEFINITION. Cores, clusters, writer masks, post-mortem capture, and how an open task ends (R247, R344–R348, R376). -/

namespace Sys2Proof.Machine

/-! ### Cores and clusters -/

/-- A core's running nodes. -/
def State.core (s : State) (u : Nat) : CoreState := s.fabric.cores.getD u { unit := u, nodes := [] }

/-- A core's running nodes changed. -/
def State.setCore (s : State) (u : Nat) (l : List CoreNode) : State :=
  { s with fabric := { s.fabric with cores := s.fabric.cores.set u { unit := u, nodes := l } } }

/-- The node in a running place. -/
def State.slotNode (s : State) (u slot : Nat) : Option CoreNode := (s.core u).nodes.find? (·.slot = slot)

/-- The node of a running place replaced. -/
def State.setSlot (s : State) (u : Nat) (n : CoreNode) : State :=
  s.setCore u ((s.core u).nodes.map fun x => if x.slot = n.slot then n else x)

/-- A running place freed. -/
def State.freeSlot (s : State) (u slot : Nat) : State := s.setCore u ((s.core u).nodes.filter (·.slot ≠ slot))

/-- A cluster controller. -/
def State.clu (s : State) (c : Nat) : Cluster := s.clusters.getD c Cluster.fresh

/-- A cluster controller changed. -/
def State.setClu (s : State) (c : Nat) (x : Cluster) : State := { s with clusters := s.clusters.set c x }

/-- A dependence counter (R244). -/
def Cluster.counter (x : Cluster) (n : Nat) : Nat := lookupD 0 n x.counters

/-- The running task of a context. -/
def State.task? (s : State) (ctx : Nat) : Option Task := s.amt.tasks.find? (·.ctx = ctx)

/-- A task changed. -/
def State.setTask (s : State) (t : Task) : State :=
  { s with amt := { s.amt with tasks := s.amt.tasks.map fun x => if x.ctx = t.ctx then t else x } }

/-- A stream channel. -/
def State.chan (s : State) (u n : Nat) : Channel :=
  (s.fabric.channels.find? fun c => c.unit = u ∧ c.number = n).getD (Channel.fresh u n)

/-- A stream channel changed. -/
def State.setChan (s : State) (x : Channel) : State :=
  { s with fabric := { s.fabric with channels := s.fabric.channels.map fun c =>
      if c.unit = x.unit ∧ c.number = x.number then x else c } }

/-! ### Writer masks (R345) -/

/-- The writer mask of a segment. -/
def State.wmask (s : State) (inCmem : Bool) (owner seg : Nat) : Nat :=
  if inCmem then s.rd (.cmem owner) (if seg % 2 = 0 then CMEM.WMASK_EVEN else CMEM.WMASK_ODD) 0 (seg / 2)
  else s.rd (.spm owner) (if seg % 2 = 0 then SPM.WMASK_EVEN else SPM.WMASK_ODD) 0 (seg / 2)

/-- The writer mask of a segment written. -/
def State.setWmask (s : State) (inCmem : Bool) (owner seg v : Nat) : State :=
  if inCmem then s.wr (.cmem owner) (if seg % 2 = 0 then CMEM.WMASK_EVEN else CMEM.WMASK_ODD) v 0 (seg / 2)
  else s.wr (.spm owner) (if seg % 2 = 0 then SPM.WMASK_EVEN else SPM.WMASK_ODD) v 0 (seg / 2)

/-- The segments of a cluster: in its memory and in its scratchpads. -/
def clusterSegs (c : Nat) : List WipeSeg :=
  (List.range 64).map (WipeSeg.mk true c ·)
    ++ (List.range 3).flatMap fun k => (List.range 32).map (WipeSeg.mk false (4 * c + k) ·)

/-- A segment's mask has a context's bit. -/
def State.wroteSeg (s : State) (ctx : Nat) (g : WipeSeg) : Bool := (s.wmask g.inCmem g.owner g.seg).testBit ctx

/-- The segment that holds a device address, if it lies in SRAM. -/
def State.segOf (s : State) (a : Nat) : Option WipeSeg :=
  match s.place a with
  | .cmem c o => some ⟨true, c, o / 65536⟩
  | .spm u o => some ⟨false, u, o / 65536⟩
  | _ => none

/-- A write by an open task marks its segment (R345). -/
def State.markWrite (s : State) (ctx a : Nat) : State :=
  match s.segOf a with
  | some g =>
    let m := s.wmask g.inCmem g.owner g.seg
    if m.testBit ctx then s else s.setWmask g.inCmem g.owner g.seg (m + 2 ^ ctx)
  | none => s

/-- The device address of a segment. -/
def WipeSeg.addr (g : WipeSeg) : Nat := (if g.inCmem then cmemBase g.owner else spmBase g.owner) + g.seg * 65536

/-! ### Post-mortem capture (R347, R348) -/

/-- The header of the post-mortem area. -/
def State.pmHeader (s : State) (status : Nat) (c : Capture) : List Byte :=
  leBytes 2 0x4D50 ++ leBytes 1 status ++ leBytes 1 c.cause ++ leBytes 8 c.beat ++ leBytes 8 s.time.beatNo
    ++ leBytes 1 c.unit ++ leBytes 1 c.ctx ++ leBytes 2 c.node ++ leBytes 2 c.code ++ zeros 2
    ++ (List.range 4).flatMap (fun i => leBytes 2 (s.rd .pmc PMC.WIN_OFS 0 i) ++ leBytes 2 (s.rd .pmc PMC.WIN_LEN 0 i))
    ++ zeros 20

/-- A cause of capture (R347): captured when it is enabled and the area is free, else counted. `dead`: the power is gone, so the
header alone is written. -/
def State.pmCause (s : State) (cause unit ctx node code : Nat) (dead : Bool := false) : State :=
  let c : Capture := ⟨cause, s.time.beatNo, unit, ctx, node, code⟩
  if !(s.rd .pmc PMC.PM_EN).testBit (cause - 1) then s
  else if s.rd .pmc PMC.PM_FULL = 1 ∨ s.fabric.capture.isSome then s.count .pmc PMC.PM_MISSED
  else if dead then
    ({ s with retention := { s.retention with pm := s.pmHeader 2 c } }).wr .pmc PMC.PM_FULL 1
  else { s with fabric := { s.fabric with capture := some c } }

/-- A core's capture cut short as its domain goes off: the header alone (log 42). -/
def State.cutCapture (s : State) (u : Nat) : State :=
  match s.fabric.capture with
  | some c =>
    if c.unit = u then
      ({ s with
        retention := { s.retention with pm := s.pmHeader 2 c }
        fabric := { s.fabric with capture := none } } : State).wr .pmc PMC.PM_FULL 1
    else s
  | none => s

/-- Cores that a move of the running set wipes are not captured (R347). -/
def State.dropCapture (s : State) (cores : List Nat) : State :=
  { s with fabric := { s.fabric with capture := s.fabric.capture.filter fun c => !(c.unit ∈ cores) } }

/-- PM_CAPTURE_DONE (R347, R348): the windows of the core's scratchpad stand in the area. -/
def execPmCaptureDone (s : State) : Result :=
  .next (match s.fabric.capture with
    | none => s
    | some c =>
      let win (i : Nat) : List Byte :=
        s.load (spmBase c.unit + 64 * s.rd .pmc PMC.WIN_OFS 0 i) (64 * s.rd .pmc PMC.WIN_LEN 0 i)
      let s1 : State := { s with
        retention := { s.retention with pm := s.pmHeader 1 c ++ (List.range 4).flatMap win }
        fabric := { s.fabric with capture := none } }
      s1.wr .pmc PMC.PM_FULL 1)

/-! ### The digest log (R390) -/

/-- A log entry. -/
structure LogRun where
  j : Nat
  node : Nat
  digest : Digest
  gset : Nat
  ctx : Nat
  flags : Nat
  cookie : Nat

/-- The 64 bytes of a log entry. -/
def LogRun.bytes (r : LogRun) (beat : Nat) : List Byte :=
  leBytes 8 beat ++ leBytes 6 r.j ++ leBytes 2 r.node ++ leBytes 8 r.digest.d1 ++ leBytes 8 r.digest.d2 ++ leBytes 2 r.gset
    ++ leBytes 1 r.ctx ++ leBytes 1 r.flags ++ leBytes 8 r.cookie ++ zeros 20

/-- A logged digest enters the buffer, or is dropped and counted when it is full. -/
def State.logDigest (s : State) (r : LogRun) : State :=
  if 256 ≤ s.fabric.logBuffer.length then (s.count .dig DIG.CNT_LOG_DROP).raise .dig 0
  else { s with fabric := { s.fabric with logBuffer := s.fabric.logBuffer ++ [r.bytes s.time.beatNo] } }

/-- The log ring: its address and length (R390). -/
def State.logRing (s : State) : Nat × Nat :=
  (65536 * s.rd .dig DIG.LOG_BASE_LO + 2 ^ 32 * s.rd .dig DIG.LOG_BASE_HI, 2 ^ s.rd .dig DIG.LOG_SIZE_LOG2)

/-- DIG_LOG_WRITE (R390): the oldest buffered entry goes into the ring, over the oldest there when it is full. -/
def execDigLogWrite (s : State) : Result :=
  let r := s.logRing
  .next (match s.fabric.logBuffer with
    | [] => s
    | b :: rest =>
      if s.rd .dig DIG.LOG_EN = 0 ∨ !s.domainReady (35 + r.1 / 2 ^ 33) then s
      else
        let n := s.rd .dig DIG.LOG_WRITTEN
        let s1 : State := { s with fabric := { s.fabric with logBuffer := rest, logPos := (s.fabric.logPos + 64) % r.2 } }
        (s1.store (r.1 + s.fabric.logPos % r.2) b).wr .dig DIG.LOG_WRITTEN (n + 1))

/-! ### Ends of open tasks (R247) -/

/-- A capture of a core holds back the wipe of its segments (R347). -/
def State.wipeHeld (s : State) (g : WipeSeg) : Bool :=
  match s.fabric.capture with
  | some c => !g.inCmem && g.owner = c.unit
  | none => false

/-- SEGMENT_WIPE_DONE (R345). -/
def execSegmentWipeDone (arr : SramArray) (seg : Nat) (s : State) : Result :=
  let g : WipeSeg := match arr with
    | .scratchpad u => ⟨false, u, seg⟩
    | .clusterMem c => ⟨true, c, seg⟩
  .next (if g ∈ s.fabric.wiping ∧ !s.wipeHeld g then
    ({ s with fabric := { s.fabric with wiping := setErase g s.fabric.wiping } }).wipe g.addr 65536
  else s)

/-- The nodes, ready entries, counters and channels of a context released. -/
def State.releaseTask (s : State) (t : Task) : State :=
  let x := s.clu t.cluster
  let mine := t.held
  let s1 := s.setClu t.cluster { x with
    ready := x.ready.filter (·.ctx ≠ t.ctx)
    pendingNodes := x.pendingNodes.filter (·.ctx ≠ t.ctx)
    counters := x.counters.filter fun e => !(e.1 ∈ mine)
    openCounters := x.openCounters.filter fun n => !(n ∈ mine) }
  let s2 := (List.range 4).foldl (fun s k =>
    let u := 4 * t.cluster + k
    s.setCore u ((s.core u).nodes.filter fun n => n.locked || n.ctx ≠ t.ctx)) s1
  let clear (c : Channel) : Channel := if c.ctx = some t.ctx then Channel.fresh c.unit c.number else c
  let stop (r : StreamRun) : StreamRun := if r.task = some t.ctx then { r with active := false, task := none } else r
  let s2 := (s2.wr .mmu MMU.ROOT_LO 0 0 t.ctx).wr .mmu MMU.ROOT_HI 0 0 t.ctx
  { s2 with
    fabric := { s2.fabric with
      channels := s2.fabric.channels.map clear
      tlb := s2.fabric.tlb.filter (·.ctx ≠ t.ctx)
      combine := s2.fabric.combine.filter (·.ctx ≠ t.ctx) }
    link := { s2.link with ports := s2.link.ports.map fun p => { p with hostReqs := p.hostReqs.filter (·.ctx ≠ t.ctx) } }
    vision := { s2.vision with streams := s2.vision.streams.map stop }
    amt := { s2.amt with
      tasks := s2.amt.tasks.filter (·.ctx ≠ t.ctx)
      openRuns := s2.amt.openRuns.filter (·.1 ≠ t.ctx) } }

/-- The rings a task leaves (R344): its consumers detached, those it owns reset. -/
def State.leaveRings (s : State) (t : Task) : State :=
  (s.ringsOwned t.cluster t.ctx).foldl (fun s r => (s.ringReset r).ringWr r SPR.OWNER CMR.OWNER 0x1F) (s.ringDetach t.ctx)

/-- The OUT pages of a task (R376): released as they stand, or wiped first. -/
def State.releaseOut (s : State) (ctx : Nat) (keep : Bool) : State :=
  let mine := s.fabric.outPages.filter (·.ctx = ctx)
  let s1 := { s with fabric := { s.fabric with outPages := s.fabric.outPages.filter (·.ctx ≠ ctx) } }
  if keep then s1 else mine.foldl (fun s p => s.wipe (p.page * 65536) 65536) s1

/-- The completion record and EVT_JOB_DONE of a task (R247; log 19: the count as four bytes). -/
def State.reportTask (s : State) (t : Task) (status code : Nat) : State :=
  let s1 := if t.completionAddr = 0 then s else s.store t.completionAddr (leBytes 4 t.completed.length)
  if t.job.notify then s1.jobDone t.job.port t.job.cookie status code else s1

/-- A task completes (R247): status 0x0000, its outputs committed. -/
def State.completeTask (s : State) (t : Task) : State :=
  let keepBit (s : State) (g : WipeSeg) : State :=
    let m := s.wmask g.inCmem g.owner g.seg
    if m.testBit t.ctx then s.setWmask g.inCmem g.owner g.seg (m - 2 ^ t.ctx) else s
  let s1 := (clusterSegs t.cluster).foldl keepBit s
  let s2 := ((s1.leaveRings t).releaseTask t).releaseOut t.ctx true
  (s2.reportTask t 0 0).count .amt AMT.CNT_TASK_DONE

/-- The ring of a stream channel (R368). -/
def State.chanRing (s : State) (u n : Nat) : RingRef :=
  let cmem : Bool := s.rd (.str u) STR.CMEM n = 1
  ⟨cmem, if cmem then u / 4 else u, s.rd (.str u) STR.RING n⟩

/-- A channel fills its ring. -/
def State.chanIn (s : State) (u n : Nat) : Bool := s.rd (.str u) STR.DIR n = 0

/-- The rings that the channels of a task fill, undone (R344, R371). -/
def State.undoStreams (s : State) (ctx : Nat) : State :=
  (s.fabric.channels.filter fun c => c.ctx = some ctx && s.chanIn c.unit c.number).foldl
    (fun s c => s.ringUndo (s.chanRing c.unit c.number)) s

/-- The tasks of a cluster, other than one, that have written a segment being wiped. -/
def State.alsoWrote (s : State) (t : Task) (gs : List WipeSeg) : List Nat :=
  ((s.amt.tasks.filter fun x => x.ctx ≠ t.ctx ∧ x.cluster = t.cluster).map (·.ctx)).filter fun c =>
    gs.any fun g => s.wroteSeg c g

/-- A task ends with outputs lost: 0x0010 for an abort, 0x0011 for a cancel (R247, R344, R345, R376). Answers the tasks
that its wiped segments end (fault record 0x3043). -/
def State.dropTask (s : State) (t : Task) (status code : Nat) : State × List Nat :=
  let gs := (clusterSegs t.cluster).filter (s.wroteSeg t.ctx)
  let others := s.alsoWrote t gs
  let s1 := gs.foldl (fun s g => s.setWmask g.inCmem g.owner g.seg 0) s
  let s2 := { s1 with fabric := { s1.fabric with wiping := setUnion s1.fabric.wiping gs } }
  let s3 := (((s2.undoStreams t.ctx).leaveRings t).releaseTask t).releaseOut t.ctx false
  (((s3.reportTask t status code).count .amt AMT.CNT_TASK_ABORT).raise .amt 6, others)

/-- Tasks dropped one after another, each with those its wipe ends, at most `n`. -/
def dropTasks : Nat → List (Nat × Nat × Nat) → State → State
  | 0, _, s => s
  | _, [], s => s
  | n + 1, (ctx, status, code) :: r, s =>
    match s.task? ctx with
    | none => dropTasks n r s
    | some t =>
      let d := s.dropTask t status code
      let s1 := d.2.foldl (fun s c => s.faultRec .amt 0x3043 (faultMid c 0xFF 0xFFFF) [] false) d.1
      dropTasks n (r ++ d.2.map fun c => (c, 0x0010, 0x3043)) s1

/-- A task aborts with a first fault code (R247); the core of the node at fault is captured (R347). -/
def State.abortTask (s : State) (ctx code : Nat) (unit : Option Nat := none) (node : Nat := 0xFFFF) : State :=
  let s1 := match s.task? ctx, unit with
    | some _, some u => s.pmCause 1 u ctx node code
    | _, _ => s
  dropTasks 32 [(ctx, 0x0010, code)] s1

/-- A fault of an open node: its record, and its task aborts. -/
def State.taskFault (s : State) (p : Page) (code ctx unit node : Nat) (d : List Nat) : State :=
  (s.faultRec p code (faultMid ctx unit node) d false).abortTask ctx code (some unit) node

/-- What a write of CANCEL_CTX answers (R247): refused for a context without an open task. -/
def cancelCheck (s : State) (ctx : Nat) : Nat × State := if (s.task? ctx).isSome then (0, s) else (0x0B, s)

/-- A write of CANCEL_CTX: the task ends with status 0x0011. -/
def cancelAct (s : State) (ctx : Nat) : State := dropTasks 32 [(ctx, 0x0011, 0)] s

/-- What PM_RELEASE does (R347): the area wiped, PM_FULL and PM_MISSED cleared. -/
def pmReleaseAct (s : State) : State :=
  (({ s with retention := { s.retention with pm := [] } }).wr .pmc PMC.PM_FULL 0).wr .pmc PMC.PM_MISSED 0

end Sys2Proof.Machine
end

