-- ==== Sys2Proof/Machine/Mmu.lean ====
section
/-! DEFINITION. Address translation (R363–R367, R376). -/

namespace Sys2Proof.Machine

/-- What a translation answers: a device address, or a fault with its code, the walk level reached and the entry
(R367). -/
inductive Xlat where
  | ok (addr entry : Nat)
  | fault (code level entry : Nat)
deriving DecidableEq, Repr

/-- An address of the GDDR6 ranges of R353. -/
def State.isGddr (s : State) (a : Nat) : Bool := match s.place a with | .gddr _ => true | _ => false

/-- An address of a host window (R366). -/
def isHost (a : Nat) : Bool := 0x800000000000 ≤ a && a < 0x1000000000000

/-- ADDR of an entry (R364). -/
def entryAddr (e : Nat) : Nat := bits e 47 14 * 2 ^ 14

/-- An entry read: none when it cannot be read or its reserved bits are set (0x5003). -/
def State.tableEntry (s : State) (a : Nat) : Option Nat :=
  let e := s.loadNat a 8
  if a / 64 ∈ s.fabric.badLines ∨ bits e 13 4 ≠ 0 ∨ bits e 63 48 ≠ 0 then none else some e

/-- A walk from a table of a level down; `n` levels are left (R364, R367). -/
def State.walkFrom (s : State) (a : Nat) : Nat → Nat → Xlat
  | 0, _ => .fault 0x5003 3 0
  | n + 1, table =>
    let level := 3 - n
    let idx := if n = 2 then bits a 47 38 else if n = 1 then bits a 37 27 else bits a 26 16
    if !s.isGddr table then .fault 0x5004 level 0
    else match s.tableEntry (table + 8 * idx) with
      | none => .fault 0x5003 level (s.loadNat (table + 8 * idx) 8)
      | some e =>
        if !e.testBit 0 then .fault 0x5001 level e
        else if n ≠ 0 then s.walkFrom a n (entryAddr e)
        else if entryAddr e % 65536 ≠ 0 then .fault 0x5003 level e
        else if s.isGddr (entryAddr e) || isHost (entryAddr e) then .ok (entryAddr e) e
        else .fault 0x5004 level e

/-- The table root of a context (R378). -/
def State.rootOf (s : State) (ctx : Nat) : Nat := s.rd .mmu MMU.ROOT_LO 0 ctx + 2 ^ 32 * s.rd .mmu MMU.ROOT_HI 0 ctx

/-- The translation of a task address's page: held, or walked and then held (R365; log 20: the oldest goes beyond
4096). -/
def State.lookupPage (s : State) (ctx a : Nat) : Xlat × State :=
  if s.rootOf ctx = 0 then
    (if s.isGddr a then .ok (a / 65536 * 65536) 7 else .fault 0x5004 0 0, s)
  else match s.fabric.tlb.find? fun t => t.ctx = ctx ∧ t.page = a / 65536 with
    | some t => (.ok (entryAddr t.entry) t.entry, s)
    | none =>
      let s1 := s.count .mmu MMU.CNT_WALK
      match s.walkFrom a 3 (s.rootOf ctx) with
      | .ok p e =>
        (.ok p e, { s1 with fabric := { s1.fabric with tlb := (⟨ctx, a / 65536, e⟩ :: s1.fabric.tlb).take 4096 } })
      | x => (x, s1)

/-- Rights and fences on a page (R366, R367, R376). -/
def State.pageFault (s : State) (ctx : Nat) (write : Bool) (pa n e : Nat) : Option Nat :=
  let out := e.testBit 3 && s.rootOf ctx ≠ 0
  let mine := s.fabric.outPages.filter (·.ctx = ctx)
  if (write && !e.testBit 2) || (!write && !e.testBit 1) || (out && isHost pa) || s.lockedGddr pa n then some 0x5002
  else if s.fabric.outPages.any fun p => p.page = pa / 65536 ∧ p.ctx ≠ ctx then some 0x5006
  else if write && out && !(mine.any fun p => p.page = pa / 65536)
      && (1024 ≤ mine.length || 4096 ≤ s.fabric.outPages.length) then some 0x5005
  else none

/-- An OUT page written is recorded (R376). -/
def State.recordOut (s : State) (ctx pa e : Nat) : State :=
  if e.testBit 3 && s.rootOf ctx ≠ 0 then
    { s with fabric := { s.fabric with outPages := setInsert ⟨ctx, pa / 65536⟩ s.fabric.outPages } }
  else s

/-- One access within a page of 64 KiB. -/
def State.xlate (s : State) (ctx : Nat) (write : Bool) (a n : Nat) : Xlat × State :=
  match s.lookupPage ctx a with
  | (.ok p e, s1) =>
    let pa := p + a % 65536
    match s1.pageFault ctx write pa n e with
    | some c => (.fault c 3 e, s1.count .mmu MMU.CNT_PF)
    | none => (.ok pa e, if write then s1.recordOut ctx pa e else s1)
  | (x, s1) => (x, s1.count .mmu MMU.CNT_PF)

/-- A range cut at 64 KiB pages: at most `n` pieces. -/
def pieces : Nat → Nat → Nat → List (Nat × Nat)
  | 0, _, _ => []
  | k + 1, a, n =>
    if n = 0 then []
    else
      let m := min n (65536 - a % 65536)
      (a, m) :: pieces k (a + m) (n - m)

/-- Ranges cut at pages. -/
def cutRanges (l : List (Nat × Nat)) : List (Nat × Nat) := l.flatMap fun x => pieces (x.2 / 65536 + 2) x.1 x.2

/-- A fault of an access: its code, the task address, the walk level, the entry (R367). -/
structure AccessFault where
  code : Nat
  addr : Nat
  level : Nat
  entry : Nat
deriving DecidableEq, Repr

/-- The detail words of a translation fault: task address, level, entry (R367; log 11 for their places). -/
def AccessFault.details (f : AccessFault) : List Nat := [f.addr % 2 ^ 32, f.addr / 2 ^ 32 + f.level * 2 ^ 16, f.entry % 2 ^ 32, f.entry / 2 ^ 32]

/-- Pieces translated in order, up to the first fault. -/
def State.xlateAll (s : State) (ctx : Nat) (write : Bool) :
    List (Nat × Nat) → List (Nat × Nat) × Option AccessFault × State
  | [] => ([], none, s)
  | (a, n) :: r =>
    match s.xlate ctx write a n with
    | (.fault c l e, s1) => ([], some ⟨c, a, l, e⟩, s1)
    | (.ok pa _, s1) =>
      let x := s1.xlateAll ctx write r
      ((pa, n) :: x.1, x.2.1, x.2.2)

/-- A range lies in the pinned windows of the running set or of the set that drains (R363). -/
def State.inWindows (s : State) (a n : Nat) : Bool :=
  s.liveSets.any fun r => r.pkg.sec.windows.any fun w =>
    w.addr ≤ a && a + n ≤ w.addr + w.size

/-- The context's translations dropped (R365). -/
def invAct (s : State) (ctx : Nat) : State :=
  { s with fabric := { s.fabric with tlb := s.fabric.tlb.filter (·.ctx ≠ ctx) } }

end Sys2Proof.Machine
end

