-- ==== Sys2Proof/Machine/Operands.lean ====
section
/-! DEFINITION. Operand forms of the tensor cores: command words (R264), tensor descriptors (R303), the order of
elements (R304, R305), packing (R292), and every check made on them before anything moves (R266, R281, R293, R306). -/

namespace Sys2Proof.Machine

/-! ### Command words -/

/-- A command word (R264). `ok`: its CRC holds; `rsv`: a reserved bit is set. -/
structure Cmd where
  cls : Nat
  op : Nat
  chain : Bool
  mayVary : Bool
  ordered : Bool
  last : Bool
  acc : Bool
  fmtA : Nat
  fmtB : Nat
  fmtC : Nat
  rnd : Nat
  dA : Nat
  dB : Nat
  dC : Nat
  dSA : Nat
  dSB : Nat
  m : Nat
  n : Nat
  k : Nat
  kh : Nat
  kw : Nat
  sh : Nat
  sw : Nat
  dh : Nat
  dw : Nat
  padT : Nat
  padL : Nat
  padB : Nat
  padR : Nat
  groups : Nat
  axis : Nat
  ctype : Nat
  shared : Bool
  combine : Nat
  imm0 : Nat
  imm1 : Nat
  oh : Nat
  ow : Nat
  ok : Bool
  rsv : Bool
deriving DecidableEq, Repr

/-- The command word of 64 bytes (R264). -/
def parseCmd (b : List Byte) : Cmd :=
  let f (o n : Nat) : Nat := field b o n
  let x := f 38 2
  { op := bits (f 0 1) 3 0, cls := bits (f 0 1) 7 4
    chain := (f 1 1).testBit 0, mayVary := (f 1 1).testBit 1, ordered := (f 1 1).testBit 2, last := (f 1 1).testBit 3
    acc := (f 1 1).testBit 4
    fmtA := bits (f 2 1) 3 0, fmtB := bits (f 2 1) 7 4, fmtC := bits (f 3 1) 3 0, rnd := bits (f 3 1) 6 4
    dA := f 4 3, dB := f 7 3, dC := f 10 3, dSA := f 13 3, dSB := f 16 3
    m := bits (f 20 4) 23 0, n := bits (f 24 4) 19 0, k := bits (f 28 4) 19 0
    kh := bits (f 32 1) 3 0, kw := bits (f 32 1) 7 4
    sh := bits (f 33 1) 1 0 + 1, sw := bits (f 33 1) 3 2 + 1, dh := bits (f 33 1) 5 4 + 1, dw := bits (f 33 1) 7 6 + 1
    padT := bits (f 34 1) 3 0, padL := bits (f 34 1) 7 4, padB := bits (f 35 1) 3 0, padR := bits (f 35 1) 7 4
    groups := f 36 2, axis := bits x 2 0, ctype := bits x 7 6, shared := x.testBit 8, combine := bits x 11 9
    imm0 := f 40 4, imm1 := f 44 4, oh := f 48 2, ow := f 50 2
    ok := crc32c (b.take 60) = f 60 4
    rsv := bits (f 1 1) 7 5 ≠ 0 || (f 3 1).testBit 7 || f 19 1 ≠ 0 || bits x 15 12 ≠ 0 || f 52 8 ≠ 0 }

/-- A class of the VXE (R267). -/
def Cmd.vxe (c : Cmd) : Bool := (3 ≤ c.cls && c.cls ≤ 7) || c.cls = 0xA

/-- MATMUL or CONV. -/
def Cmd.mxe (c : Cmd) : Bool := c.cls = 1 || c.cls = 2

/-- The engines a command uses (R267), as a mask: MXE 1, VXE 2, LXE 4, SXE 8. -/
def Cmd.engines (c : Cmd) : Nat :=
  if c.mxe then 7 else if c.vxe then 2 else if c.cls = 8 then 12 else if c.cls = 9 then 4 else if c.cls = 0xB then 8 else 0

/-- The operations each class defines (R267). -/
def Cmd.defined (c : Cmd) : Bool :=
  c.op < ([0, 1, 1, 13, 5, 2, 3, 2, 2, 2, 1, 1, 3].getD c.cls 0)

/-- The MXE's depth of a format pair, 0 where it is not allowed (R260). -/
def kcOf (a b : Nat) : Nat :=
  let i (f : Nat) : Bool := f ≤ 2
  let s (f : Nat) : Bool := 7 ≤ f && f ≤ 0xB
  let h (f : Nat) : Bool := f = 0xC || f = 0xD
  if i a && i b then (if a = 2 && b = 2 then 128 else 64)
  else if s a && s b then (if a = 7 && b = 7 then 128 else 64)
  else if h a && h b then 32 else 0

/-- The MXE accumulates integers (R269, R271). -/
def Cmd.integer (c : Cmd) : Bool := c.fmtA ≤ 2 && c.fmtB ≤ 2 && c.dSA = 0 && c.dSB = 0

/-- Formats a scale array may go with (R293). -/
def scalable (f : Nat) : Bool := f ≤ 2 || (7 ≤ f && f ≤ 0xB)

/-- The formats of a command are accepted by its class (R293, R275). -/
def Cmd.formatsOk (c : Cmd) : Bool :=
  c.fmtA ≠ 0xF && c.fmtB ≠ 0xF && c.fmtC ≠ 0xF &&
  (if c.mxe then
    kcOf c.fmtA c.fmtB ≠ 0 && (!(c.acc && c.integer) || c.fmtC = 6) && (c.dSA = 0 || scalable c.fmtA)
      && (c.dSB = 0 || scalable c.fmtB)
  else if c.cls = 5 && c.op = 1 then c.fmtA ≤ 1
  else if c.cls = 0xA then c.dSA = 0 || scalable c.fmtC
  else if c.cls = 8 && c.op = 1 && c.combine ≠ 0 then !fmtPacked c.fmtA
  else true)

/-- The operands a command needs beside A and C (R267): B, SA, SB. -/
def Cmd.needs (c : Cmd) : Bool × Bool × Bool :=
  if c.mxe then (true, false, false)
  else if c.cls = 3 then (c.op = 0xA, c.op = 5 || c.op = 6 || c.op = 0xA, c.op = 6)
  else if c.cls = 5 then (false, true, false)
  else if c.cls = 6 then (false, c.op < 2, c.op < 2)
  else if c.cls = 8 then (true, false, false)
  else (false, false, false)

/-- The first and the last command of the chain that holds command `i` (R281). -/
def chainStart (cs : List Cmd) : Nat → Nat
  | 0 => 0
  | i + 1 => match cs[i]? with | some c => if c.chain then chainStart cs i else i + 1 | none => i + 1

/-- The last command of a chain, looked for over at most `n` commands. -/
def chainEnd (cs : List Cmd) : Nat → Nat → Nat
  | 0, i => i
  | n + 1, i => match cs[i]? with | some c => if c.chain then chainEnd cs n (i + 1) else i | none => i

/-- A chain's stages are in a shape of R281, its COPYs taken off. -/
def chainCore (l : List Cmd) : Bool :=
  match l with
  | [] => false
  | c :: r =>
    if c.mxe ∨ (c.cls = 8 ∧ c.op = 0) ∨ c.cls = 9 then decide (r.length ≤ 3) && r.all (·.vxe)
    else if c.cls = 8 then r = []
    else decide (l.length ≤ 3) && l.all (·.vxe)

/-- Shapes of R281; a SCATTER stands only last before an optional COPY. -/
def chainShape (l : List Cmd) : Bool :=
  let copy (c : Cmd) : Bool := c.cls = 0xB
  let l1 := match l with | c :: r => if copy c && r ≠ [] then r else l | [] => []
  let l2 := match l1.reverse with | c :: r => if copy c && r ≠ [] then r.reverse else l1 | [] => []
  l.length = 1 || chainCore l2
    || (match l2.reverse with | c :: r => c.cls = 8 && c.op = 1 && chainCore r.reverse | [] => false)

/-- The fields of command `i` break R266, its place in a chain considered (R281, R282). -/
def cmdInvalid (cs : List Cmd) (i : Nat) (c : Cmd) : Bool :=
  let a := chainStart cs i
  let z := chainEnd cs 8 a
  let first : Bool := i = a
  let lastStage : Bool := i = z
  let nd := c.needs
  let noA : Bool := c.cls = 0xC
  !c.defined || c.rsv || !c.formatsOk || 6 ≤ c.rnd || 4 ≤ c.combine
    || (c.mxe && (c.m = 0 || c.n = 0 || c.k = 0))
    || (c.cls = 2 && (c.kh = 0 || c.kw = 0 || c.groups = 0 || c.oh = 0 || c.ow = 0
        || c.k % max 1 c.groups ≠ 0 || c.n % max 1 c.groups ≠ 0))
    || (!noA && ((first && c.dA = 0 && !(c.cls = 8 && c.op = 0)) || (!first && c.dA ≠ 0)))
    || (!noA && ((lastStage && c.dC = 0 && !(c.cls = 8 && c.op = 1)) || (!lastStage && c.dC ≠ 0)))
    || (nd.1 && c.dB = 0) || (nd.2.1 && c.dSA = 0) || (nd.2.2 && c.dSB = 0)
    || (c.cls = 8 && c.op = 0 && c.combine ≠ 0)
    || (z ≠ a && !chainShape ((cs.drop a).take (z - a + 1)))
    || (!c.last && cs.length ≤ i + 1)

/-- A floating-point shared add without MAYVARY (R277). -/
def Cmd.mayVaryAdd (c : Cmd) (cFmt : Nat) (toCmem : Bool) : Bool :=
  c.shared && toCmem && !fmtInteger cFmt && (if c.mxe then c.acc else (c.cls = 4 || (c.cls = 8 && c.op = 1)) && c.combine = 1)

/-! ### Tensor descriptors -/

/-- A tensor descriptor (R303); sizes and strides of dimensions 0–5, the stride of dimension 0 standing as 0. -/
structure Desc where
  base : Nat
  space : Nat
  rank : Nat
  fmt : Nat
  bcast0 : Bool
  sizes : List Nat
  strides : List Int
  ok : Bool
  rsv : Bool
  raw : List Byte
deriving DecidableEq, Repr

/-- The descriptor of 64 bytes (R303). -/
def parseDesc (b : List Byte) : Desc :=
  let f (o n : Nat) : Nat := field b o n
  { base := f 0 6, space := bits (f 6 1) 1 0, rank := bits (f 6 1) 4 2, fmt := bits (f 7 1) 3 0
    bcast0 := (f 7 1).testBit 4
    sizes := (List.range 6).map fun d => f (8 + 4 * d) 4 % 2 ^ 24
    strides := 0 :: (List.range 5).map fun d => toInt 32 (f (32 + 4 * d) 4)
    ok := crc32c (b.take 60) = f 60 4
    rsv := bits (f 6 1) 7 5 ≠ 0 || bits (f 7 1) 7 5 ≠ 0 || f 52 8 ≠ 0
    raw := b.take 60 }

/-- The extent of a dimension. -/
def Desc.size (d : Desc) (i : Nat) : Nat := d.sizes.getD i 1

/-- The byte stride of a dimension. -/
def Desc.stride (d : Desc) (i : Nat) : Int := d.strides.getD i 0

/-- The product of extents. -/
def prodN (l : List Nat) : Nat := l.foldl (· * ·) 1

/-- Bytes of `n` elements in a row (R292). -/
def rowBytes (fmt n : Nat) : Nat := (fmtGroup fmt).2 * ceilDiv n (fmtGroup fmt).1

/-- Bytes of a row segment (R304). -/
def Desc.segBytes (d : Desc) : Nat := if d.bcast0 then rowBytes d.fmt 1 else rowBytes d.fmt (d.size 0)

/-- The multi-index of a logical index (R305). -/
def coordsOf : List Nat → Nat → List Nat
  | [], _ => []
  | n :: r, i => (if n = 0 then 0 else i % n) :: coordsOf r (if n = 0 then 0 else i / n)

/-- The logical index of a multi-index. -/
def indexOf : List Nat → List Nat → Nat
  | n :: r, c :: q => c + n * indexOf r q
  | _, _ => 0

/-- The address, within its space, of the row segment at a multi-index (R304). -/
def Desc.segment (d : Desc) (c : List Nat) : Int :=
  (d.base : Int) + ((List.range 5).map fun i => (nth c (i + 1) : Int) * d.stride (i + 1)).foldl (· + ·) 0

/-- The lowest and the highest byte of the span (R306). -/
def Desc.span (d : Desc) : Int × Int :=
  let off (pick : Int → Int) : Int :=
    ((List.range 5).map fun i => pick (((d.size (i + 1) : Int) - 1) * d.stride (i + 1))).foldl (· + ·) 0
  ((d.base : Int) + off (fun v => min v 0), (d.base : Int) + off (fun v => max v 0) + d.segBytes - 1)

/-- The span lies in its space (R306). -/
def Desc.inRange (d : Desc) : Bool :=
  let s := d.span
  if d.space = 0 then decide (0 ≤ s.1 ∧ s.2 < 0x200000)
  else if d.space = 1 then decide (0 ≤ s.1 ∧ s.2 < 0x400000) else true

/-- Two spans share a byte in one space (R316, R317). -/
def Desc.overlaps (a b : Desc) : Bool := a.space = b.space && decide (a.span.1 ≤ b.span.2 ∧ b.span.1 ≤ a.span.2)

/-- The dimensions of size above 1 taken by |stride|, each at least the extent below (R306). -/
def stridesNest : Int → List (Int × Nat) → Bool
  | _, [] => true
  | ext, (st, n) :: r => decide (ext ≤ st) && stridesNest (st * ((n : Int) - 1) + ext) r

/-- An output descriptor reaches no byte twice (R306). -/
def Desc.outputOk (d : Desc) : Bool :=
  let dims := ((List.range 5).filter fun i => d.size (i + 1) > 1).map fun i =>
    ((d.stride (i + 1)).natAbs, d.size (i + 1))
  let sorted := dims.foldl (fun l x => orderedInsert (fun a b => decide (a.1 ≤ b.1)) x l) []
  !d.bcast0 && stridesNest d.segBytes (sorted.map fun x => ((x.1 : Int), x.2)) && dims.all (·.1 ≠ 0)

/-- A descriptor's own fields break R306 or R305: CMD_INVALID. -/
def Desc.invalid (d : Desc) : Bool :=
  let g := (fmtGroup d.fmt).2
  d.rsv || d.rank = 0 || 6 < d.rank || d.space = 3 || d.sizes.any (· = 0)
    || (List.range 6).any (fun i => d.rank ≤ i && d.size i ≠ 1)
    || (fmtPacked d.fmt && (d.base % g ≠ 0 || d.strides.any fun x => x % g ≠ 0))
    || 2 ^ 48 ≤ prodN d.sizes

/-- Codes of a row from its bytes (R292). -/
def unpackRow (fmt n : Nat) (b : List Byte) : List Nat :=
  let g := fmtGroup fmt
  let w := fmtBits fmt
  (List.range n).map fun j => bits (field b (g.2 * (j / g.1)) g.2) (w * (j % g.1) + w - 1) (w * (j % g.1))

/-- Bytes of a row from its codes; pad elements are 0 (R292). -/
def packRow (fmt : Nat) (l : List Nat) : List Byte :=
  let g := fmtGroup fmt
  let w := fmtBits fmt
  (List.range (ceilDiv l.length g.1)).flatMap fun i =>
    leBytes g.2 ((List.range g.1).foldl (fun acc j => acc + (nth l (g.1 * i + j) % 2 ^ w) * 2 ^ (w * j)) 0)

end Sys2Proof.Machine
end

