-- ==== Sys2Proof/Machine/TensorOps.lean ====
section
/-! DEFINITION. What each tensor command computes (R267–R275, R301, R302, R313): functions of its operands, no state. -/

namespace Sys2Proof.Machine

/-- An operand: its extents, its element at a multi-index. -/
structure Opnd where
  sizes : List Nat
  get : List Nat → Num

/-- The element at a logical index. -/
def Opnd.nth (x : Opnd) (i : Nat) : Num := x.get (coordsOf x.sizes i)

/-- A scalar standing for an operand. -/
def Opnd.scalar (v : Num) : Opnd := ⟨[1, 1, 1, 1, 1, 1], fun _ => v⟩

/-- Values with how many of them saturated. -/
structure Vals where
  v : List Num
  sat : Nat

/-- Results joined. -/
def joinVals (l : List (Num × Nat)) : Vals := ⟨l.map (·.1), (l.map (·.2)).foldl (· + ·) 0⟩

/-- The immediate as the compute type reads it (R264). -/
def immOf (ct imm : Nat) : Num := decodeElem (if ctFloat ct then 0xE else 0x6) imm

/-! ### MATMUL and CONV (R268–R271, R301) -/

/-- The exact sum of one K-group from element `t` on, block by block of 32 with its scales (R270, R271). -/
def groupSum (x y : Nat → Num) (scale : Nat → Num) (t n : Nat) : Num :=
  ((List.range (ceilDiv n 32)).map fun b =>
    let w := min 32 (n - 32 * b)
    (((List.range w).map fun i => (x (t + 32 * b + i)).mul (y (t + 32 * b + i))).foldl Num.add .zero).mul
      (scale ((t + 32 * b) / 32))).foldl Num.add .zero

/-- An accumulated element: integers exactly, else group by group in FP32 (R269, R270). -/
def accumulate (integer : Bool) (kc kk : Nat) (x y : Nat → Num) (scale : Nat → Num) (start : Num) : Num :=
  if integer then ((List.range kk).map fun t => (x t).mul (y t)).foldl Num.add start
  else (List.range (ceilDiv kk kc)).foldl (fun acc g =>
    f32 (acc.add (f32 (groupSum x y scale (g * kc) (min kc (kk - g * kc)))))) start

/-- B is read with K in dimension 0 (R293, R312; log 17): always for 4-bit formats, else when only that fits. -/
def kFirst (c : Cmd) (b : Opnd) (kk nn : Nat) : Bool :=
  c.fmtB = 2 || c.fmtB = 7 || (b.sizes.getD 0 1 = kk && b.sizes.getD 1 1 = nn && kk ≠ nn)

/-- The scale of a K-block: the product of those present (R270, R301). -/
def scaleOf (s : Option Opnd) (i : Nat) : Num := match s with | some o => o.nth i | none => .one

/-- C[m, n] of a MATMUL (R267). -/
def matmulElem (c : Cmd) (a b : Opnd) (sa sb : Option Opnd) (start : Num) (i : Nat) : Num :=
  let n := i % c.n
  let m := i / c.n
  let kf := kFirst c b c.k c.n
  let blocks := ceilDiv c.k 32
  accumulate c.integer (kcOf c.fmtA c.fmtB) c.k (fun t => a.nth (t + c.k * m))
    (fun t => if kf then b.nth (t + c.k * n) else b.nth (n + c.n * t))
    (fun q => (scaleOf sa (q + blocks * m)).mul (if kf then scaleOf sb (q + blocks * n) else scaleOf sb (n + c.n * q)))
    start

/-- Height and width of a CONV's input (R268): from its descriptor. -/
def convInput (a : Opnd) : Nat × Nat := (a.sizes.getD 2 1, a.sizes.getD 1 1)

/-- The output size rule of R268. -/
def convSizeOk (c : Cmd) (h w : Nat) : Bool :=
  c.dh * (c.kh - 1) + 1 ≤ h + c.padT + c.padB && c.dw * (c.kw - 1) + 1 ≤ w + c.padL + c.padR
    && c.oh = (h + c.padT + c.padB - c.dh * (c.kh - 1) - 1) / c.sh + 1
    && c.ow = (w + c.padL + c.padR - c.dw * (c.kw - 1) - 1) / c.sw + 1

/-- C[b, oy, ox, n] of a CONV (R268), `i` its logical index with n fastest. -/
def convElem (c : Cmd) (a b : Opnd) (sa sb : Option Opnd) (start : Num) (i : Nat) : Num :=
  let hw := convInput a
  let cg := c.k / c.groups
  let ng := c.n / c.groups
  let n := i % c.n
  let ox := i / c.n % c.ow
  let oy := i / c.n / c.ow % c.oh
  let bt := i / c.n / c.ow / c.oh
  let g := n / ng
  let kk := c.kh * c.kw * cg
  let blocks := ceilDiv kk 32
  let tap (t : Nat) : Num :=
    let y : Int := (oy * c.sh + t / (c.kw * cg) * c.dh : Nat) - (c.padT : Int)
    let x : Int := (ox * c.sw + t / cg % c.kw * c.dw : Nat) - (c.padL : Int)
    if y < 0 ∨ (hw.1 : Int) ≤ y ∨ x < 0 ∨ (hw.2 : Int) ≤ x then .zero
    else a.nth (g * cg + t % cg + c.k * (x.toNat + hw.2 * (y.toNat + hw.1 * bt)))
  let kf := kFirst c b cg c.n
  let wt (t : Nat) : Num :=
    if kf then b.nth (t % cg + cg * (n + c.n * (t / cg))) else b.nth (n + c.n * t)
  accumulate c.integer (kcOf c.fmtA c.fmtB) kk tap wt
    (fun q => (scaleOf sa (q + blocks * (ox + c.ow * (oy + c.oh * bt)))).mul (scaleOf sb (n + c.n * q))) start

/-! ### Elementwise operations (R267, R272) -/

/-- One element of ELTWISE, its operands already in the compute type. -/
def eltwise (c : Cmd) (a b sa sb : Num) : Num × Nat :=
  let ct := c.ctype
  if c.op = 0 then ctRound ct (a.add b)
  else if c.op = 1 then ctRound ct (a.sub b)
  else if c.op = 2 then ctRound ct (a.mul b)
  else if c.op = 3 then (a.max b, 0)
  else if c.op = 4 then (a.min b, 0)
  else if c.op = 5 then ctRound ct ((a.mul b).add sa)
  else if c.op = 6 then ctRound ct ((a.mul sa).add sb)
  else if c.op = 7 then ctRound ct a.abs
  else if c.op = 8 then ctRound ct a.neg
  else if c.op = 9 then ((a.max (ctRound ct (immOf ct c.imm0)).1).min (ctRound ct (immOf ct c.imm1)).1, 0)
  else if c.op = 0xA then (if sa.isZero then b else a, 0)
  else if c.op = 0xB then (if b.lt a then .one else .zero, 0)
  else
    let k := toInt 32 c.imm0
    if ctFloat ct ∨ k < 0 then
      (decodeElem (ctFmt ct) (Config.openValue 1 [ct, (encodeElem (ctFmt ct) 0 0 a).code, c.imm0] % 2 ^ fmtBits (ctFmt ct)), 0)
    else
      match a with
      | .fin s m e =>
        let v := scaled s m e (min e 0)
        (.ofInt (if k = 0 then v else (v + 2 ^ (k.toNat - 1)) / 2 ^ k.toNat), 0)
      | x => (x, 0)

/-- ELTWISE over a shape. SCALE_BIAS takes its operands per channel along AXIS. -/
def eltwiseAll (c : Cmd) (sh : List Nat) (a b : Opnd) (sa sb : Opnd) : Vals :=
  let cv (x : Num) : Num := (ctRound c.ctype x).1
  joinVals ((List.range (prodN sh)).map fun i =>
    let p := coordsOf sh i
    let q := if c.op = 6 then [p.getD c.axis 0] else p
    eltwise c (cv (a.get p)) (cv (b.get p)) (cv (sa.get q)) (cv (sb.get q)))

/-! ### Reductions (R273, R274) -/

/-- Neighbouring lanes combined, one level of the tree. -/
def pairUp (f : Num → Num → Num × Nat) : List Num → List (Num × Nat)
  | a :: b :: r => f a b :: pairUp f r
  | [a] => [(a, 0)]
  | [] => []

/-- The tree over `n` levels. -/
def tree (f : Num → Num → Num × Nat) : Nat → List Num → Nat → Num × Nat
  | 0, l, s => (l.headD .zero, s)
  | n + 1, l, s =>
    let p := pairUp f l
    tree f n (p.map (·.1)) (s + (p.map (·.2)).foldl (· + ·) 0)

/-- The canonical reduction order (R273) over Λ lanes. -/
def canonical (f : Num → Num → Num × Nat) (ident : Num) (lanes : Nat) (l : List Num) : Num × Nat :=
  let lane (j : Nat) : Num × Nat :=
    match (List.range (ceilDiv (l.length - j) lanes)).map fun i => l.getD (j + i * lanes) ident with
    | [] => (ident, 0)
    | x :: r => r.foldl (fun acc v => let y := f acc.1 v; (y.1, acc.2 + y.2)) (x, 0)
  let ls := (List.range lanes).map fun j => if j < l.length then lane j else (ident, 0)
  tree f (lanes.log2) (ls.map (·.1)) ((ls.map (·.2)).foldl (· + ·) 0)

/-- The values along an axis through a multi-index. -/
def alongAxis (x : Opnd) (p : List Nat) (ax n : Nat) : List Num := (List.range n).map fun i => x.get (p.set ax i)

/-- The least and the greatest value of a compute type: identities of MAX and MIN. -/
def ctLeast (ct : Nat) : Num := if ctFloat ct then .inf true else .ofInt (intRange (ctFmt ct)).1

/-- The identity of MIN. -/
def ctGreatest (ct : Nat) : Num := if ctFloat ct then .inf false else .ofInt (intRange (ctFmt ct)).2

/-- The lowest index among equal maxima (R273). -/
def argMax (l : List Num) : Nat :=
  ((l.zip (List.range l.length)).foldl (fun (b : Num × Nat) x => if b.1.lt x.1 then x else b) (l.headD .zero, 0)).2

/-- REDUCE of one line of values (R267, R273). -/
def reduceLine (c : Cmd) (l : List Num) : Num × Nat :=
  let ct := c.ctype
  let lanes := ctLanes ct
  let sum (a b : Num) : Num × Nat := ctRound ct (a.add b)
  if c.op = 0 then canonical sum .zero lanes l
  else if c.op = 1 then
    let sq := l.map fun x => ctRound ct (x.mul x)
    let r := canonical sum .zero lanes (sq.map (·.1))
    (r.1, r.2 + (sq.map (·.2)).foldl (· + ·) 0)
  else if c.op = 2 then canonical (fun a b => (a.max b, 0)) (ctLeast ct) lanes l
  else if c.op = 3 then canonical (fun a b => (a.min b, 0)) (ctGreatest ct) lanes l
  else if l.any (·.isNan) then
    (.ofInt (Config.openValue 2 (l.map fun x => (encodeElem (ctFmt ct) 0 0 x).code) % max 1 l.length : Nat), 0)
  else (.ofInt (argMax l), 0)

/-- REDUCE along AXIS: the axis becomes 1. -/
def reduceAll (c : Cmd) (sh : List Nat) (a : Opnd) : Vals :=
  let out := sh.set c.axis 1
  joinVals ((List.range (prodN out)).map fun i =>
    reduceLine c ((alongAxis a (coordsOf out i) c.axis (sh.getD c.axis 1)).map fun x => (ctRound c.ctype x).1))

/-- The canonical sum in FP32 (R274). -/
def sum32 (l : List Num) : Num := (canonical (fun a b => (f32 (a.add b), 0)) .zero 256 l).1

/-- NORM of one line (R274): γ and β by position along the axis. -/
def normLine (c : Cmd) (l : List Num) (g b : Nat → Num) : List Num :=
  let inv := f32 (Num.ofInt l.length).recip
  let eps := immOf 0 c.imm0
  let fma (x : Num) (i : Nat) : Num := f32 ((x.mul (g i)).add (b i))
  let sq (x : List Num) : Num := sum32 (x.map fun v => f32 (v.mul v))
  if c.op = 0 then
    let mu := f32 ((sum32 l).mul inv)
    let d := l.map fun x => f32 (x.sub mu)
    let v := f32 ((sq d).mul inv)
    let r := f32 (f32 (v.add eps)).rsqrt
    (d.zip (List.range d.length)).map fun x => fma (f32 (x.1.mul r)) x.2
  else if c.op = 1 then
    let v := f32 ((sq l).mul inv)
    let r := f32 (f32 (v.add eps)).rsqrt
    (l.zip (List.range l.length)).map fun x => fma (f32 (x.1.mul r)) x.2
  else
    let r := f32 ((sq l).max eps).rsqrt
    l.map fun x => f32 (x.mul r)

/-- SOFTMAX and LOGSOFTMAX of one line (R274). -/
def softmaxLine (c : Cmd) (l : List Num) : List Num :=
  let m := (canonical (fun a b => (a.max b, 0)) (.inf true) 256 l).1
  let e := l.map fun x => f32 (f32 (x.sub m)).exp
  if c.op = 0 then
    let r := f32 (sum32 e).recip
    e.map fun x => f32 (x.mul r)
  else
    let s := f32 (sum32 e).ln
    l.map fun x => f32 ((f32 (x.sub m)).sub s)

/-- NORM or SOFTMAX over a shape, line by line along AXIS. -/
def linewise (c : Cmd) (sh : List Nat) (a : Opnd) (line : List Num → List Num) : Vals :=
  let n := sh.getD c.axis 1
  ⟨(List.range (prodN sh)).map fun i =>
    let p := coordsOf sh i
    (line ((alongAxis a p c.axis n).map f32)).getD (p.getD c.axis 0) .nan, 0⟩

/-! ### LUT (R275) -/

/-- LUT PWL at a value. -/
def pwl (c : Cmd) (t : Nat → Num) (x : Num) : Num :=
  let u := f32 ((f32 (x.sub (immOf 0 c.imm0))).mul (immOf 0 c.imm1))
  if u.isNan then .nan
  else if u.lt .zero then t 0
  else if !(u.lt (.ofInt 64)) then t 64
  else match u with
    | .fin s m e =>
      let v := scaled s m e (min e 0)
      let i := v / 2 ^ (-(min e 0)).toNat
      let f := u.sub (.ofInt i)
      f32 ((f.mul ((t (i.toNat + 1)).sub (t i.toNat))).add (t i.toNat))
    | _ => .nan

/-! ### CONVERT with block scales (R302) -/

/-- E of R302. -/
def blockE (fmt : Nat) : Int :=
  if fmt = 0 then 7 else if fmt = 1 then 6 else if fmt = 2 then 2 else if fmt = 7 then 2 else if fmt = 8 then 4
  else if fmt = 9 then 2 else if fmt = 0xA then 8 else 15

/-- The scale code of a block (R302). -/
def blockScale (fmt : Nat) (l : List Num) : Nat :=
  let a := (l.filter (fun x => !x.nonFinite)).foldl (fun (b : Num) x => if b.lt x.abs then x.abs else b) Num.zero
  if l.any (·.isNan) then 0xFF
  else if l.any (·.nonFinite) then 254
  else match a with
    | .fin _ m e => if m = 0 then 127 else (min 254 (max 0 (log2Of m e - blockE fmt + 127))).toNat
    | _ => 254

/-- An element of a block under its scale (R302): a negative one becomes 0 in UINT8, and is counted. -/
def blockElem (fmt mode r sc : Nat) (x : Num) : Enc :=
  let v := x.mul (.fin false 1 (127 - (sc : Int)))
  if sc = 0xFF then ⟨0, 0, 0⟩
  else if fmt = 0 ∧ v.lt .zero then ⟨0, 1, 0⟩
  else if fmtInteger fmt then encodeInt fmt mode r v else encodeFloat (floatFmt fmt) mode r true v

/-! ### Permutations (R313) -/

/-- p(d) of IMM0; TRANSPOSE exchanges dimensions 0 and 1. -/
def permOf (c : Cmd) (d : Nat) : Nat :=
  if c.op = 0 then (if d = 0 then 1 else if d = 1 then 0 else d) else bits c.imm0 (3 * d + 2) (3 * d)

/-- IMM0 is a permutation of the rank, its other bits zero. -/
def permOk (c : Cmd) (rank : Nat) : Bool :=
  c.op = 0 && 2 ≤ rank || c.op = 1 && (List.range rank).all (fun d => (List.range rank).any fun e => permOf c e = d)
    && c.imm0 < 2 ^ (3 * rank)

/-- The source multi-index of an output multi-index. -/
def permCoords (c : Cmd) (rank : Nat) (j : List Nat) : List Nat :=
  (List.range rank).foldl (fun acc d => acc.set (permOf c d) (j.getD d 0)) [0, 0, 0, 0, 0, 0]

/-- The sizes of the output under a permutation. -/
def permSizes (c : Cmd) (rank : Nat) (sz : List Nat) : List Nat :=
  (List.range 6).map fun d => if d < rank then sz.getD (permOf c d) 1 else 1

end Sys2Proof.Machine
end

