-- ==== Sys2Proof/Machine/Tensor.lean ====
section
/-! DEFINITION. How a tensor core issues and executes the commands of its nodes (R261, R264–R284, R306, R316–R325,
R335–R342). -/

namespace Sys2Proof.Machine

/-! ### Nodes and their command words -/

/-- The set, running or draining, with a key. -/
def State.setOf (s : State) (key : Nat) : Option RunSet :=
  (s.amt.running.toList ++ s.amt.draining).find? (·.key = key)

/-- A node of a set. -/
def Package.node? (p : Package) (i : Nat) : Option NodeDesc := p.nodes.find? (·.index = i)

/-- The descriptor of a running node. -/
def State.nodeOf (s : State) (n : CoreNode) : Option NodeDesc :=
  if n.locked then (s.setOf n.gset).bind fun r => r.pkg.node? n.node
  else (s.task? n.ctx).bind fun t => t.nodes[n.node]?

/-- A node belongs to a graph. -/
def GraphDesc.holds (g : GraphDesc) (i : Nat) : Bool := g.firstNode ≤ i && i < g.firstNode + g.nodeCount

/-- The graph of a set that holds a node: its index and itself. -/
def Package.graphOf (p : Package) (i : Nat) : Option (Nat × GraphDesc) :=
  ((List.range p.sec.graphs.length).zip p.sec.graphs).find? (·.2.holds i)

/-- The command words from an address up to END, at most `n` (R261). -/
def State.cmdsFrom (s : State) : Nat → Nat → List Cmd
  | 0, _ => []
  | n + 1, a =>
    let c := parseCmd (s.load a 64)
    c :: (if c.last then [] else s.cmdsFrom n (a + 64))

/-- The commands of a node. -/
def State.cmdsOf (s : State) (d : NodeDesc) : List Cmd := s.cmdsFrom 1024 d.cmdAddr

/-- A tensor descriptor of a node (R265). -/
def State.descAt (s : State) (base d : Nat) : Desc := parseDesc (s.load (base + 64 * d) 64)

/-- The rounding keys of a node's present run (R299): seed, graph, step. -/
def State.keysOf (s : State) (n : CoreNode) : Nat × Nat × Nat :=
  if n.locked then
    match s.setOf n.gset with
    | some r => (field r.pkg.bodyDigest 0 8, ((r.pkg.graphOf n.node).map (·.1)).getD 0, lookupD 0 (n.gset, n.node) s.amt.runCounts)
    | none => (0, 0, 0)
  else match s.task? n.ctx with
    | some t => (t.seed, t.graphKey,
        t.stepBase + ((s.amt.openRuns.find? fun x => x.1 = n.ctx ∧ x.2.1 = n.node).map (·.2.2)).getD 0)
    | none => (0, 0xFF, 0)

/-- The node key of a node's present run (R299, R392). -/
def State.nodeKey (s : State) (n : CoreNode) : Nat :=
  if n.locked then n.node
  else match s.task? n.ctx with
    | some t => t.nodeKeys.getD n.node n.node
    | none => n.node

/-! ### Faults of a command -/

/-- What went wrong with a command: the page that reports it, its code, its details, the reason a locked node's
outputs then carry. -/
structure CmdFault where
  page : Page
  code : Nat
  d : List Nat
  reason : Nat

/-- The place of a node in a core, with its command: what the executing functions share. -/
structure Issue where
  u : Nat
  n : CoreNode
  desc : NodeDesc
  cmds : List Cmd
  c : Cmd

/-- The running node is marked poisoned, keeping an earlier reason. -/
def CoreNode.poisoned (n : CoreNode) (reason : Nat) : CoreNode :=
  { n with poison := match n.poison with | some r => some (min r reason) | none => some reason }

/-- The tensor core page's trace of a command fault (R287). -/
def State.traceFault (s : State) (x : Issue) (code : Nat) : State :=
  if code = 0x1030 ∨ (0x3030 ≤ code ∧ code ≤ 0x3033) then
    let p : Page := .tc x.u
    ((((s.wr p TC.LAST_NODE x.n.node).wr p TC.LAST_CMD x.n.cmd).wr p TC.LAST_CLASS x.c.cls).count p
      TC.CNT_CMD_FAULT).raise p 0
  else s

/-- A command fault (chapter 11, "When commands go wrong"): an open task aborts; a locked node executes nothing
further. -/
def State.cmdFault (s : State) (x : Issue) (f : CmdFault) : State :=
  let s1 := s.traceFault x f.code
  if x.n.locked then
    (s1.faultRec f.page f.code (faultMid 0xFF x.u x.n.node) f.d false).setSlot x.u { x.n.poisoned f.reason with dead := true }
  else s1.taskFault f.page f.code x.n.ctx x.u x.n.node f.d

/-! ### Operands in memory -/

/-- The device address at which a space begins; SPACE 0b10 is an address of its own. -/
def spaceBase (u space : Nat) : Nat := if space = 0 then spmBase u else if space = 1 then cmemBase (u / 4) else 0

/-- The code of an element (R304). -/
def State.codeAt (s : State) (u : Nat) (d : Desc) (p : List Nat) : Nat :=
  let j := if d.bcast0 then 0 else nth p 0
  let g := fmtGroup d.fmt
  let w := fmtBits d.fmt
  let a := (spaceBase u d.space : Int) + d.segment p + g.2 * (j / g.1)
  bits (s.loadNat a.toNat g.2) (w * (j % g.1) + w - 1) (w * (j % g.1))

/-- An operand in the scratchpad or the cluster memory. -/
def State.opnd (s : State) (u : Nat) (d : Desc) : Opnd := ⟨d.sizes, fun p => decodeElem d.fmt (s.codeAt u d p)⟩

/-- The element codes of a tensor in logical order. -/
def State.codesOf (s : State) (u : Nat) (d : Desc) : List Nat :=
  (List.range (prodN d.sizes)).map fun i => s.codeAt u d (coordsOf d.sizes i)

/-- The rows of a tensor: address within its space, length (R304). -/
def Desc.rows (d : Desc) : List (Nat × Nat) :=
  (List.range (prodN (d.sizes.drop 1))).map fun i => ((d.segment (0 :: coordsOf (d.sizes.drop 1) i)).toNat, d.segBytes)

/-- Bytes stored by a node: an open node's writes mark their segment (R345). -/
def State.nodeStore (s : State) (n : CoreNode) (a : Nat) (b : List Byte) : State :=
  if n.locked then s.store a b else (s.markWrite n.ctx a).store a b

/-- Codes written to a tensor, row by row (R292, R304). -/
def State.putCodes (s : State) (n : CoreNode) (u : Nat) (d : Desc) (l : List Nat) : State :=
  ((d.rows).zip (List.range d.rows.length)).foldl (fun s x =>
    s.nodeStore n (spaceBase u d.space + x.1.1) (packRow d.fmt (slice l (x.2 * d.size 0) (d.size 0)))) s

/-- A stage's output as an operand. -/
def stageOpnd (x : List Nat × StageOut) : Opnd :=
  match x.2 with
  | .codes f l => ⟨x.1, fun p => decodeElem f (nth l (indexOf x.1 p))⟩
  | .vals l => ⟨x.1, fun p => l.getD (indexOf x.1 p) .nan⟩

/-- Operand A: the descriptor's, or what the stage before handed on (R282). -/
def State.opndA (s : State) (x : Issue) : Opnd :=
  match x.n.stage with
  | some st => stageOpnd st
  | none => s.opnd x.u (s.descAt x.desc.cmdAddr x.c.dA)

/-- An operand by its descriptor reference, if present. -/
def State.opnd? (s : State) (x : Issue) (d : Nat) : Option Opnd :=
  if d = 0 then none else some (s.opnd x.u (s.descAt x.desc.cmdAddr d))

/-! ### Checks at issue (R266, R282, R306, R316, R317, R333) -/

/-- The descriptors a command names: reference, whether it is the output, the format it must have. -/
def Cmd.refs (c : Cmd) : List (Nat × Bool × Option Nat) :=
  [(c.dA, false, some c.fmtA), (c.dB, false, if c.cls = 8 then some 4 else some c.fmtB), (c.dC, true, some c.fmtC),
   (c.dSA, c.cls = 0xA, if c.mxe || c.cls = 0xA then some 0xF else if c.cls = 5 then some (if c.op = 0 then 0xE else c.fmtC) else none),
   (c.dSB, false, if c.mxe || c.cls = 0xA then some 0xF else none)].filter fun r => r.1 ≠ 0

/-- The output of a move carries the format of its input (R293, R313). -/
def Cmd.moves (c : Cmd) : Bool := c.cls = 8 || c.cls = 9 || c.cls = 0xB

/-- Spaces an operand may lie in (R306). -/
def Cmd.spaceOk (c : Cmd) (ref space : Nat) : Bool :=
  if space = 2 then c.cls = 0xB && (ref = c.dA || ref = c.dC)
  else if c.mxe && (ref = c.dA || ref = c.dB) then space = 0 else true

/-- A SCATTER's C is absent; its A is read. Segments of the cache cannot be addressed (R333). -/
def State.descRange (s : State) (u : Nat) (d : Desc) : Bool :=
  d.inRange && !(d.space = 1 && decide (((64 - s.cacheSegs (u / 4)) * 65536 : Nat) ≤ d.span.2))

/-- The chain rings that the chain of command `i` uses (R282), as a mask: 0 of a leading COPY, 1 of the LXE's output,
2 of what a trailing COPY writes. -/
def chainRings (cs : List Cmd) (i : Nat) : Nat :=
  let a := chainStart cs i
  let z := chainEnd cs 8 a
  let at_ (k : Nat) (f : Cmd → Bool) : Bool := match cs[k]? with | some c => f c | none => false
  let mid := (List.range (z - a)).any fun k => at_ (a + k) fun c => c.cls = 8 || c.cls = 9
  let tail : Bool := at_ z (·.cls = 0xB) && at_ (z - 1) fun c => c.vxe || c.mxe
  if z = a then 0 else b2n (at_ a (·.cls = 0xB)) + 2 * b2n mid + 4 * b2n tail

/-- The chain rings reserved on a core (R282): those of the chains that run. -/
def State.ringsResv (s : State) (u : Nat) : Nat :=
  (s.core u).nodes.foldl (fun m n =>
    match n.busy, s.nodeOf n with
    | true, some d => m ||| chainRings (s.cmdsOf d) n.cmd
    | _, _ => m) 0

/-- A span touches one of the chain rings of a mask (R282). -/
def touchesRing (mask : Nat) (d : Desc) : Bool :=
  d.space = 0 && (List.range 3).any fun r => mask.testBit r &&
    decide (d.span.1 < 0x1D0000 + (r + 1) * 0x10000 ∧ (0x1D0000 + r * 0x10000 : Int) ≤ d.span.2)

/-- The exchange network takes a permutation (R314). -/
def netTakes (c : Cmd) (a : Desc) : Bool :=
  (fmtBits a.fmt = 8 || fmtBits a.fmt = 16) && permOf c 0 ≠ 0 && a.size 0 ≤ 64 && a.size (permOf c 0) ≤ 64

/-- A TRANSPOSE or PERMUTE may run in place (R316). -/
def inPlace (c : Cmd) (a d : Desc) : Bool := a.raw = d.raw && netTakes c a && a.size 0 = a.size (permOf c 0)

/-- The scale array that a CONVERT writes reaches one of its inputs (R317). -/
def State.scalesOverlap (s : State) (x : Issue) : Bool :=
  x.c.cls = 0xA && x.c.dSA ≠ 0 && [x.c.dA, x.c.dSB].any fun r =>
    r ≠ 0 && (s.descAt x.desc.cmdAddr r).overlaps (s.descAt x.desc.cmdAddr x.c.dSA)

/-- An output that reaches an input in a way the rules refuse (R282, R316, R317). -/
def State.overlapRefused (s : State) (x : Issue) : Bool :=
  let c := x.c
  if s.scalesOverlap x then true
  else if c.dC = 0 then false
  else
    let dc := s.descAt x.desc.cmdAddr c.dC
    [c.dA, c.dB, c.dSA, c.dSB].any fun r =>
      r ≠ 0 && !(r = c.dSA && c.cls = 0xA) &&
      (let d := s.descAt x.desc.cmdAddr r
       d.overlaps dc &&
        (if c.mxe then r = c.dA || r = c.dB
         else if c.cls = 9 then !inPlace c d dc
         else if c.cls = 3 || c.cls = 5 || c.cls = 0xA then d.raw ≠ dc.raw
         else if c.cls = 0xB then d.raw ≠ dc.raw
         else true))

/-- PERMUTE's own checks (R313). -/
def State.permInvalid (s : State) (x : Issue) : Bool :=
  let c := x.c
  c.cls = 9 &&
    (match x.n.stage with
     | some _ => false
     | none =>
       let a := s.descAt x.desc.cmdAddr c.dA
       !permOk c a.rank || (fmtPacked a.fmt && permOf c 0 ≠ 0)
         || (c.dC ≠ 0 && ((s.descAt x.desc.cmdAddr c.dC).sizes ≠ permSizes c a.rank a.sizes || c.fmtA ≠ c.fmtC)))

/-- A coordinate list that is no list of R322, or whose length is not that of the slices (R323, R324; log 91). -/
def State.listInvalid (s : State) (x : Issue) : Bool :=
  let c := x.c
  c.cls = 8 &&
    (let b := s.descAt x.desc.cmdAddr c.dB
     let t := if c.op = 0 then c.dC else c.dA
     let d := s.descAt x.desc.cmdAddr t
     b.rank ≠ 2 || b.size 0 ≠ 4 || 65536 < b.size 1 || (t ≠ 0 && d.size (d.rank - 1) ≠ b.size 1))

/-- The shape on which a CONV works, when it has a descriptor or a stage before it. -/
def State.convOk (s : State) (x : Issue) : Bool :=
  x.c.cls ≠ 2 || (let hw := convInput (s.opndA x); convSizeOk x.c hw.1 hw.2)

/-- The first failure among a command's descriptors (R306). -/
def State.descFault (s : State) (x : Issue) : Option CmdFault :=
  (x.c.refs.map fun r => (r, s.descAt x.desc.cmdAddr r.1)).findSome? fun (r, d) =>
    if !d.ok then some ⟨.tc x.u, 0x1030, [r.1], 0x20⟩
    else if d.invalid || (match r.2.2 with | some f => d.fmt ≠ f | none => false) || !x.c.spaceOk r.1 d.space
        || (r.2.1 && !d.outputOk) then some ⟨.tc x.u, 0x3030, [r.1], 0x20⟩
    else if !s.descRange x.u d then some ⟨.tc x.u, 0x4040, [r.1], 0x20⟩
    else none

/-- Every check made when a command issues; none when it may run. -/
def State.issueFault (s : State) (x : Issue) : Option CmdFault :=
  let c := x.c
  let f (code : Nat) : Option CmdFault := some ⟨.tc x.u, code, [], 0x20⟩
  if !c.ok then f 0x1030
  else if cmdInvalid x.cmds x.n.cmd c then f 0x3030
  else match s.descFault x with
    | some e => some e
    | none =>
      let toCmem : Bool := c.cls = 8 || (c.dC ≠ 0 && (s.descAt x.desc.cmdAddr c.dC).space = 1)
      if s.permInvalid x || s.listInvalid x || !s.convOk x then f 0x3030
      else if c.mayVaryAdd (if c.cls = 8 then c.fmtA else c.fmtC) toCmem && !c.mayVary then f 0x3031
      else if s.overlapRefused x
          || c.refs.any (fun r => touchesRing (s.ringsResv x.u ||| chainRings x.cmds x.n.cmd) (s.descAt x.desc.cmdAddr r.1))
      then f 0x3032
      else none

/-! ### Writing results -/

/-- The 32-bit word that rounds an element (R298, R299). -/
def State.roundWord (s : State) (x : Issue) (elem : Nat) : Nat :=
  let k := s.keysOf x.n
  if x.c.rnd = 5 then srGen k.1 k.2.1 (s.nodeKey x.n) x.n.cmd k.2.2 elem else 0

/-- Values converted to FMT_C, element by element. -/
def State.encodeAll (s : State) (x : Issue) (fmt : Nat) (l : List Num) : List Enc :=
  (l.zip (List.range l.length)).map fun v => encodeElem fmt x.c.rnd (s.roundWord x v.2) v.1

/-- Saturations and non-finite results counted (R272, R297). -/
def State.tally (s : State) (u sat nonfin : Nat) : State :=
  (s.count (.tc u) TC.CNT_SAT sat).count (.tc u) TC.CNT_NONFINITE nonfin

/-- The counts of a list of conversions. -/
def encTally (l : List Enc) : Nat × Nat := ((l.map (·.sat)).foldl (· + ·) 0, (l.map (·.nonfin)).foldl (· + ·) 0)

/-- Two elements combined at a destination (R276): op 1 add, 2 max, 3 min; integer add wraps. -/
def combineElem (fmt op old new : Nat) : Nat :=
  let a := decodeElem fmt old
  let b := decodeElem fmt new
  if op = 1 then
    if fmtInteger fmt then (old + new) % 2 ^ fmtBits fmt else (encodeElem fmt 0 0 (a.add b)).code
  else (encodeElem fmt 0 0 (if op = 2 then a.max b else a.min b)).code

/-- One contribution element applied to memory. -/
def State.combineAt (s : State) (n : CoreNode) (fmt op a v : Nat) : State :=
  let w := fmtBits fmt / 8
  s.nodeStore n a (leBytes w (combineElem fmt op (s.loadNat a w) v))

/-- The device addresses of a tensor's elements, for the formats that are not packed. -/
def Desc.elemAddrs (d : Desc) (u : Nat) : List Nat :=
  (List.range (prodN d.sizes)).map fun i =>
    let p := coordsOf d.sizes i
    ((spaceBase u d.space : Int) + d.segment p + nth p 0 * (fmtBits d.fmt / 8)).toNat

/-- Whether a contribution must wait its order (R279): the command or its job asks for it. -/
def State.isOrdered (s : State) (x : Issue) : Bool :=
  x.c.mayVary && (x.c.ordered || (!x.n.locked && (match s.task? x.n.ctx with | some t => t.job.ordered | none => false)))

/-- A contribution of a lower core is still to come (R279; log 21): a node of the task with MAYVARY on a lower core that has not
completed. -/
def Task.earlierOpen (t : Task) (core : Nat) : Bool :=
  t.nodes.any fun d => d.mayVary && d.coreIndex < core && !(d.index ∈ t.completed)

/-- Elements enter the digest of a running place (R387): each code in whole bytes. -/
def State.digest (s : State) (u slot fmt : Nat) (l : List Nat) (combined : Bool := false) : State :=
  match s.slotNode u slot with
  | none => s
  | some n =>
    let w := ceilDiv (fmtBits fmt) 8
    s.setSlot u { n with digest := n.digest.add (l.flatMap (leBytes w)), combined := n.combined || combined }

/-- Contributions to a shared destination (R276–R279): ordered ones wait their turn; an unordered floating-point sum is a free
value (log 3). -/
def State.contribute (s : State) (x : Issue) (fmt op : Nat) (l : List (Nat × Nat)) : State :=
  let core := x.u % 4
  let c : Contribution := ⟨core, x.n.ctx, x.n.cmd, op, fmt, l⟩
  let early : Bool := match s.task? x.n.ctx with | some t => t.earlierOpen core | none => false
  let behind : Bool := s.fabric.combine.any fun y => y.ctx = x.n.ctx && y.core ≤ core
  if s.isOrdered x ∧ (early ∨ behind) then { s with fabric := { s.fabric with combine := s.fabric.combine ++ [c] } }
  else if op = 1 ∧ !fmtInteger fmt ∧ !s.isOrdered x then
    l.foldl (fun s v =>
      let w := fmtBits fmt / 8
      let d := s.draw
      d.2.nodeStore x.n v.1 (leBytes w d.1)) s
  else l.foldl (fun s v => s.combineAt x.n fmt op v.1 v.2) s

/-- A stage's result goes where it belongs: to the next stage, or to C (R272, R276, R282, R296). -/
def State.finishVals (s : State) (x : Issue) (sh : List Nat) (v : Vals) : State :=
  let toCopy : Bool := match x.cmds[x.n.cmd + 1]? with | some c => x.c.chain && c.cls = 0xB | none => false
  if x.c.chain && !toCopy then
    let nf := (v.v.filter (·.nonFinite)).length
    (s.tally x.u v.sat nf).setSlot x.u { x.n with stage := some (sh, .vals v.v) }
  else
    let e := s.encodeAll x x.c.fmtC v.v
    let t := encTally e
    let s1 := s.tally x.u (v.sat + t.1) t.2
    if x.c.chain then s1.setSlot x.u { x.n with stage := some (sh, .codes x.c.fmtC (e.map (·.code))) }
    else
      let d := s.descAt x.desc.cmdAddr x.c.dC
      let sharedOp : Nat := if x.c.mxe then b2n x.c.acc else x.c.combine
      if x.c.shared && d.space = 1 && sharedOp ≠ 0 && (x.c.mxe || x.c.cls = 4) then
        (s1.digest x.u x.n.slot x.c.fmtC (e.map (·.code)) true).contribute x x.c.fmtC sharedOp
          ((d.elemAddrs x.u).zip (e.map (·.code)))
      else (s1.digest x.u x.n.slot x.c.fmtC (e.map (·.code))).putCodes x.n x.u d (e.map (·.code))

/-! ### The classes -/

/-- Clocks the model does not count: counters of clocks move on by a free amount (log 3). -/
def State.countClocks (s : State) (p : Page) (lo hi : RField) : State :=
  let d := s.draw
  d.2.wr2 p lo hi ((s.rd2 p lo hi + d.1) % 2 ^ 64)

/-- The engines' busy clocks after a command. -/
def State.busyClocks (s : State) (u mask : Nat) : State :=
  (List.range 4).foldl (fun s e => if mask.testBit e then s.countClocks (.eng u e) ENG.CNT_BUSY_LO ENG.CNT_BUSY_HI else s) s

/-- MATMUL and CONV (R268–R271). -/
def State.runMxe (s : State) (x : Issue) : State :=
  let c := x.c
  let a := s.opndA x
  let b := s.opnd x.u (s.descAt x.desc.cmdAddr c.dB)
  let sa := s.opnd? x c.dSA
  let sb := s.opnd? x c.dSB
  let total := if c.cls = 1 then c.m * c.n else c.n * c.ow * c.oh * c.m
  let sh := if c.cls = 1 then [c.n, c.m, 1, 1, 1, 1] else [c.n, c.ow, c.oh, c.m, 1, 1]
  let dC := s.descAt x.desc.cmdAddr c.dC
  let start (i : Nat) : Num :=
    if c.acc && !c.shared && c.dC ≠ 0 then
      let v := (s.opnd x.u dC).nth i
      if c.integer then v else f32 v
    else .zero
  let v := (List.range total).map fun i => if c.cls = 1 then matmulElem c a b sa sb (start i) i else convElem c a b sa sb (start i) i
  let macs := if c.cls = 1 then c.m * c.n * c.k else total * (c.kh * c.kw * (c.k / max 1 c.groups))
  let s1 := s.countClocks (.tc x.u) TC.CNT_MXE_LO TC.CNT_MXE_HI
  let s2 := s1.wr2 (.tc x.u) TC.CNT_MAC_LO TC.CNT_MAC_HI
    (min (2 ^ 64 - 1) (s1.rd2 (.tc x.u) TC.CNT_MAC_LO TC.CNT_MAC_HI + macs / 1024))
  s2.finishVals x sh ⟨v, 0⟩

/-- The shape a VXE stage works on: C's for a command by itself, else that of its input. -/
def State.shapeOf (s : State) (x : Issue) : List Nat :=
  if x.c.dC ≠ 0 ∧ x.c.cls ≠ 4 then (s.descAt x.desc.cmdAddr x.c.dC).sizes else (s.opndA x).sizes

/-- ELTWISE (R267, R272). -/
def State.runEltwise (s : State) (x : Issue) : State :=
  let sh := s.shapeOf x
  let imm := Opnd.scalar (immOf x.c.ctype x.c.imm0)
  s.finishVals x sh (eltwiseAll x.c sh (s.opndA x) ((s.opnd? x x.c.dB).getD imm) ((s.opnd? x x.c.dSA).getD imm)
    ((s.opnd? x x.c.dSB).getD imm))

/-- REDUCE (R273). -/
def State.runReduce (s : State) (x : Issue) : State :=
  let a := s.opndA x
  s.finishVals x (a.sizes.set x.c.axis 1) (reduceAll x.c a.sizes a)

/-- NORM and SOFTMAX (R274). -/
def State.runLinewise (s : State) (x : Issue) : State :=
  let sh := s.shapeOf x
  let par (o : Option Opnd) (i : Nat) : Num := match o with | some p => f32 (p.get [i]) | none => .zero
  let line (l : List Num) : List Num :=
    if x.c.cls = 7 then softmaxLine x.c l else normLine x.c l (par (s.opnd? x x.c.dSA)) (par (s.opnd? x x.c.dSB))
  s.finishVals x sh (linewise x.c sh (s.opndA x) line)

/-- Codes handed to the next stage, or written to C. -/
def State.finishCodes (s : State) (x : Issue) (sh : List Nat) (fmt : Nat) (l : List Nat) : State :=
  if x.c.chain then s.setSlot x.u { x.n with stage := some (sh, .codes fmt l) }
  else (s.digest x.u x.n.slot fmt l).putCodes x.n x.u (s.descAt x.desc.cmdAddr x.c.dC) l

/-- LUT (R275). -/
def State.runLut (s : State) (x : Issue) : State :=
  let sh := s.shapeOf x
  let a := s.opndA x
  let t := s.opnd x.u (s.descAt x.desc.cmdAddr x.c.dSA)
  if x.c.op = 0 then
    s.finishVals x sh ⟨(List.range (prodN sh)).map fun i => pwl x.c (fun k => t.get [k]) (f32 (a.get (coordsOf sh i))), 0⟩
  else
    let idx (p : List Nat) : Nat := match a.get p with
      | .fin neg m e => ofInt 8 (scaled neg m e (min e 0))
      | _ => 0
    let d := s.descAt x.desc.cmdAddr x.c.dSA
    s.finishCodes x sh x.c.fmtC ((List.range (prodN sh)).map fun i => s.codeAt x.u d [idx (coordsOf sh i)])

/-- The blocks of a block-scaled CONVERT (R301, R302): its scale array written, its element codes answered. -/
def State.runBlockConvert (s : State) (x : Issue) (sh : List Nat) (a : Opnd) : State :=
  let c := x.c
  let dS := s.descAt x.desc.cmdAddr c.dSA
  let n := sh.getD c.axis 1
  let block (p : List Nat) (b : Nat) : List Num :=
    (List.range (min 32 (n - 32 * b))).map fun i => (ctRound c.ctype (a.get (p.set c.axis (32 * b + i)))).1
  let scale (p : List Nat) : Nat := blockScale c.fmtC (block p (p.getD c.axis 0 / 32))
  let enc := (List.range (prodN sh)).map fun i =>
    let p := coordsOf sh i
    blockElem c.fmtC c.rnd (s.roundWord x i) (scale p) (ctRound c.ctype (a.get p)).1
  let t := encTally enc
  let scales := (List.range (prodN dS.sizes)).map fun i =>
    let p := coordsOf dS.sizes i
    scale (p.set c.axis (32 * p.getD c.axis 0))
  ((s.tally x.u t.1 t.2).finishCodes x sh c.fmtC (enc.map (·.code))).putCodes x.n x.u dS scales

/-- CONVERT (R272, R296, R302); with SB present A carries scales along AXIS (R293; log 17). -/
def State.runConvert (s : State) (x : Issue) : State :=
  let c := x.c
  let sh := s.shapeOf x
  let a0 := s.opndA x
  let a : Opnd := match s.opnd? x c.dSB with
    | some sb => ⟨a0.sizes, fun p => (a0.get p).mul (sb.get (p.set c.axis (p.getD c.axis 0 / 32)))⟩
    | none => a0
  if c.dSA ≠ 0 then s.runBlockConvert x sh a
  else s.finishVals x sh (joinVals ((List.range (prodN sh)).map fun i => ((ctRound c.ctype (a.get (coordsOf sh i))).1, 0)))

/-- TRANSPOSE and PERMUTE (R313). -/
def State.runPermute (s : State) (x : Issue) : State :=
  let c := x.c
  let src : List Nat × Nat × (List Nat → Nat) := match x.n.stage with
    | some (sz, .codes f l) => (sz, f, fun p => nth l (indexOf sz p))
    | some (sz, .vals _) => (sz, c.fmtA, fun _ => 0)
    | none =>
      let d := s.descAt x.desc.cmdAddr c.dA
      (d.sizes, d.fmt, s.codeAt x.u d)
  let rank := if x.n.stage.isSome then 6 else (s.descAt x.desc.cmdAddr c.dA).rank
  let out := permSizes c rank src.1
  s.finishCodes x out src.2.1 ((List.range (prodN out)).map fun i => src.2.2 (permCoords c rank (coordsOf out i)))

/-! ### COPY (R267, R363–R367) -/

/-- The fault of an access by a node: its record's page, code and details. -/
def accessFault (f : AccessFault) : CmdFault := ⟨.mmu, f.code, f.details, 0x21⟩

/-- Device ranges of a COPY operand as a node may reach them: physical pieces, or a fault (R363, R367). -/
def State.reach (s : State) (x : Issue) (write : Bool) (l : List (Nat × Nat)) :
    List (Nat × Nat) × Option CmdFault × State :=
  if x.n.locked then
    match l.find? fun r => !s.inWindows r.1 r.2 with
    | some r => ([], some (accessFault ⟨0x5004, r.1, 0, 0⟩), s)
    | none => (l, none, s)
  else
    let y := s.xlateAll x.n.ctx write (cutRanges l)
    (y.1, y.2.1.map accessFault, y.2.2)

/-- The first line of the pieces that the ECC cannot correct (R359). -/
def State.badIn (s : State) (l : List (Nat × Nat)) : Option Nat :=
  l.findSome? fun r => ((List.range ((r.1 + r.2 - 1) / 64 + 1 - r.1 / 64)).map (· + r.1 / 64)).find? (· ∈ s.fabric.badLines)

/-- An uncorrectable line noted by the MC (R359, R377). -/
def State.noteUncorr (s : State) (line : Nat) : State :=
  let a := line * 64
  (s.wr2 .mc MC.LAST_UNCORR_LO MC.LAST_UNCORR_HI a).count (.mcg (gddrChannel a / 8)) MCG.CNT_ECC_UNCORR 1 (gddrChannel a % 8)

/-- Requests to host windows for pieces (R92): at most 4096 bytes each, none crossing 4096. `dest`: where read data goes. -/
def hostCuts : Nat → Nat → Nat → List (Nat × Nat)
  | 0, _, _ => []
  | k + 1, a, n => if n = 0 then [] else
    let m := min n (4096 - a % 4096)
    (a, m) :: hostCuts k (a + m) (n - m)

/-- A request to a host window sent (R92, R366): the port is UP. -/
def State.hostRequest (s : State) (ctx unit channel : Nat) (write : Bool) (a n dest : Nat) (data : List Byte) : State :=
  let p := bits a 46 46
  let x := s.port p
  let t := x.nextHostTag
  let rq : HostReq := ⟨t, ctx, unit, channel, write, a, n, s.time.beatNo, dest⟩
  let s1 := s.setPort p { x with nextHostTag := (t + 1) % 65536, hostReqs := x.hostReqs ++ [rq] }
  s1.queueMsg p { mtype := if write then 0x31 else 0x30, sid := 0, tag := t, param := if write then 0 else n
                  addr := bits a 45 0, body := data, ticket := none }

/-- Bytes copied piece by piece from the source pieces to the destination pieces, both already translated. -/
def State.gatherBytes (s : State) (l : List (Nat × Nat)) : List Byte := l.flatMap fun r => s.load r.1 r.2

/-- Bytes laid over pieces in order. -/
def State.scatterBytes (s : State) (n : CoreNode) (u : Nat) : List (Nat × Nat) → List Byte → State
  | [], _ => s
  | (a, k) :: r, b =>
    let s1 := if isHost a then
        let cuts := hostCuts (k / 4096 + 2) a k
        cuts.foldl (fun s c => s.hostRequest n.ctx u (8 + n.slot) true c.1 c.2 0 (slice b (c.1 - a) c.2)) s
      else s.nodeStore n a (b.take k)
    s1.scatterBytes n u r (b.drop k)

/-- Host window reads of a COPY: their data goes straight to the destination pieces, both walked together. -/
def State.hostFetch (s : State) (n : CoreNode) (u : Nat) : List (Nat × Nat) → List Nat → State
  | (a, k) :: r, dests =>
    let s1 := if isHost a then
        (hostCuts (k / 4096 + 2) a k).foldl (fun s c =>
          s.hostRequest n.ctx u (8 + n.slot) false c.1 c.2 (nth dests 0 + (c.1 - a)) []) s
      else s
    s1.hostFetch n u r (dests.drop 1)
  | [], _ => s

/-- The ranges of a COPY operand: device addresses before translation. -/
def copyRows (u : Nat) (d : Desc) : List (Nat × Nat) := d.rows.map fun r => (spaceBase u d.space + r.1, r.2)

/-- COPY (R267, R317): identical descriptors move nothing. -/
def State.runCopy (s : State) (x : Issue) : State × Option CmdFault :=
  let c := x.c
  let dA := s.descAt x.desc.cmdAddr c.dA
  let dC := s.descAt x.desc.cmdAddr c.dC
  if c.dA ≠ 0 ∧ c.dC ≠ 0 ∧ dA.raw = dC.raw then (s, none)
  else
    let rowsA := if c.dA = 0 then [] else copyRows x.u dA
    let rd := if c.dA ≠ 0 ∧ dA.space = 2 then s.reach x false rowsA else (rowsA, none, s)
    match rd.2.1, rd.1.find? (fun r => isHost r.1 && !rd.2.2.portUp (bits r.1 46 46)), rd.2.2.badIn rd.1 with
    | some f, _, _ => (rd.2.2, some f)
    | none, some r, _ => (rd.2.2, some ⟨.hlk (bits r.1 46 46), 0x2040, [], 0x21⟩)
    | none, none, some line => (rd.2.2.noteUncorr line, some ⟨.mc, 0x1040, [line * 64 % 2 ^ 32, line * 64 / 2 ^ 32], 0x20⟩)
    | none, none, none =>
      let s1 := rd.2.2
      let codes : List Nat := match x.n.stage with
        | some (_, .codes _ l) => l
        | some (_, .vals _) => []
        | none => unpackRow dA.fmt 0 [] ++ (if dA.space = 2 then
            (let b := s1.gatherBytes rd.1
             (List.range dA.rows.length).flatMap fun i => unpackRow dA.fmt (dA.size 0) (slice b (i * dA.segBytes) dA.segBytes))
            else s1.codesOf x.u dA)
      let sh := match x.n.stage with | some st => st.1 | none => dA.sizes
      if c.chain then (s1.setSlot x.u { x.n with stage := some (sh, .codes dA.fmt codes) }, none)
      else if dC.space ≠ 2 then
        let s2 := (s1.digest x.u x.n.slot dC.fmt codes).putCodes x.n x.u dC codes
        (s2.hostFetch x.n x.u rd.1 ((copyRows x.u dC).map (·.1)), none)
      else
        let wr := s1.reach x true (copyRows x.u dC)
        match wr.2.1, wr.1.find? (fun r => isHost r.1 && !wr.2.2.portUp (bits r.1 46 46)) with
        | some f, _ => (wr.2.2, some f)
        | none, some r => (wr.2.2, some ⟨.hlk (bits r.1 46 46), 0x2040, [], 0x21⟩)
        | none, none =>
          let bytes := (List.range dC.rows.length).flatMap fun i => packRow dC.fmt (slice codes (i * dC.size 0) (dC.size 0))
          ((wr.2.2.digest x.u x.n.slot dC.fmt codes).scatterBytes x.n x.u wr.1 bytes, none)

/-! ### GATHER and SCATTER (R318–R325) -/

/-- A BOD entry (R318). -/
def State.bodEntry (s : State) (i : Nat) : Nat := lookupD 0 i s.fabric.bod

/-- What a list position resolves to: a block's device address and size, or the fault of R325. -/
def State.resolveBlock (s : State) (locked : Bool) (w : List Int) (slice : Nat) : Except Nat (Nat × Nat) :=
  let r := (bits (ofInt 16 (w.getD 3 0)) 5 0)
  let g := [s.rd .bod BODR.GRID0 r, s.rd .bod BODR.GRID1 r, s.rd .bod BODR.GRID2 r]
  let b := [w.getD 0 0, w.getD 1 0, w.getD 2 0]
  let e := s.bodEntry (s.rd .bod BODR.BASE_ENTRY r + (b.getD 0 0).toNat + nth g 0 * ((b.getD 1 0).toNat + nth g 1 * (b.getD 2 0).toNat))
  let size := 2 ^ s.rd .bod BODR.BLOCK_LOG2 r
  let off := bits e 57 16 * 64
  let c := bits e 5 3
  let u := 4 * c + bits e 7 6
  if bits (ofInt 16 (w.getD 3 0)) 15 6 ≠ 0 ∨ s.rd .bod BODR.EN r = 0
      ∨ (b.zip g).any (fun x => x.1 < 0 || (x.2 : Int) ≤ x.1) then .error 0x4050
  else if !e.testBit 0 ∨ (bits e 2 1 = 2 ∧ (s.disabled u || s.retired u))
      ∨ (bits e 2 1 = 1 ∧ 64 - s.cacheSegs c ≤ off / 65536) then .error 0x4051
  else if size ≠ slice ∨ (s.rd .bod BODR.LOCKED r = 1) ≠ (locked = true) then .error 0x4052
  else .ok (if bits e 2 1 = 0 then off else if bits e 2 1 = 1 then cmemBase c + off else spmBase u + off, size)

/-- The extents of one slice, and its bytes (R323). -/
def sliceShape (d : Desc) : List Nat × Nat :=
  let sh := d.sizes.set (d.rank - 1) 1
  (sh, prodN (sh.drop 1) * rowBytes d.fmt (sh.getD 0 1))

/-- The four words of a list position (R322). -/
def State.listEntry (s : State) (x : Issue) (d : Desc) (i : Nat) : List Int :=
  (List.range 4).map fun k => toInt 16 (s.codeAt x.u d [k, i])

/-- The fault of a list position (R325), its position and entry in the details. -/
def coordFault (code i : Nat) (w : List Int) : CmdFault :=
  let n (k : Nat) : Nat := ofInt 16 (w.getD k 0)
  ⟨.bod, code, [i, n 0 + 65536 * n 1, n 2 + 65536 * n 3], 0x21⟩

/-- GATHER (R323): blocks in list order into the slices of C. -/
def State.gatherN (s : State) (x : Issue) (dB : Desc) (fmt slice : Nat) : Nat → Nat → List Nat → State × Option CmdFault × List Nat
  | 0, _, acc => (s, none, acc)
  | n + 1, i, acc =>
    let w := s.listEntry x dB i
    match s.resolveBlock x.n.locked w slice with
    | .error c => (s, some (coordFault c i w), acc)
    | .ok (a, size) =>
      match s.badIn [(a, size)] with
      | some line => (s.noteUncorr line, some ⟨.mc, 0x1040, [line * 64 % 2 ^ 32, line * 64 / 2 ^ 32], 0x20⟩, acc)
      | none => s.gatherN x dB fmt slice n (i + 1) (acc ++ unpackRow fmt (size / (fmtGroup fmt).2 * (fmtGroup fmt).1) (s.load a size))

/-- GATHER with its faults; positions before a fault may have moved. -/
def State.runGather (s : State) (x : Issue) : State × Option CmdFault :=
  let c := x.c
  let dB := s.descAt x.desc.cmdAddr c.dB
  let dC := s.descAt x.desc.cmdAddr c.dC
  let slice := if c.dC ≠ 0 then (sliceShape dC).2 else 2 ^ s.rd .bod BODR.BLOCK_LOG2 (bits (ofInt 16 ((s.listEntry x dB 0).getD 3 0)) 5 0)
  let g := s.gatherN x dB c.fmtC slice (dB.size 1) 0 []
  let sh := [slice / (fmtGroup c.fmtC).2 * (fmtGroup c.fmtC).1, dB.size 1, 1, 1, 1, 1]
  match g.2.1 with
  | some f => (if c.dC ≠ 0 then g.1.putCodes x.n x.u dC g.2.2 else g.1, some f)
  | none => (g.1.finishCodes x (if c.dC ≠ 0 then dC.sizes else sh) c.fmtC g.2.2, none)

/-- A slice applied to a block (R324): overwritten, or combined in CTYPE. -/
def State.scatterBlock (s : State) (x : Issue) (fmt a size : Nat) (codes : List Nat) : State :=
  let c := x.c
  let w := fmtBits fmt / 8
  let isCmem : Bool := match s.place a with | .cmem _ _ => true | _ => false
  if c.combine = 0 then s.nodeStore x.n a ((packRow fmt codes).take size)
  else if c.shared && isCmem then s.contribute x fmt c.combine ((List.range codes.length).map fun i => (a + w * i, nth codes i))
  else (List.range codes.length).foldl (fun s i =>
    let old := (ctRound c.ctype (decodeElem fmt (s.loadNat (a + w * i) w))).1
    let new := (ctRound c.ctype (decodeElem fmt (nth codes i))).1
    let r : Num × Nat := if c.combine = 1 then ctRound c.ctype (old.add new) else (if c.combine = 2 then old.max new else old.min new, 0)
    let e := encodeElem fmt c.rnd (s.roundWord x i) r.1
    (s.tally x.u (r.2 + e.sat) e.nonfin).nodeStore x.n (a + w * i) (leBytes w e.code)) s

/-- The block meets the span of A or of the list (R325). -/
def blockMeets (u a size : Nat) (d : Desc) : Bool :=
  let b : Int := spaceBase u d.space
  decide (b + d.span.1 < a + size ∧ (a : Int) ≤ b + d.span.2)

/-- SCATTER (R324): slices in list order into blocks. -/
def State.scatterN (s : State) (x : Issue) (dB : Desc) (dA : Option Desc) (fmt slice per : Nat) (codes : List Nat) :
    Nat → Nat → State × Option CmdFault
  | 0, _ => (s, none)
  | n + 1, i =>
    let w := s.listEntry x dB i
    match s.resolveBlock x.n.locked w slice with
    | .error c => (s, some (coordFault c i w))
    | .ok (a, size) =>
      if blockMeets x.u a size dB || (match dA with | some d => blockMeets x.u a size d | none => false) then
        (s, some (coordFault 0x4052 i w))
      else (s.scatterBlock x fmt a size (Machine.slice codes (i * per) per)).scatterN x dB dA fmt slice per codes n (i + 1)

/-- SCATTER with its faults. -/
def State.runScatter (s : State) (x : Issue) : State × Option CmdFault :=
  let c := x.c
  let dB := s.descAt x.desc.cmdAddr c.dB
  let src : List Nat × Nat × List Nat × Option Desc := match x.n.stage with
    | some (sz, .codes f l) => (sz, f, l, none)
    | some (sz, .vals l) => (sz, c.fmtA, (s.encodeAll x c.fmtA l).map (·.code), none)
    | none => let d := s.descAt x.desc.cmdAddr c.dA; (d.sizes, d.fmt, s.codesOf x.u d, some d)
  let per := prodN src.1 / max 1 (dB.size 1)
  let slice := match src.2.2.2 with
    | some d => (sliceShape d).2
    | none => per * fmtBits src.2.1 / 8
  s.scatterN x dB src.2.2.2 src.2.1 slice per src.2.2.1 (dB.size 1) 0

/-- A gather or scatter fault counted on the BOD page (R327). -/
def State.bodFault (s : State) (f : CmdFault) : State :=
  if 0x4050 ≤ f.code ∧ f.code ≤ 0x4052 then (s.count .bod BOD.CNT_COORD_FAULT).raise .bod 1 else s

end Sys2Proof.Machine
end

