-- ==== Sys2Proof/Machine/NodeRings.lean ====
section
/-! DEFINITION. The rings through which nodes hand data over (R340–R342): those that an open node's flag fields name, a slot for
each run, and those in whose slots the operands of tensor commands lie (log 92). -/

namespace Sys2Proof.Machine

/-! ### Which rings and slots -/

/-- The rings of an open node's flag fields (R340), from a first number. -/
def flagRings (cluster first count : Nat) : List RingRef :=
  ((List.range count).map fun i => RingRef.mk true cluster (first + i)).filter (·.ring < 64)

/-- The input and output rings of an open node's flag fields. -/
def NodeDesc.flagged (d : NodeDesc) (u : Nat) : List RingRef :=
  flagRings (u / 4) d.inFlag d.inCount ++ flagRings (u / 4) d.outFlag d.outCount

/-- Who a node is as a consumer of rings: its context, its number. -/
def nodeConsumer (locked : Bool) (ctx key node : Nat) : Option Nat × Nat :=
  if locked then (none, setConsumer key + node) else (some ctx, 1024 + node)

/-- The consumer that a running place is. -/
def CoreNode.consumer (n : CoreNode) : Option Nat × Nat := nodeConsumer n.locked n.ctx n.gset n.node

/-- The rings of a core and its cluster, enabled and of one discipline, that a node's flag fields do not name; chain rings
apart. -/
def State.dataRings (s : State) (u : Nat) (d : NodeDesc) (locked : Bool) : List RingRef :=
  ((List.range 13).map (fun i => RingRef.mk false u (i + 3)) ++ (List.range 64).map (RingRef.mk true (u / 4) ·)).filter fun r =>
    s.ringOn r && s.ringLocked r = locked && (locked || !(r ∈ d.flagged u))

/-- The slots of a ring that the spans of some descriptors of a node meet. -/
def State.slotsMet (s : State) (u base : Nat) (refs : List Nat) (r : RingRef) : List Nat :=
  (List.range (s.ringN r)).filter fun q => refs.any fun k =>
    let d := s.descAt base k
    d.space ≠ 2 && blockMeets u (s.ringAddr r q) (s.ringSlot r) d

/-- The descriptors that a command reads. -/
def Cmd.inRefs (c : Cmd) : List Nat :=
  ([c.dA, c.dB, c.dSB] ++ (if c.cls = 0xA then [] else [c.dSA]) ++ (if c.acc then [c.dC] else [])).filter (· ≠ 0)

/-- The descriptors that a command writes. -/
def Cmd.outRefs (c : Cmd) : List Nat := ([c.dC] ++ (if c.cls = 0xA then [c.dSA] else [])).filter (· ≠ 0)

/-- The slots of a ring that a command reads. -/
def State.slotsRead (s : State) (x : Issue) (r : RingRef) : List Nat := s.slotsMet x.u x.desc.cmdAddr x.c.inRefs r

/-- The slots of a ring that a command writes. -/
def State.slotsWritten (s : State) (x : Issue) (r : RingRef) : List Nat := s.slotsMet x.u x.desc.cmdAddr x.c.outRefs r

/-! ### Waiting, and poisoned rings (R342, R373) -/

/-- The ring on which an open node must wait before it begins (R342): an empty input or a full output. -/
def State.ringBlocked (s : State) (u ctx : Nat) (d : NodeDesc) : Option RingRef :=
  let who := nodeConsumer false ctx 0 d.index
  ((flagRings (u / 4) d.inFlag d.inCount).find? fun r => s.ringOn r && s.ringEmptyFor r who.1 who.2)
    |>.orElse fun _ => (flagRings (u / 4) d.outFlag d.outCount).find? fun r => s.ringOn r && s.ringFull r

/-- The ring on which a command of an open node must wait: it reads a slot at or beyond T, or writes into a full ring. -/
def State.slotBlocked (s : State) (x : Issue) : Option RingRef :=
  (s.dataRings x.u x.desc false).find? fun r =>
    (s.slotsRead x r).any (s.slotAhead r) || (s.ringFull r && !(s.slotsWritten x r).isEmpty)

/-- The ring on which a command waits; a locked one never does. -/
def State.ringWait (s : State) (x : Issue) : Option RingRef :=
  if x.n.locked then none
  else if x.n.cmd = 0 then (s.ringBlocked x.u x.n.ctx x.desc).orElse fun _ => s.slotBlocked x
  else s.slotBlocked x

/-- An input ring of an open node's flag fields is marked poisoned (R373). -/
def State.readsPoisoned (s : State) (u : Nat) (d : NodeDesc) : Bool :=
  (flagRings (u / 4) d.inFlag d.inCount).any (· ∈ s.fabric.poisonedRings)

/-- A command of an open node reads a poisoned ring (R373). -/
def State.meetsPoison (s : State) (x : Issue) : Bool :=
  !x.n.locked && (s.readsPoisoned x.u x.desc
    || (s.dataRings x.u x.desc false).any fun r => r ∈ s.fabric.poisonedRings && !(s.slotsRead x r).isEmpty)

/-- The slots that a locked command reads at or beyond T (R342). -/
def State.underrun (s : State) (x : Issue) : List (RingRef × Nat) :=
  if !x.n.locked then []
  else (s.dataRings x.u x.desc true).flatMap fun r => ((s.slotsRead x r).filter (s.slotAhead r)).map (r, ·)

/-- The slots of full rings into which a locked command writes (R342). -/
def State.overwrite (s : State) (x : Issue) : List (RingRef × Nat) :=
  if !x.n.locked then []
  else ((s.dataRings x.u x.desc true).filter s.ringFull).flatMap fun r => (s.slotsWritten x r).map (r, ·)

/-! ### Attaching, draining, committing (R341) -/

/-- A node's place in the rings it reads (R340; log 18): a consumer of each. -/
def State.attachNode (s : State) (u : Nat) (d : NodeDesc) (locked : Bool) (who : Option Nat × Nat) : State :=
  let refs := if d.cls = .tensor then (s.cmdsOf d).flatMap Cmd.inRefs else []
  let named := if locked then [] else (flagRings (u / 4) d.inFlag d.inCount).filter s.ringOn
  let met := if refs = [] then [] else (s.dataRings u d locked).filter fun r => !(s.slotsMet u d.cmdAddr refs r).isEmpty
  (named ++ met).foldl (fun s r => s.ringAttach r who.1 who.2) s

/-- The slots that some commands of a node have read are drained, those they have written are filled and committed. -/
def State.passSlots (s : State) (u : Nat) (d : NodeDesc) (locked : Bool) (who : Option Nat × Nat) (cs : List Cmd) : State :=
  (s.dataRings u d locked).foldl (fun t r =>
    (t.ringTake r who (s.slotsMet u d.cmdAddr (cs.flatMap Cmd.inRefs) r).length).ringPut r
      (s.slotsMet u d.cmdAddr (cs.flatMap Cmd.outRefs) r).length) s

/-- Command `i` belongs to a chain of more than one command. -/
def inChain (cs : List Cmd) (i : Nat) : Bool := chainEnd cs 8 (chainStart cs i) ≠ chainStart cs i

/-- The commands of the chain that holds command `i`; none for a command by itself. -/
def chainOf (cs : List Cmd) (i : Nat) : List Cmd :=
  let a := chainStart cs i
  if inChain cs i then (cs.drop a).take (chainEnd cs 8 a - a + 1) else []

/-- The commands that belong to no chain. -/
def singles (cs : List Cmd) : List Cmd :=
  ((cs.zip (List.range cs.length)).filter fun x => !inChain cs x.2).map (·.1)

end Sys2Proof.Machine
end

