-- ==== Sys2Proof/Machine/TensorExec.lean ====
section
/-! DEFINITION. The tensor commands as rows of the opcode table (R267): issue, memory checks, execution, the end of a
chain, re-runs, ring waits, dispatch and completion of open nodes (R244, R261–R263, R279, R283, R335–R344). -/

namespace Sys2Proof.Machine

/-! ### Issue -/

/-- The command that a running place may issue now: its node runs and waits for nothing, and no command or chain is
under way but the one it belongs to (R261, R283). -/
def State.issueOf (s : State) (u slot : Nat) : Option Issue :=
  match s.slotNode u slot with
  | none => none
  | some n =>
    if n.finished || n.dead || n.needsRerun || n.waiting.isSome || (n.busy && n.stage.isNone) then none
    else match s.nodeOf n with
      | none => none
      | some d =>
        let cs := s.cmdsOf d
        if d.cls ≠ .tensor then none else (cs[n.cmd]?).map fun c => ⟨u, n, d, cs, c⟩

/-- A command's operands meet a segment that is being wiped (R345). -/
def State.meetsWipe (s : State) (x : Issue) : Bool :=
  x.c.refs.any fun r =>
    let d := s.descAt x.desc.cmdAddr r.1
    d.space ≠ 2 && s.fabric.wiping.any fun g => blockMeets x.u g.addr 65536 d

/-! ### Memory checks met by a command (R335, R338, R339) -/

/-- The memory page of an SRAM check. -/
def sramPage (u : Nat) (inCmem : Bool) : Page := if inCmem then .cmem (u / 4) else .spm u

/-- An uncorrectable word (R335): a locked node runs on with its outputs poisoned, an open task aborts. -/
def State.sramUncorr (s : State) (x : Issue) (inCmem : Bool) (off : Nat) : State :=
  let p := sramPage x.u inCmem
  let code := if inCmem then 0x1020 else 0x1010
  let s1 := s.count p (if inCmem then CMEM.CNT_UNCORR else SPM.CNT_UNCORR)
  if x.n.locked then
    (s1.faultRec p code (faultMid 0xFF x.u x.n.node) [off] false).setSlot x.u (x.n.poisoned 0x20)
  else s1.taskFault p code x.n.ctx x.u x.n.node [off]

/-- A DETECT error: the run is abandoned and waits to start again, or the node has failed (R338, R339). -/
def State.sramDetect (s : State) (x : Issue) : State :=
  if !x.n.reran && !x.n.noRerun then s.setSlot x.u { x.n with needsRerun := true, busy := false, stage := none }
  else
    let p : Page := .spm x.u
    let s1 := s.count p SPM.CNT_RERUN_FAIL
    if x.n.locked then
      (s1.faultRec p 0x1012 (faultMid 0xFF x.u x.n.node) [] false).setSlot x.u
        { x.n.poisoned 0x20 with dead := true, busy := false, stage := none }
    else s1.taskFault p 0x1012 x.n.ctx x.u x.n.node []

/-! ### Execution -/

/-- The effect of a command by its class (R267). -/
def State.runCmd (s : State) (x : Issue) : State × Option CmdFault :=
  if x.c.mxe then (s.runMxe x, none)
  else if x.c.cls = 3 then (s.runEltwise x, none)
  else if x.c.cls = 4 then (s.runReduce x, none)
  else if x.c.cls = 5 then (s.runLut x, none)
  else if x.c.cls = 6 ∨ x.c.cls = 7 then (s.runLinewise x, none)
  else if x.c.cls = 8 then (if x.c.op = 0 then s.runGather x else s.runScatter x)
  else if x.c.cls = 9 then (s.runPermute x, none)
  else if x.c.cls = 0xA then (s.runConvert x, none)
  else if x.c.cls = 0xB then s.runCopy x
  else (s, none)

/-- A command that has run: counted; in a chain the next stage follows, otherwise its completion is awaited (R281,
R283). -/
def State.ranCmd (s : State) (x : Issue) : State :=
  let s1 := (s.count (.tc x.u) TC.CNT_CMD).busyClocks x.u x.c.engines
  match s1.slotNode x.u x.n.slot with
  | none => s1
  | some n =>
    if x.c.chain then s1.setSlot x.u { n with cmd := n.cmd + 1, busy := true }
    else s1.setSlot x.u { n with busy := true, stage := none }

/-- A fault of a command ends its whole chain (R284). -/
def State.endChain (s : State) (x : Issue) (f : CmdFault) : State :=
  let s1 := (s.bodFault f).cmdFault x f
  match s1.slotNode x.u x.n.slot with
  | none => s1
  | some n => if n.dead then s1.setSlot x.u { n with busy := false, stage := none } else s1

/-- A command executes (R261). -/
def State.execCmd (s : State) (x : Issue) : State :=
  let r := s.runCmd x
  match r.2 with
  | some f => r.1.endChain x f
  | none => r.1.ranCmd x

/-- A ring fault of a locked command, one record for each ring (R342). -/
def State.ringFault (s : State) (x : Issue) (code : Nat) (l : List (RingRef × Nat)) : State :=
  (l.map (·.1)).eraseDups.foldl (fun s r => s.faultRec r.page code (faultMid 0xFF x.u x.n.node) [r.ring, s.ringH r, s.ringT r, s.ringR r] false) s

/-- A command executes on the rings as they stand (R342): to a locked one, slots at or beyond T read as zeros and full rings
keep their contents, and its node's outputs are poisoned. -/
def State.runOnRings (s : State) (x : Issue) : State :=
  let under := s.underrun x
  let full := s.overwrite x
  if under = [] ∧ full = [] then s.execCmd x
  else
    let at_ (y : RingRef × Nat) : Nat := s.ringAddr y.1 y.2
    let kept := (under ++ full).map fun y => (at_ y, s.load (at_ y) (s.ringSlot y.1))
    let s1 := (s.ringFault x 0x3040 under).ringFault x 0x3041 full
    let x1 := { x with n := x.n.poisoned 0x21 }
    let s2 := under.foldl (fun t y => t.store (at_ y) (zeros (s.ringSlot y.1))) (s1.setSlot x.u x1.n)
    kept.foldl (fun t y => t.store y.1 y.2) (s2.execCmd x1)

/-- A command of the table's row issues on a running place: its word must be of the row's class and operation, else the
row has no effect (log 2); a word that fails its checks faults whichever row names it. -/
def State.issueRow (s : State) (cls op u slot : Nat) (obs : SramCheck) : State :=
  match s.issueOf u slot with
  | none => s
  | some x =>
    match s.issueFault x with
    | some f => s.endChain x f
    | none =>
      if x.c.cls ≠ cls ∨ x.c.op ≠ op ∨ s.meetsWipe x then s
      else if s.meetsPoison x then s.taskFault (.cmem (u / 4)) 0x3046 x.n.ctx u x.n.node []
      else match s.ringWait x with
        | some r => s.setSlot u { x.n with waiting := some r, waitSince := s.time.beatNo }
        | none =>
          match obs with
          | .clean => s.runOnRings x
          | .corrected inCmem w =>
            (s.count (sramPage u inCmem) (if inCmem then CMEM.CNT_CORR else SPM.CNT_CORR) w).runOnRings x
          | .uncorrectable inCmem off =>
            let s1 := s.sramUncorr x inCmem off
            if x.n.locked then s1.runOnRings { x with n := x.n.poisoned 0x20 } else s1
          | .detect _ => s.sramDetect x

/-- MATMUL (R269–R271). -/
def execMatmul (u : Fin 24) (slot : Nat) (obs : SramCheck) (s : State) : Result := .next (s.issueRow 1 0 u.val slot obs)
/-- CONV (R268). -/
def execConv (u : Fin 24) (slot : Nat) (obs : SramCheck) (s : State) : Result := .next (s.issueRow 2 0 u.val slot obs)
/-- ELTWISE ADD (R267). -/
def execEltwiseAdd (u : Fin 24) (slot : Nat) (obs : SramCheck) (s : State) : Result := .next (s.issueRow 3 0 u.val slot obs)
/-- ELTWISE SUB (R267). -/
def execEltwiseSub (u : Fin 24) (slot : Nat) (obs : SramCheck) (s : State) : Result := .next (s.issueRow 3 1 u.val slot obs)
/-- ELTWISE MUL (R267). -/
def execEltwiseMul (u : Fin 24) (slot : Nat) (obs : SramCheck) (s : State) : Result := .next (s.issueRow 3 2 u.val slot obs)
/-- ELTWISE MAX (R267). -/
def execEltwiseMax (u : Fin 24) (slot : Nat) (obs : SramCheck) (s : State) : Result := .next (s.issueRow 3 3 u.val slot obs)
/-- ELTWISE MIN (R267). -/
def execEltwiseMin (u : Fin 24) (slot : Nat) (obs : SramCheck) (s : State) : Result := .next (s.issueRow 3 4 u.val slot obs)
/-- FMA (R267). -/
def execFma (u : Fin 24) (slot : Nat) (obs : SramCheck) (s : State) : Result := .next (s.issueRow 3 5 u.val slot obs)
/-- SCALE_BIAS (R267). -/
def execScaleBias (u : Fin 24) (slot : Nat) (obs : SramCheck) (s : State) : Result := .next (s.issueRow 3 6 u.val slot obs)
/-- ABS (R267). -/
def execAbs (u : Fin 24) (slot : Nat) (obs : SramCheck) (s : State) : Result := .next (s.issueRow 3 7 u.val slot obs)
/-- NEG (R267). -/
def execNeg (u : Fin 24) (slot : Nat) (obs : SramCheck) (s : State) : Result := .next (s.issueRow 3 8 u.val slot obs)
/-- CLAMP (R267). -/
def execClamp (u : Fin 24) (slot : Nat) (obs : SramCheck) (s : State) : Result := .next (s.issueRow 3 9 u.val slot obs)
/-- SELECT (R267). -/
def execSelect (u : Fin 24) (slot : Nat) (obs : SramCheck) (s : State) : Result := .next (s.issueRow 3 0xA u.val slot obs)
/-- CMPGT (R267). -/
def execCmpgt (u : Fin 24) (slot : Nat) (obs : SramCheck) (s : State) : Result := .next (s.issueRow 3 0xB u.val slot obs)
/-- SHIFT (R267). -/
def execShift (u : Fin 24) (slot : Nat) (obs : SramCheck) (s : State) : Result := .next (s.issueRow 3 0xC u.val slot obs)
/-- REDUCE SUM (R273). -/
def execReduceSum (u : Fin 24) (slot : Nat) (obs : SramCheck) (s : State) : Result := .next (s.issueRow 4 0 u.val slot obs)
/-- REDUCE SUMSQ (R273). -/
def execReduceSumsq (u : Fin 24) (slot : Nat) (obs : SramCheck) (s : State) : Result := .next (s.issueRow 4 1 u.val slot obs)
/-- REDUCE MAX (R273). -/
def execReduceMax (u : Fin 24) (slot : Nat) (obs : SramCheck) (s : State) : Result := .next (s.issueRow 4 2 u.val slot obs)
/-- REDUCE MIN (R273). -/
def execReduceMin (u : Fin 24) (slot : Nat) (obs : SramCheck) (s : State) : Result := .next (s.issueRow 4 3 u.val slot obs)
/-- ARGMAX (R273). -/
def execArgmax (u : Fin 24) (slot : Nat) (obs : SramCheck) (s : State) : Result := .next (s.issueRow 4 4 u.val slot obs)
/-- LUT PWL (R275). -/
def execLutPwl (u : Fin 24) (slot : Nat) (obs : SramCheck) (s : State) : Result := .next (s.issueRow 5 0 u.val slot obs)
/-- LUT DIRECT (R275). -/
def execLutDirect (u : Fin 24) (slot : Nat) (obs : SramCheck) (s : State) : Result := .next (s.issueRow 5 1 u.val slot obs)
/-- NORM LAYER (R274). -/
def execNormLayer (u : Fin 24) (slot : Nat) (obs : SramCheck) (s : State) : Result := .next (s.issueRow 6 0 u.val slot obs)
/-- NORM RMS (R274). -/
def execNormRms (u : Fin 24) (slot : Nat) (obs : SramCheck) (s : State) : Result := .next (s.issueRow 6 1 u.val slot obs)
/-- NORM L2 (R274). -/
def execNormL2 (u : Fin 24) (slot : Nat) (obs : SramCheck) (s : State) : Result := .next (s.issueRow 6 2 u.val slot obs)
/-- SOFTMAX (R274). -/
def execSoftmax (u : Fin 24) (slot : Nat) (obs : SramCheck) (s : State) : Result := .next (s.issueRow 7 0 u.val slot obs)
/-- LOGSOFTMAX (R274). -/
def execLogsoftmax (u : Fin 24) (slot : Nat) (obs : SramCheck) (s : State) : Result := .next (s.issueRow 7 1 u.val slot obs)
/-- GATHER (R323). -/
def execGather (u : Fin 24) (slot : Nat) (obs : SramCheck) (s : State) : Result := .next (s.issueRow 8 0 u.val slot obs)
/-- SCATTER (R324). -/
def execScatter (u : Fin 24) (slot : Nat) (obs : SramCheck) (s : State) : Result := .next (s.issueRow 8 1 u.val slot obs)
/-- TRANSPOSE (R313). -/
def execTranspose (u : Fin 24) (slot : Nat) (obs : SramCheck) (s : State) : Result := .next (s.issueRow 9 0 u.val slot obs)
/-- PERMUTE (R313). -/
def execPermute (u : Fin 24) (slot : Nat) (obs : SramCheck) (s : State) : Result := .next (s.issueRow 9 1 u.val slot obs)
/-- CONVERT (R272, R296, R302). -/
def execConvert (u : Fin 24) (slot : Nat) (obs : SramCheck) (s : State) : Result := .next (s.issueRow 0xA 0 u.val slot obs)
/-- COPY (R310, R317). -/
def execCopy (u : Fin 24) (slot : Nat) (obs : SramCheck) (s : State) : Result := .next (s.issueRow 0xB 0 u.val slot obs)

/-! ### FLAG/SYNC (R267) and counters (R244) -/

/-- A counter fault (R244): its record, counted on the cluster's page. -/
def State.counterFault (s : State) (c code ctx u node : Nat) : State :=
  ((s.faultRec (.clu c) code (faultMid ctx u node) [] false).count (.clu c) CLU.CNT_CTR_FAULT).raise (.clu c) 1

/-- A counter one lower; whether it was already zero (R244). -/
def State.decCounter (s : State) (c num : Nat) : State × Bool :=
  let x := s.clu c
  let v := x.counter num
  if v = 0 then (s, true) else (s.setClu c { x with counters := assocSet num (v - 1) x.counters }, false)

/-- The ready entries of a core. -/
def Cluster.readyOf (x : Cluster) (core : Nat) : List ReadyNode := x.ready.filter (·.core = core)

/-- A node enters the ready list of its core, by priority and then by time, or waits pending (R244). -/
def State.makeReady (s : State) (t : Task) (d : NodeDesc) : State :=
  let x := s.clu t.cluster
  let r : ReadyNode := ⟨t.ctx, d.index, d.coreIndex, t.job.priority⟩
  if 64 ≤ (x.readyOf d.coreIndex).length ∨ x.pendingNodes.any (·.core = d.coreIndex) then
    s.setClu t.cluster { x with pendingNodes := x.pendingNodes ++ [r] }
  else s.setClu t.cluster { x with ready := orderedInsert (fun a b => decide (b.priority ≤ a.priority)) r x.ready }

/-- Pending nodes move into the list as slots free (R244), in the order they wait. -/
def State.movePending (s : State) (c core : Nat) : State :=
  let x := s.clu c
  match x.pendingNodes.find? (·.core = core) with
  | none => s
  | some r =>
    if 64 ≤ (x.readyOf core).length then s
    else s.setClu c { x with
      ready := orderedInsert (fun a b => decide (b.priority ≤ a.priority)) r x.ready
      pendingNodes := x.pendingNodes.erase r }

/-- A task's counter decremented: the node it belongs to becomes ready at zero; below zero the task aborts (R244). -/
def State.taskDecrement (s : State) (ctx num u node : Nat) : State :=
  match s.task? ctx with
  | none => s
  | some t =>
    let r := s.decCounter t.cluster num
    if r.2 then (s.counterFault t.cluster 0x3004 ctx u node).abortTask ctx 0x3004 (some u) node
    else if (r.1.clu t.cluster).counter num = 0 then
      match t.nodes.find? fun d => t.counters.getD d.index 1024 = num with
      | some d => r.1.makeReady t d
      | none => r.1
    else r.1

/-- A FLAG/SYNC command issues; it needs no operands. -/
def State.issueSync (s : State) (op u slot : Nat) (act : Issue → State → State) : State :=
  match s.issueOf u slot with
  | none => s
  | some x =>
    match s.issueFault x with
    | some f => s.endChain x f
    | none =>
      if x.c.cls ≠ 0xC ∨ x.c.op ≠ op then s
      else match s.ringWait x with
        | some r => s.setSlot u { x.n with waiting := some r, waitSince := s.time.beatNo }
        | none => (act x s).ranCmd x

/-- SET_FLAG (R267): flag IMM0 of the core's cluster with READERS IMM1; a flag a locked set holds, or that does not
exist, stays as it is (log 22). -/
def execSetFlag (u : Fin 24) (slot : Nat) (s : State) : Result :=
  .next (s.issueSync 0 u.val slot fun x s =>
    let c := u.val / 4
    let k := s.clu c
    if x.n.locked then s.cmdFault x ⟨.tc x.u, 0x3030, [], 0x20⟩
    else if 2048 ≤ x.c.imm0 ∨ x.c.imm0 ∈ k.lockedFlags then s
    else s.setClu c { k with flags := assocSet x.c.imm0 ⟨x.n.strip % 256, x.c.imm1 % 16, true, false, 0, 0⟩ k.flags })

/-- DECREMENT (R244, R267): in a locked node counter IMM0 of the cluster, in an open task its own counter number IMM0
(log 22). -/
def execDecrement (u : Fin 24) (slot : Nat) (s : State) : Result :=
  .next (s.issueSync 1 u.val slot fun x s =>
    if x.n.locked then
      let r := s.decCounter (u.val / 4) x.c.imm0
      if r.2 then
        (s.counterFault (u.val / 4) 0x3004 0xFF x.u x.n.node).setSlot x.u (x.n.poisoned 0x21)
      else r.1
    else match s.task? x.n.ctx with
      | some t => s.taskDecrement x.n.ctx (t.held.getD x.c.imm0 1024) x.u x.n.node
      | none => s)

/-- FENCE (R267): in order, every earlier write is visible already. -/
def execFence (u : Fin 24) (slot : Nat) (s : State) : Result := .next (s.issueSync 2 u.val slot fun _ s => s)

/-! ### Ends of chains, re-runs, waits -/

/-- A request of this place to a host window, or an ordered contribution of its command, is still under way (R92,
R279). -/
def State.stillWriting (s : State) (u : Nat) (n : CoreNode) : Bool :=
  s.link.ports.any (fun p => p.hostReqs.any fun r => r.ctx = n.ctx && r.unit = u && r.channel = 8 + n.slot)
    || s.fabric.combine.any fun c => c.ctx = n.ctx && c.core = u % 4 && c.order = n.cmd

/-- CHAIN_COMPLETE (R283, R341): the next command may start, or the node has run its last; an open chain passes its slots on. -/
def execChainComplete (u : Fin 24) (slot : Nat) (s : State) : Result :=
  .next (match s.slotNode u.val slot with
    | none => s
    | some n =>
      if !n.busy || n.stage.isSome || s.stillWriting u.val n then s
      else
        let last : Bool := match (s.nodeOf n).bind fun d => (s.cmdsOf d)[n.cmd]? with | some c => c.last | none => true
        let s1 := match n.locked, s.nodeOf n with
          | false, some d => s.passSlots u.val d false n.consumer (chainOf (s.cmdsOf d) n.cmd)
          | _, _ => s
        s1.setSlot u.val { n with busy := false, cmd := n.cmd + 1, finished := last })

/-- A contribution applied to memory for a task. -/
def State.applyContribution (s : State) (c : Contribution) : State :=
  let w := fmtBits c.fmt / 8
  c.values.foldl (fun s v =>
    (s.markWrite c.ctx v.1).store v.1 (leBytes w (combineElem c.fmt c.op (s.loadNat v.1 w) v.2))) s

/-- ORDERED_COMBINE (R279): the waiting contribution of the lowest core and position whose order has come. -/
def execOrderedCombine (clu : Fin 6) (s : State) : Result :=
  let due (c : Contribution) : Bool := match s.task? c.ctx with
    | some t => t.cluster = clu.val && !t.earlierOpen c.core
    | none => false
  let key (c : Contribution) : Nat := c.core * 1024 + c.order
  let first := (s.fabric.combine.filter due).foldl (fun (m : Option Contribution) c =>
    match m with | none => some c | some b => if key c < key b then some c else m) none
  .next (match first with
    | none => s
    | some c =>
      let s1 := { s with fabric := { s.fabric with combine := s.fabric.combine.erase c } }
      let d := s1.draw
      ((d.2.applyContribution c).count (.tc (4 * clu.val + c.core)) TC.CNT_ORDERED_STALL d.1))

/-- A run starts again from the first command (R338, R339). -/
def State.restart (s : State) (u : Nat) (n : CoreNode) : State :=
  ((s.faultRec (.spm u) 0x1011 (faultMid (if n.locked then 0xFF else n.ctx) u n.node) [] false).count (.spm u) SPM.CNT_RERUN).setSlot u
    { n with cmd := 0, busy := false, stage := none, needsRerun := false, reran := true, combined := false,
             digest := Digest.start (s.keysOf n).2.2 }

/-- OPEN_RERUN (R339). -/
def execOpenRerun (u : Fin 24) (slot : Nat) (s : State) : Result :=
  .next (match s.slotNode u.val slot with
    | some n => if !n.locked && n.needsRerun then s.restart u.val n else s
    | none => s)

/-- RERUN_START (R338): the node's reservation begins; a run abandoned before it starts again, and no later error can
be contained. -/
def execRerunStart (node : Nat) (s : State) : Result :=
  .next ((List.range 24).foldl (fun s u =>
    (s.core u).nodes.foldl (fun s n =>
      if !n.locked || n.node ≠ node || n.reran || n.noRerun then s
      else if n.needsRerun then s.restart u n
      else s.setSlot u { n with noRerun := true }) s) s)

/-- RING_WAIT_RELEASE (R342). -/
def execRingWaitRelease (u : Fin 24) (slot : Nat) (s : State) : Result :=
  .next (match s.slotNode u.val slot with
    | none => s
    | some n =>
      if n.waiting.isNone then s
      else match s.nodeOf n with
        | none => s
        | some d => match (s.cmdsOf d)[n.cmd]? with
          | none => s
          | some c => s.setSlot u.val { n with waiting := s.ringWait ⟨u.val, n, d, s.cmdsOf d, c⟩ })

/-- The watchdog of a ring is suspended: its channel stands stalled (R374). -/
def State.wdogHeld (s : State) (r : RingRef) : Bool :=
  s.fabric.channels.any fun c => c.stalled.isSome && s.chanRing c.unit c.number = r

/-- RING_WATCHDOG (R343): a wait of RING_WDOG beats aborts the task. -/
def execRingWatchdog (u : Fin 24) (slot : Nat) (s : State) : Result :=
  .next (match s.slotNode u.val slot with
    | none => s
    | some n => match n.waiting with
      | none => s
      | some r =>
        let p : Page := .cmem (u.val / 4)
        if s.time.beatNo < n.waitSince + s.rd p CMEM.RING_WDOG ∨ s.wdogHeld r then s
        else (s.count p CMEM.CNT_WDOG).taskFault p 0x3042 n.ctx u.val n.node [r.ring, s.ringH r, s.ringT r, s.ringR r])

/-! ### Dispatch and completion of open nodes (R244, R262) -/

/-- The engines a node uses (R262): the union of its commands'; a vision engine's own bit. -/
def State.nodeEngines (s : State) (d : NodeDesc) : Nat :=
  match d.cls with
  | .tensor => (s.cmdsOf d).foldl (fun m c => m ||| c.engines) 0
  | .sge => 16
  | .ofe => 32
  | .fpeDetect => 64
  | .fpeMatch => 128
  | .wpe => 256
  | .pye => 512
  | .ife | .recordWrite | .cameraControl => 0

/-- The engines in use on a core. -/
def State.enginesBusy (s : State) (u : Nat) : Nat :=
  (s.core u).nodes.foldl (fun m n => m ||| ((s.nodeOf n).map s.nodeEngines).getD 0) 0

/-- The page of a core itself. -/
def corePage (u : Nat) : Page := if u % 4 = 3 then .vis (u / 4) else .tc u

/-- A core takes open nodes: powered, enabled, in the open pool, its scratchpad's wipe over (R246, R345, R346). -/
def State.coreOpen (s : State) (u : Nat) : Bool :=
  s.domainReady u && !s.absent u && !s.lockedUnit u && s.rd (corePage u) HDR.EN = 1
    && !(s.resets.any fun r => r.page = (corePage u).num || r.page = (Page.clu (u / 4)).num)

/-- NODE_DISPATCH (R262): the first node of the ready list whose engines are all free starts. -/
def execNodeDispatch (u : Fin 24) (s : State) : Result :=
  let c := u.val / 4
  let x := s.clu c
  let busy := s.enginesBusy u.val
  let desc (r : ReadyNode) : Option NodeDesc := (s.task? r.ctx).bind fun t => t.nodes[r.node]?
  let fits (r : ReadyNode) : Bool := match desc r with | some d => s.nodeEngines d &&& busy = 0 | none => false
  let wiping : Bool := s.fabric.wiping.any fun g => if g.inCmem then g.owner = c else g.owner = u.val
  .next (if !s.coreOpen u.val ∨ 4 ≤ (s.core u.val).nodes.length ∨ wiping then s
    else match (x.readyOf (u.val % 4)).find? fits with
      | none => s
      | some r =>
        let free := ((List.range 4).find? fun k => (s.slotNode u.val k).isNone).getD 0
        let n : CoreNode := { slot := free, locked := false, gset := 0, ctx := r.ctx, node := r.node, strip := 0
                              cmd := 0, busy := false, stage := none, finished := false, reran := false
                              needsRerun := false, dead := false, waiting := none, waitSince := 0, poison := none
                              noRerun := false, combined := false, digest := Digest.start 0 }
        let n := { n with digest := Digest.start (s.keysOf n).2.2 }
        let s1 := (s.setClu c { x with ready := x.ready.erase r }).movePending c (u.val % 4)
        s1.setCore u.val ((s1.core u.val).nodes ++ [n]))

/-- The counters of an open node's successors decremented (R244). -/
def State.releaseSuccessors (s : State) (t : Task) (u node : Nat) : State :=
  (t.succ.getD node []).foldl (fun s i => s.taskDecrement t.ctx (t.counters.getD i 1024) u node) s

/-- Inputs drained and filled outputs committed at an open node's completion (R341). -/
def State.openRings (s : State) (u ctx : Nat) (d : NodeDesc) : State :=
  let who := nodeConsumer false ctx 0 d.index
  let s1 := (flagRings (u / 4) d.inFlag d.inCount).foldl (fun s r => if s.ringOn r then s.ringTake r who 1 else s) s
  let s2 := (flagRings (u / 4) d.outFlag d.outCount).foldl (fun s r => if s.ringOn r then s.ringPut r 1 else s) s1
  if d.cls = .tensor then s2.passSlots u d false who (singles (s.cmdsOf d)) else s2

/-- A run of an open node logged at its completion, with DIG.LOG_OPEN (R389, R390). -/
def State.logOpen (s before : State) (n : CoreNode) (t : Task) : State :=
  if s.rd .dig DIG.LOG_OPEN = 1 then
    s.logDigest { j := (before.keysOf n).2.2, node := n.node, digest := n.digest, gset := 0, ctx := n.ctx
                  flags := 2 * b2n n.reran + 4 * b2n n.combined + 8, cookie := t.job.cookie }
  else s

/-- One more run of an open node in its task (R299). -/
def State.countRun (s : State) (n : CoreNode) : State :=
  let had := ((s.amt.openRuns.find? fun x => x.1 = n.ctx ∧ x.2.1 = n.node).map (·.2.2)).getD 0
  let rest := s.amt.openRuns.filter fun x => !(x.1 = n.ctx ∧ x.2.1 = n.node)
  { s with amt := { s.amt with openRuns := (n.ctx, n.node, had + 1) :: rest } }

/-- An open node completes: rings, successors, its task when it was the last (R244, R247). -/
def State.openDone (s : State) (u : Nat) (n : CoreNode) (d : NodeDesc) : State :=
  let s1 := (s.freeSlot u n.slot).openRings u n.ctx d
  match s1.task? n.ctx with
  | none => s1
  | some t =>
    let t1 := { t with completed := setInsert n.node t.completed }
    let s2 := (((s1.setTask t1).logOpen s n t).countRun n).releaseSuccessors t1 u n.node
    if t1.completed.length < t1.nodes.length then s2
    else match s2.task? n.ctx with
      | some t2 => s2.completeTask t2
      | none => s2

end Sys2Proof.Machine
end

