-- ==== Sys2Proof/Machine/Streams.lean ====
section
/-! DEFINITION. Stream channels (R368–R376), translation events, GDDR6 accesses and retraining (R359–R362), the block
owner directory's writes and bulk load (R320, R327). -/

namespace Sys2Proof.Machine

/-! ### Block descriptors -/

/-- A block descriptor (R369). -/
structure Block where
  addr : Nat
  lines : Nat
  rows : Nat
  planes : Nat
  rowStride : Int
  planeStride : Int
  coord : Nat
  rsv : Bool

/-- The block descriptor of 32 bytes (R369). -/
def parseBlock (b : List Byte) : Block :=
  { addr := field b 0 6, lines := field b 8 2, rows := field b 10 2, planes := field b 12 2
    rowStride := toInt 32 (field b 16 4), planeStride := toInt 32 (field b 20 4), coord := field b 24 6
    rsv := field b 6 2 ≠ 0 || field b 14 2 ≠ 0 || field b 30 2 ≠ 0 }

/-- Bytes of a block. -/
def Block.size (b : Block) : Nat := 64 * b.lines * b.rows * b.planes

/-- The runs of a block in order: address, length. -/
def Block.runs (b : Block) : List (Nat × Nat) :=
  (List.range b.planes).flatMap fun (p : Nat) => (List.range b.rows).map fun (r : Nat) =>
    (((b.addr : Int) + (r : Int) * b.rowStride + (p : Int) * b.planeStride).toNat, 64 * b.lines)

/-- The distinct pages of a block, in the order it touches them (R375). -/
def Block.pages (b : Block) : List Nat := (cutRanges b.runs).foldl (fun l x => setInsert (x.1 / 65536) l) []

/-- The descriptor is invalid for a slot (R369; log 24 for values outside the ranges its table states). -/
def Block.invalid (b : Block) (slot : Nat) : Bool :=
  let bad (n : Nat) : Bool := n = 0 || 1024 < n
  bad b.lines || bad b.rows || bad b.planes || slot < b.size || b.rsv || b.addr % 64 ≠ 0 || b.rowStride % 64 ≠ 0
    || b.planeStride % 64 ≠ 0 || 8 < b.pages.length

/-- The block descriptor of a list position; the list's address is a device address (log 24). -/
def State.blockAt (s : State) (l : StreamList) (i : Nat) : Block := parseBlock (s.load (l.addr + 32 * i) 32)

/-! ### Aborts, poison, stalls -/

/-- Bytes 12–15 that name a channel's context and core. -/
def Channel.mid (c : Channel) : Nat := faultMid (c.ctx.getD 0xFF) c.unit (c.node.getD 0xFFFF)

/-- The parts that would have succeeded (R375), by translating each on its own. -/
def State.partByte (s : State) (ctx : Nat) (write : Bool) (b : Block) : Nat :=
  ofBits 8 fun i => match b.pages[i]? with
    | some p => (match (s.xlate ctx write (p * 65536) 64).1 with | .ok _ _ => true | .fault _ _ _ => false)
    | none => false

/-- The detail words of a stream fault (R367, R373–R375; log 11): list position and part byte with bit 11 for a
resumable stall, COORD, the address. -/
def streamDetails (pos part coord addr : Nat) (stall : Bool) : List Nat :=
  [pos % 65536 * 65536 + 2048 * b2n stall + part, coord % 2 ^ 32, coord / 2 ^ 32, addr % 2 ^ 32]

/-- A fault of an open channel aborts its task; the ring it filled is marked poisoned (R373). -/
def State.streamAbort (s : State) (c : Channel) (p : Page) (code : Nat) (d : List Nat) : State :=
  let r := s.chanRing c.unit c.number
  let s1 : State := if s.chanIn c.unit c.number && 0 < c.pos then
    { s with fabric := { s.fabric with poisonedRings := setInsert r s.fabric.poisonedRings } } else s
  let s2 := (s1.faultRec p code c.mid d false).raise (.str c.unit) 1
  match c.ctx with
  | some ctx => s2.abortTask ctx code (some c.unit) 0xFFFF
  | none => s2

/-- The outputs of the node a locked channel serves are poisoned (R372). -/
def State.poisonNode (s : State) (node reason : Nat) : State :=
  let mark (n : CoreNode) : CoreNode := if n.locked && n.node = node then n.poisoned reason else n
  { s with fabric := { s.fabric with cores := s.fabric.cores.map fun k => { k with nodes := k.nodes.map mark } } }

/-- A fault of a locked channel: recorded, the consumers poisoned; the stream goes on. -/
def State.streamPoison (s : State) (c : Channel) (p : Page) (code reason : Nat) (d : List Nat) : State :=
  let s1 := s.faultRec p code c.mid d false
  match c.node with
  | some n => s1.poisonNode n reason
  | none => s1

/-- No consumer has drained a block of ACTIVE (R374): all of them lie between H and T. -/
def State.undrained (s : State) (c : Channel) : Bool :=
  let r := s.chanRing c.unit c.number
  c.pos ≤ s.ringGap r (s.ringH r) (s.ringT r)

/-- A translation fault of a block: an inbound absent or forbidden page stalls the channel while none of its list has
been consumed, anything else aborts (R373, R374). -/
def State.streamXlateFault (s : State) (c : Channel) (b : Block) (f : AccessFault) : State :=
  let part := s.partByte (c.ctx.getD 0) (!s.chanIn c.unit c.number) b
  if s.chanIn c.unit c.number && (f.code = 0x5001 || f.code = 0x5002) && s.undrained c && !c.resumed then
    let s1 := (s.faultRec .mmu f.code c.mid (streamDetails c.pos part b.coord f.addr true) false)
    ((s1.raise .mmu 0).raise (.str c.unit) 3).setChan { c with stalled := some (f.addr, f.code, s.time.beatNo) }
  else (s.raise .mmu 1).streamAbort c .mmu f.code (streamDetails c.pos part b.coord f.addr false)

/-! ### Arming -/

/-- PENDING becomes ACTIVE as soon as ACTIVE is empty (R370), with the blocks filled ahead. -/
def Channel.promote (c : Channel) : Channel :=
  match c.active, c.pend with
  | none, some p => { c with active := some p, pend := none, pos := c.ahead, ahead := 0, walked := false, resumed := false }
  | _, _ => c

/-- The consumer number of an outbound channel. -/
def chanConsumer (u n : Nat) : Nat := 16 + 8 * u + n

/-- A list placed in PENDING (R370). -/
def State.armList (s : State) (u n : Nat) (l : StreamList) : State :=
  let c := s.chan u n
  let s1 := if s.chanIn u n then s else s.ringAttach (s.chanRing u n) c.ctx (chanConsumer u n)
  s1.setChan { c with pend := some l }.promote

/-- What a write of ARM_COUNT answers (R370): a channel of an open task whose PENDING is empty. -/
def armCheck (s : State) (u n : Nat) : Nat × State :=
  let c := s.chan u n
  if c.pend.isSome then
    (0x0B, (((s.faultRec (.str u) 0x3044 c.mid [] false).count (.str u) STR.CNT_ARM_OVERRUN 1 n).raise (.str u) 2))
  else if c.ctx.isNone then (0x0B, s) else (0, s)

/-- What a write of ARM_COUNT does. -/
def armAct (s : State) (u n count : Nat) : State :=
  s.armList u n ⟨s.rd (.str u) STR.ARM_ADDR_LO n + 2 ^ 32 * s.rd (.str u) STR.ARM_ADDR_HI n, count⟩

/-! ### Moving a block -/

/-- A channel's list has ended (R370). -/
def State.listDone (s : State) (c : Channel) : State :=
  match c.active with
  | some l => if l.count ≤ c.pos then (s.raise (.str c.unit) 0).setChan { c with active := none }.promote else s.setChan c
  | none => s.setChan c

/-- A block of an inbound channel in its slot, filled and committed, with those filled ahead when the list ends (R371). -/
def State.landBlock (s : State) (c : Channel) (data : List Byte) : State :=
  let r := s.chanRing c.unit c.number
  let a := s.ringAddr r (s.ringT r)
  let body := padTo (s.ringSlot r) data
  let s1 := match c.ctx with
    | some x => (s.markWrite x a).store a body
    | none => s.store a body
  let ends : Bool := match c.active with | some l => l.count ≤ c.pos + 1 | none => true
  let s2 := (s1.ringFill r).ringCommit r (if ends then 1 + c.ahead else 1)
  s2.listDone { c with pos := c.pos + 1, walked := false, requested := false, resumed := false }

/-- A block of an outbound channel has been written. -/
def State.sentBlock (s : State) (c : Channel) : State :=
  (s.ringDrain (s.chanRing c.unit c.number) c.ctx (chanConsumer c.unit c.number)).listDone
    { c with pos := c.pos + 1, walked := false, requested := false }

/-- Bytes laid over pieces in order, those of host windows left out. -/
def State.layPieces (s : State) (ctx : Option Nat) : List (Nat × Nat) → List Byte → State
  | [], _ => s
  | (a, k) :: r, b =>
    let s1 := if isHost a then s else match ctx with
      | some x => (s.markWrite x a).store a (b.take k)
      | none => s.store a (b.take k)
    s1.layPieces ctx r (b.drop k)

/-- The requests a block makes of host windows (R92, R366), reads into their places of the slot. -/
def State.hostParts (s : State) (c : Channel) (write : Bool) (slot : Nat) (data : List Byte) :
    Nat → List (Nat × Nat) → State
  | _, [] => s
  | off, (a, k) :: r =>
    let s1 := if isHost a then
        (hostCuts (k / 4096 + 2) a k).foldl (fun s x =>
          s.hostRequest (c.ctx.getD 0) c.unit c.number write x.1 x.2 (slot + off + (x.1 - a)) (slice data (off + (x.1 - a)) x.2)) s
      else s
    s1.hostParts c write slot data (off + k) r

/-- Requests of a channel to host windows are under way. -/
def State.chanWaits (s : State) (c : Channel) : Bool :=
  s.link.ports.any fun p => p.hostReqs.any fun r => r.unit = c.unit && r.channel = c.number && some r.ctx = c.ctx

/-- The bytes of pieces; those of a host window stand in the slot already. -/
def State.pieceBytes (s : State) (slot : Nat) : Nat → List (Nat × Nat) → List Byte
  | _, [] => []
  | off, (a, k) :: r => (if isHost a then s.load (slot + off) k else s.load a k) ++ s.pieceBytes slot (off + k) r

/-- A block of an open channel whose parts are translated: moved, or its host parts asked for first (R375). -/
def State.moveBlock (s : State) (c : Channel) (b : Block) (pieces : List (Nat × Nat)) : State :=
  let r := s.chanRing c.unit c.number
  let inb := s.chanIn c.unit c.number
  let d := streamDetails c.pos 0 b.coord b.addr false
  let slot := s.ringAddr r (if inb then s.ringT r else (s.ringDrainOf r c.ctx (chanConsumer c.unit c.number)).getD (s.ringH r))
  match pieces.find? fun p => isHost p.1 && !s.portUp (bits p.1 46 46) with
  | some p => s.streamAbort c (.hlk (bits p.1 46 46)) 0x2040 d
  | none =>
    match (if inb then s.badIn pieces else none) with
    | some line => (s.noteUncorr line).streamAbort c .mc 0x1040 [line * 64 % 2 ^ 32, line * 64 / 2 ^ 32, b.coord % 2 ^ 32, b.coord / 2 ^ 32]
    | none =>
      let data := s.load slot b.size
      if pieces.any (isHost ·.1) && !c.requested then
        (s.hostParts c (!inb) slot data 0 pieces).setChan { c with requested := true }
      else if inb then s.landBlock c (s.pieceBytes slot 0 pieces)
      else (s.layPieces c.ctx pieces data).sentBlock c

/-- An open channel's next block. -/
def State.openBlock (s : State) (c : Channel) (l : StreamList) : State :=
  let b := s.blockAt l c.pos
  let r := s.chanRing c.unit c.number
  let inb := s.chanIn c.unit c.number
  if inb && s.ringN r ≤ s.ringGap r (s.ringH r) (s.ringT r) then s
  else if !inb && r ∈ s.fabric.poisonedRings then s.streamAbort c r.page 0x3046 (streamDetails c.pos 0 b.coord b.addr false)
  else if !inb && s.ringEmptyFor r c.ctx (chanConsumer c.unit c.number) then s
  else if b.invalid (s.ringSlot r) then s.streamAbort c (.str c.unit) 0x3047 (streamDetails c.pos 0 b.coord b.addr false)
  else
    let x := s.xlateAll (c.ctx.getD 0) (!inb) (cutRanges b.runs)
    match x.2.1 with
    | some f => x.2.2.streamXlateFault c b f
    | none => x.2.2.moveBlock { c with walked := true } b x.1

/-- A locked channel's next block: addresses stand as they are, checked against the pinned windows (R363). -/
def State.lockedBlock (s : State) (c : Channel) (l : StreamList) : State :=
  let b := s.blockAt l c.pos
  let r := s.chanRing c.unit c.number
  let d := streamDetails c.pos 0 b.coord b.addr false
  if s.chanIn c.unit c.number then
    if s.ringN r ≤ s.ringGap r (s.ringH r) (s.ringT r) then
      (s.streamPoison c r.page 0x3041 0x21 d).listDone { c with pos := c.pos + 1 }
    else if b.runs.any fun x => !s.inWindows x.1 x.2 then
      (s.streamPoison c .mmu 0x5004 0x21 d).landBlock c (s.load (s.ringAddr r (s.ringT r)) (s.ringSlot r))
    else match s.badIn b.runs with
      | some line =>
        ((s.noteUncorr line).streamPoison c .mc 0x1040 0x20 [line * 64 % 2 ^ 32, line * 64 / 2 ^ 32]).landBlock c (s.gatherBytes b.runs)
      | none => s.landBlock c (s.gatherBytes b.runs)
  else if s.ringEmptyFor r none (chanConsumer c.unit c.number) then
    ((s.streamPoison c r.page 0x3040 0x21 d).layPieces none b.runs (zeros b.size)).sentBlock c
  else if b.runs.any fun x => !s.inWindows x.1 x.2 then (s.streamPoison c .mmu 0x5004 0x21 d).sentBlock c
  else
    let a := s.ringAddr r ((s.ringDrainOf r none (chanConsumer c.unit c.number)).getD (s.ringH r))
    (s.layPieces none b.runs (s.load a b.size)).sentBlock c

/-- STREAM_BLOCK_DONE (R371, R375): the next block of ACTIVE has moved; a fault held by a run-ahead block is reported
when the block's turn comes. -/
def execStreamBlockDone (u : Fin 24) (ch : Fin 8) (s : State) : Result :=
  let c := s.chan u.val ch.val
  .next (match c.active with
    | none => s
    | some l =>
      if s.rd (.str u.val) STR.EN ch.val = 0 ∨ c.stalled.isSome ∨ s.chanWaits c then s
      else if c.ctx.isNone then s.lockedBlock c l
      else match c.heldFault with
        | some f => (s.setChan { c with heldFault := none }).streamXlateFault { c with heldFault := none } (s.blockAt l c.pos) ⟨f.1, f.2, 0, 0⟩
        | none => s.openBlock c l)

/-- STREAM_LATE (R372): a locked block incomplete at its clock leaves the slot's old contents and poisons the
consumers. -/
def execStreamLate (u : Fin 24) (ch : Fin 8) (s : State) : Result :=
  let c := s.chan u.val ch.val
  let r := s.chanRing u.val ch.val
  .next (match c.active, c.ctx with
    | some _, none =>
      let s1 := s.streamPoison c (.str u.val) 0x3045 0x21 []
      if s.chanIn u.val ch.val then s1.landBlock c (s.load (s.ringAddr r (s.ringT r)) (s.ringSlot r)) else s1.sentBlock c
    | _, _ => s)

/-- A run-ahead block of PENDING fetched and filled behind the last block of ACTIVE (R371); its fault is held. -/
def State.runAhead (s : State) (c : Channel) (p : StreamList) : State :=
  let r := s.chanRing c.unit c.number
  let b := s.blockAt p c.ahead
  let free : Bool := s.ringGap r (s.ringH r) (s.ringT r) + c.ahead + 1 < s.ringN r
  if !s.chanIn c.unit c.number || s.rd (.str c.unit) STR.RUNAHEAD c.number ≤ c.ahead || 8 ≤ c.ahead || p.count ≤ c.ahead
      || !free || c.heldFault.isSome || b.invalid (s.ringSlot r) then s
  else
    let x := s.xlateAll (c.ctx.getD 0) false (cutRanges b.runs)
    match x.2.1 with
    | some f => x.2.2.setChan { c with heldFault := some (f.code, f.addr) }
    | none =>
      if x.1.any (isHost ·.1) || (s.badIn x.1).isSome then x.2.2
      else
        let a := s.ringAddr r (s.ringPlus r (s.ringT r) (c.ahead + 1))
        let s1 := (x.2.2.markWrite (c.ctx.getD 0) a).store a (padTo (s.ringSlot r) (s.gatherBytes x.1))
        (s1.ringFill r).setChan { c with ahead := c.ahead + 1 }

/-- MMU_WALK_DONE (R365, R371): the translations of the channel's next block are held or fault; once the last block of
ACTIVE has issued, those of run-ahead blocks. -/
def execMmuWalkDone (u : Fin 24) (ch : Fin 8) (s : State) : Result :=
  let c := s.chan u.val ch.val
  .next (match c.active, c.ctx with
    | some l, some ctx =>
      if c.stalled.isSome then s
      else if !c.walked then
        let b := s.blockAt l c.pos
        if b.invalid (s.ringSlot (s.chanRing u.val ch.val)) then
          s.streamAbort c (.str u.val) 0x3047 (streamDetails c.pos 0 b.coord b.addr false)
        else
          let x := s.xlateAll ctx (!s.chanIn u.val ch.val) (cutRanges b.runs)
          match x.2.1 with
          | some f => x.2.2.streamXlateFault c b f
          | none => x.2.2.setChan { c with walked := true }
      else match c.pend with
        | some p => if l.count ≤ c.pos + 1 then s.runAhead c p else s
        | none => s
    | _, _ => s)

/-- What a write of RESUME_CTX does (R374): the stalled block of the context is translated again, and goes on or
aborts. -/
def resumeAct (s : State) (ctx : Nat) : State :=
  match s.fabric.channels.find? fun c => c.ctx = some ctx ∧ c.stalled.isSome with
  | none => s
  | some c =>
    let c1 := { c with stalled := none, resumed := true }
    match c.active with
    | none => s.setChan c1
    | some l =>
      let b := s.blockAt l c.pos
      let x := s.xlateAll ctx false (cutRanges b.runs)
      match x.2.1 with
      | some f => x.2.2.streamXlateFault c1 b f
      | none => x.2.2.setChan { c1 with walked := true }

/-- PF_WAIT_EXPIRE (R374). -/
def execPfWaitExpire (u : Fin 24) (ch : Fin 8) (s : State) : Result :=
  let c := s.chan u.val ch.val
  .next (match c.stalled with
    | none => s
    | some (a, code, since) =>
      if s.time.beatNo < since + s.rd .mmu MMU.PF_WAIT then s
      else
        let b := match c.active with | some l => s.blockAt l c.pos | none => parseBlock []
        ((s.raise .mmu 1).streamAbort { c with stalled := none } .mmu code (streamDetails c.pos 0 b.coord a false)))

/-! ### GDDR6 (R359–R362) -/

/-- Counters of a channel of a group. -/
def State.mcgCount (s : State) (ch : Nat) (f : RField) (d : Nat := 1) : State := s.count (.mcg (ch / 8)) f d (ch % 8)

/-- A reader of an uncorrectable line is treated by its kind (R359). -/
def State.uncorrReader (s : State) (reader : MemReader) (d : List Nat) : State :=
  match reader with
  | .locked node => s.poisonNode node 0x20
  | .task ctx => s.abortTask ctx.val 0x1040
  | .stream u ch =>
    let c := s.chan u.val ch.val
    if c.active.isNone then s
    else match c.ctx with
      | some _ => s.streamAbort c .mc 0x1040 d
      | none => (match c.node with | some n => s.poisonNode n 0x20 | none => s)
  | .host | .patrol => s

/-- GDDR_ACCESS_DONE (R359–R361): the line's ECC and the burst's EDC decide what the access meets. -/
def execGddrAccessDone (a : BitVec 64) (write : Bool) (badBytes : Nat) (edc : EdcResult) (reader : MemReader)
    (s : State) : Result :=
  let addr := a.toNat
  let line := addr / 64
  let ch := gddrChannel addr
  let d := [line * 64 % 2 ^ 32, line * 64 / 2 ^ 32]
  let ecc := s.fabric.eccOn.getD (ch / 8) true
  let locked : Bool := match reader with | .locked _ => true | _ => false
  let s1 : State := match edc with
    | .clean => s
    | .retried n => s.mcgCount ch MCG.CNT_EDC_RETRY (n.val + 1)
    | .exhausted => ((s.mcgCount ch MCG.CNT_EDC_RETRY (if locked then 8 else 4)).mcgCount ch MCG.CNT_EDC_EXHAUST).fault .mc 0x1041 d
  let bad (t : State) : State := { t with fabric := { t.fabric with badLines := setInsert line t.fabric.badLines } }
  .next (if !s.isGddr addr then s
    else if edc = .exhausted then (if write then (if ecc then bad s1 else (s1.drawBytes 64).2.store (line * 64) (s1.drawBytes 64).1) else s1.uncorrReader reader d)
    else if write ∨ !ecc ∨ badBytes = 0 then s1
    else if badBytes = 1 then
      let s2 := s1.mcgCount ch MCG.CNT_ECC_CORR
      if reader = .patrol then s2
      else { s2 with fabric := { s2.fabric with weakLines := setInsert line s2.fabric.weakLines } }
    else if reader = .patrol then ((bad s1).noteUncorr line).fault .mc 0x1042
    else (((bad s1).noteUncorr line).fault .mc 0x1040 d).uncorrReader reader d)

/-- The lines patrol reads on a channel in one beat (R361): rewritten where they had been corrected, reported where they
cannot be. -/
def State.patrolChannel (s : State) (p : Patrol) : State :=
  let n := s.rd .mc MC.PATROL_LINES
  let lines := groupBytes (s.fabric.eccOn.getD (p.ch / 8) true) / 512
  if !s.domainReady (35 + p.ch / 8) ∨ n = 0 then s
  else
    let hit (q : Nat) : Bool := gddrChannel (q * 64) = p.ch && (gddrLine (q * 64) + lines - p.q) % lines < n
    let s1 := (s.fabric.badLines.filter hit).foldl (fun s q =>
      ((s.noteUncorr q).fault .mc 0x1042)) s
    let s2 : State := { s1 with fabric := { s1.fabric with
      weakLines := s1.fabric.weakLines.filter fun q => !hit q
      patrol := s1.fabric.patrol.map fun x => if x.ch = p.ch then { x with q := (p.q + n) % lines } else x } }
    if p.ch = 0 ∧ lines ≤ p.q + n then s2.count .mc MC.CNT_PATROL_PASS else s2

/-- Patrol's part of a beat. -/
def State.patrolBeat (s : State) : State := s.fabric.patrol.foldl (fun s p => s.patrolChannel p) s

/-- RETRAIN_CYCLE_END (R362). -/
def execRetrainCycleEnd (ch : Fin 16) (margin : Nat) (s : State) : Result :=
  let p : Page := .mcg (ch.val / 8)
  .next (if !s.domainReady (35 + ch.val / 8) then s
    else
      let s1 := s.wr p MCG.MARGIN margin (ch.val % 8)
      if margin < s.rd p MCG.MARGIN_MIN then s1.fault p 0x1043 else s1)

/-! ### The block owner directory (R318–R320, R327) -/

/-- The device address range of a BOD entry's block can belong to locked work (R90, R320). -/
def State.bodLocked (s : State) (e : Nat) : Bool :=
  let off := bits e 57 16 * 64
  let c := bits e 5 3
  if bits e 2 1 = 0 then s.lockedGddr off 64
  else if bits e 2 1 = 1 then s.lockedCmem c (off / 65536)
  else s.lockedUnit (4 * c + bits e 7 6)

/-- An entry may not be stored over what stands there (R320). -/
def State.bodRefused (s : State) (i e : Nat) : Bool := (s.bodEntry i).testBit 8 || e.testBit 8 || (e.testBit 0 && s.bodLocked e)

/-- An entry stored; 0 removes it. -/
def State.bodStore (s : State) (i e : Nat) : State :=
  { s with fabric := { s.fabric with bod := if e = 0 then s.fabric.bod.filter (·.1 ≠ i) else assocSet i e s.fabric.bod } }

/-- What a write of ENT_HI answers (R320, R327), given the word written. -/
def entHiCheck (s : State) (v : Nat) : Nat × State :=
  if s.rd .bod BOD.BULK_BUSY = 1 then (0x0A, s)
  else if s.bodRefused (s.rd .bod BOD.ENT_SEL) (s.rd .bod BOD.ENT_LO + 2 ^ 32 * v) then (0x07, s) else (0, s)

/-- What a write of ENT_HI does. -/
def entHiAct (s : State) (v : Nat) : State :=
  s.bodStore (s.rd .bod BOD.ENT_SEL) (s.rd .bod BOD.ENT_LO + 2 ^ 32 * v)

/-- What a read of ENT_LO answers: it latches the upper bits (R327). -/
def State.entLoRead (s : State) : Nat × State :=
  let e := s.bodEntry (s.rd .bod BOD.ENT_SEL)
  (e % 2 ^ 32, (s.wr .bod BOD.ENT_LO (e % 2 ^ 32)).wr .bod BOD.ENT_HI (e / 2 ^ 32))

/-- What a write of BULK_GO answers (R327). -/
def bulkCheck (s : State) : Nat × State :=
  let n := s.rd .bod BOD.BULK_COUNT
  if s.rd .bod BOD.BULK_BUSY = 1 then (0x0A, s)
  else if n = 0 ∨ 65536 < s.rd .bod BOD.BULK_FIRST + n then (0x0B, s) else (0, s)

/-- What a write of BULK_GO does. -/
def bulkAct (s : State) : State :=
  let b : BulkLoad := ⟨s.rd2 .bod BOD.BULK_ADDR_LO BOD.BULK_ADDR_HI, s.rd .bod BOD.BULK_FIRST, s.rd .bod BOD.BULK_COUNT⟩
  ({ s with fabric := { s.fabric with bulk := some b } }).wr .bod BOD.BULK_BUSY 1

/-- BULK_DONE (R327): the whole load, or none of it. -/
def execBulkDone (s : State) : Result :=
  .next (match s.fabric.bulk with
    | none => s
    | some b =>
      let s1 := ({ s with fabric := { s.fabric with bulk := none } }).wr .bod BOD.BULK_BUSY 0
      let es := (List.range b.count).map fun i => (b.first + i, s.loadNat (b.addr + 8 * i) 8)
      let status : Nat :=
        if !s.openGddr b.addr (8 * b.count) then 0x06
        else if (s.badIn [(b.addr, 8 * b.count)]).isSome then 0x09
        else if es.any fun e => s.bodRefused e.1 e.2 then 0x07 else 0
      let s2 := (s1.wr .bod BOD.BULK_STATUS status).raise .bod 0
      if status = 0 then es.foldl (fun s e => s.bodStore e.1 e.2) s2 else s2)

/-- The valid entries of a core's blocks dropped when the core is retired (R320). -/
def State.bodDropCore (s : State) (u : Nat) : State :=
  let step (e : Nat × Nat) : Nat × Nat :=
    if e.2.testBit 0 ∧ !e.2.testBit 8 ∧ bits e.2 2 1 = 2 ∧ bits e.2 5 3 = u / 4 ∧ bits e.2 7 6 = u % 4 then (e.1, e.2 - 1) else e
  { s with fabric := { s.fabric with bod := s.fabric.bod.map step } }

/-- The directory cleared (R320): when its page is reset, or PD37 is switched on. -/
def State.bodClear (s : State) : State :=
  let s1 : State := { s with fabric := { s.fabric with bod := [], bulk := none } }
  (List.range 64).foldl (fun s r => s.wr .bod BODR.EN 0 r) s1

end Sys2Proof.Machine
end

