-- ==== Sys2Proof/Machine/Causes.lean ====
section
/-! DEFINITION. Causes of safe state (R410, R411), units and placement entries (R249), the retirement of cores and the loss
of clusters (R25, R254, R429). -/

namespace Sys2Proof.Machine

/-! ### Placement entries -/

/-- A placement entry is usable: it names no unit that is absent (R249, R430). -/
def State.usable (s : State) (p : Placement) : Bool := p.units.all fun u => 24 ≤ u || !s.absent u

/-- The first usable entry of a package (R249). -/
def State.chooseEntry (s : State) (p : Package) : Option Nat :=
  (List.range p.sec.placements.length).find? fun i => match p.entry? i with | some e => s.usable e | none => false

/-- The units that a placement entry names. -/
def Placement.cores (p : Placement) : List Nat := (List.range 24).filter fun u => p.names u

/-- The placement entry in use of the running set. -/
def State.inUse (s : State) : Option Placement :=
  match s.amt.running with
  | some r => if r.released then none else r.pkg.entry? r.entry
  | none => none

/-- The units of the placement entry in use. -/
def State.inUseUnits (s : State) : List Nat := match s.inUse with | some p => p.cores | none => []

/-- A cluster that the placement entry in use names. -/
def State.clusterInUse (s : State) (c : Nat) : Bool :=
  s.inUseUnits.any (fun u => u / 4 = c) || (match s.inUse with | some p => p.cmemSegs.any (·.1 = c) | none => false)

/-- A unit that some usable entry of the running set names (R255, R426). -/
def State.usableNames (s : State) (u : Nat) : Bool :=
  match s.amt.running with
  | some r => !r.released && r.pkg.sec.placements.any fun p => s.usable p && p.names u
  | none => false

/-! ### Test instances -/

/-- The instance of a core. -/
def unitInst (u : Nat) : List TestInstance := if h : u < 24 then [.unit ⟨u, h⟩] else []

/-- The instance of a cluster. -/
def clusterInst (c : Nat) : List TestInstance := if h : c < 6 then [.cluster ⟨c, h⟩] else []

/-- The domain that an instance needs. -/
def instDomain : TestInstance → Option Nat
  | .unit u => some u.val
  | .cluster c => some (24 + c.val)
  | .ife => some 30
  | .channel n => some (35 + n.val / 8)
  | .central => some 37
  | .plinth => none

/-- A mode begins on every test of an instance, from quantum 0; one already under way goes on (R425). -/
def State.startMode (s : State) (i : TestInstance) (mode : Nat) : State :=
  let step (t : TestState) : TestState :=
    if t.inst = i ∧ !(t.runs.any (·.mode = mode)) then { t with runs := t.runs ++ [TestRun.fresh mode] } else t
  { s with rasp := { s.rasp with tests := s.rasp.tests.map step } }

/-- A mode begins on every test of an instance, from quantum 0 even where it was under way (R410, cause 0x03). -/
def State.startAnew (s : State) (i : TestInstance) (mode : Nat) : State :=
  let step (t : TestState) : TestState := if t.inst = i then { t with runs := t.runs.filter (·.mode ≠ mode) } else t
  ({ s with rasp := { s.rasp with tests := s.rasp.tests.map step } }).startMode i mode

/-- Targeted tests that begin at the next beat boundary (R425). -/
def State.wantTargeted (s : State) (l : List TestInstance) : State :=
  { s with rasp := { s.rasp with toTarget := setUnion s.rasp.toTarget l } }

/-! ### Causes (R410, R411) -/

/-- Causes that have ended and whose clearance has passed are gone; with none left the device is held (R410). -/
def State.settle (s : State) : State :=
  let left := s.plinth.causes.filter fun c => !(c.ended && c.units.isEmpty && !c.block)
  let s1 := ({ s with plinth := { s.plinth with causes := left } }).wr .pln PLN.CAUSES
    (ofBits 8 fun i => left.any (·.code = i + 1))
  if s.plinth.safe && left.isEmpty && s.rd .pln PLN.HELD = 0 then (s1.wr .pln PLN.HELD 1).raise .pln 1 else s1

/-- Safe state entered, from not-safe (R411). -/
def State.enterSafe (s : State) (code detail : Nat) : State :=
  if s.plinth.safe then s.wr .pln PLN.HELD 0
  else
    let m : SafeMark := ⟨s.time.beatNo, code, detail⟩
    let s1 : State := { s with plinth := { s.plinth with safe := true, marks := s.plinth.marks ++ [m] } }
    let s2 := (s1.wr .pln PLN.SAFE 1).wr2 .pln PLN.SAFE_BEAT_LO PLN.SAFE_BEAT_HI s.time.beatNo
    (s2.count .pln PLN.CNT_SAFE_ENTRY).raise .pln 0

/-- Fault record SAFE_ENTERED (R470). -/
def State.safeEntered (s : State) (code detail : Nat) : State :=
  s.faultRec .pln 0x6040 0 [code + 256 * detail, 0, 0, 0] true

/-- Units enter PLN.SAFE_UNITS and their targeted tests (R410, R425). -/
def State.addSafeUnits (s : State) (us : List Nat) : State :=
  let v := s.rd .pln PLN.SAFE_UNITS
  (s.wr .pln PLN.SAFE_UNITS (ofBits 24 fun u => v.testBit u || decide (u ∈ us))).wantTargeted (us.flatMap unitInst)

/-- A cause arises (R410, R411), with the units it adds to PLN.SAFE_UNITS, those among them whose targeted tests it
waits for when `wait`, and whether the test of a block clears it. A further row of code 0x02 writes no second fault
record. -/
def State.addCause (s : State) (code detail : Nat) (units : List Nat := []) (ended : Bool := false)
    (block : Bool := false) (wait : Bool := true) : State :=
  let us := units.filter fun u => u < 24 && !s.disabled u && !s.retired u
  let gate := if wait then us else []
  match s.plinth.causes.find? fun c => c.code = code ∧ c.detail = detail with
  | some _ =>
    let step (c : Cause) : Cause :=
      if c.code = code ∧ c.detail = detail then
        { c with ended := ended, units := setUnion c.units gate, block := c.block || block } else c
    (({ s with plinth := { s.plinth with causes := s.plinth.causes.map step } }).addSafeUnits us).settle
  | none =>
    let quiet : Bool := code = 2 && s.plinth.causes.any (·.code = 2)
    let s1 := if quiet then s else s.safeEntered code detail
    let s2 : State := { s1 with plinth := { s1.plinth with causes := s1.plinth.causes ++ [⟨code, detail, ended, gate, block⟩] } }
    ((s2.enterSafe code detail).addSafeUnits us).settle

/-- Causes that end: those of a code whose detail satisfies `f` (R410). -/
def State.endCauses (s : State) (code : Nat) (f : Nat → Bool) : State :=
  let step (c : Cause) : Cause := if c.code = code && f c.detail then { c with ended := true } else c
  ({ s with plinth := { s.plinth with causes := s.plinth.causes.map step } }).settle

/-- The clearance test of a block has passed, or the block's cause needs it no more (R410, R428). -/
def State.clearBlock (s : State) (code detail : Nat) : State :=
  let step (c : Cause) : Cause := if c.code = code ∧ c.detail = detail then { c with ended := true, block := false } else c
  ({ s with plinth := { s.plinth with causes := s.plinth.causes.map step } }).settle

/-- Units whose targeted test has passed, or which count as retired (R410), no longer hold up the causes that have
ended; `all`: nor those that have not. -/
def State.clearUnits (s : State) (us : List Nat) (all : Bool) : State :=
  let step (c : Cause) : Cause :=
    if c.ended || all then { c with units := c.units.filter fun u => !(u ∈ us) } else c
  ({ s with plinth := { s.plinth with causes := s.plinth.causes.map step } }).settle

/-! ### Retirement (R429, R254) -/

/-- A retirement in the running set's entry begins a move, or begins it anew (R254, R429). -/
def State.signalRetire (s : State) (u : Nat) : State :=
  let d := if s.time.phase = .early then s.time.beatNo else s.time.beatNo + 1
  let us := match s.amt.retiring with | some r => setInsert u r.units | none => [u]
  { s with amt := { s.amt with retiring := some { units := us, d := d, s := d + 2, entry := none, aborted := false } } }

/-- AMT.ABSENT shows disabled and retired units. -/
def State.showAbsent (s : State) : State := s.wr .amt AMT.ABSENT s.unitMap

/-- One more retirement of a unit in the counts of the RSP page. -/
def State.countRetired (s : State) (u : Nat) : State :=
  let f := if u < 16 then RSP.RETIRE_CNT0 else RSP.RETIRE_CNT1
  let v := s.rd .rsp f
  let n := bits v (2 * (u % 16) + 1) (2 * (u % 16))
  s.wr .rsp f (putBits v (2 * (u % 16)) 2 (min 3 (n + 1)))

/-- A bit of a unit bitmap changed. -/
def State.unitBit (s : State) (p : Page) (f : RField) (u : Nat) (on : Bool) : State :=
  s.wr p f (putBits (s.rd p f) u 1 (b2n on))

/-- What ran on a core is lost: locked runs without flag and digest (R254), open tasks aborted. -/
def State.loseCore (s : State) (u : Nat) : State :=
  let ctxs := ((s.core u).nodes.filter (!·.locked)).map (·.ctx)
  let lose (r : NodeRun) : NodeRun := if r.unit = u ∧ !r.flagged then { r with lost := true } else r
  let s1 := { s with amt := { s.amt with runs := s.amt.runs.map lose } }
  let s2 := ctxs.foldl (fun s c => s.abortTask c 0x7010 (some u) 0xFFFF) s1
  s2.setCore u []

/-- A core is retired (R429); `why` goes into the audit entry beside the unit. -/
def State.retireUnit (s : State) (u why : Nat) : State :=
  if 24 ≤ u || s.disabled u || s.retired u then s
  else
    let named : Bool := u ∈ s.inUseUnits
    let s1 := ((s.unitBit .rsp RSP.RETIRED u true).unitBit .rsp RSP.READMIT_PEND u false).unitBit .ccp CCP.TT_PENDING u false
    let s2 := ((s1.unitBit .rsp RSP.TARGETED u false).unitBit .rsp RSP.LATENT_U u false).countRetired u
    let drop (t : TestState) : TestState :=
      if t.inst ∈ unitInst u then { t with rotation := TestRun.fresh 0, runs := [], last := none, missed := false, expired := false }
      else t
    let s3 : State := { s2 with rasp := { s2.rasp with
      tests := s2.rasp.tests.map drop
      toTarget := s2.rasp.toTarget.filter fun i => !(i ∈ unitInst u)
      retiredInService := setInsert u s2.rasp.retiredInService } }
    let s4 := ((s3.unitFault .rsp 0x7010 u [] true).raise .rsp 2).plinthAudit 0x70 4 0x80 0 (leBytes 1 u ++ leBytes 2 why)
    let s5 := ((((if u % 4 = 3 then s4 else s4.pmCause 3 u 0xFF 0xFFFF 0x7010 (!s.domainReady u)).loseCore u).bodDropCore u)).showAbsent
    if named then s5.signalRetire u else s5

/-- Every enabled core of a cluster that is not retired yet, retired (R25). -/
def State.retireCluster (s : State) (c why : Nat) : State :=
  let s1 := [0, 1, 2, 3].foldl (fun s k => s.retireUnit (4 * c + k) why) s
  let s2 := s1.unitBit .rsp RSP.FAILED_CLU c true
  { s2 with power := { s2.power with failedClusters := setInsert c s2.power.failedClusters } }

/-- A fault in a cluster's controller, shared memory or fabric (R25, R410). -/
def State.clusterFault (s : State) (c why : Nat) : State :=
  if s.clusterInUse c then
    (s.addCause 7 c ((List.range 4).map (4 * c + ·)) true true false).wantTargeted (clusterInst c)
  else s.retireCluster c why

/-- Retired units whose retirement has taken effect (R410): all but those of a move still under way. -/
def State.retiredEffective (s : State) : List Nat :=
  let moving := match s.amt.retiring with | some r => r.units | none => []
  (List.range 24).filter fun u => s.retired u && !(u ∈ moving)

/-- At a beat boundary: causes and PLN.SAFE_UNITS no longer wait for units whose retirement has taken effect. -/
def State.settleRetired (s : State) : State :=
  let us := s.retiredEffective
  if us.isEmpty then s
  else
    let v := s.rd .pln PLN.SAFE_UNITS
    (s.wr .pln PLN.SAFE_UNITS (ofBits 24 fun u => v.testBit u && !(u ∈ us))).clearUnits us true

/-- The condition of reason 0x30 (R17, R254): a core retired in service whose retirement has taken effect; answers the
lowest. -/
def State.reduced (s : State) : Option Nat :=
  s.retiredEffective.find? (· ∈ s.rasp.retiredInService)

end Sys2Proof.Machine
end

