-- ==== Sys2Proof/Machine/Planes.lean ====
section
/-! DEFINITION. Planes of pixels, and the arithmetic the vision chapters share (R129, and its likes in chapters 07–09). -/

namespace Sys2Proof.Machine

/-- Rows of values. -/
abbrev Plane := List (List Int)

/-- The value at a row and column; 0 outside. -/
def Plane.at (p : Plane) (r c : Nat) : Int := (p.getD r []).getD c 0

/-- A plane made of a function of row and column. -/
def tab (h w : Nat) (f : Nat → Nat → Int) : Plane :=
  (List.range h).map fun r => (List.range w).map fun c => f r c

/-- An image without the rows named: their values 0, and missing. -/
def losing (rows : List Nat) (x : Plane × List Nat) : Plane × List Nat :=
  if rows = [] then x
  else ((x.1.zip (List.range x.1.length)).map fun y => if y.2 ∈ rows then [] else y.1,
        (List.range x.1.length).filter fun r => r ∈ rows || r ∈ x.2)

/-- rnd(v, s) = ⌊(v + 2^(s−1)) / 2^s⌋, ties towards plus infinity; v itself for s = 0 (R129). -/
def rnd (v : Int) (s : Nat) : Int := if s = 0 then v else (v + 2 ^ (s - 1)) / 2 ^ s

/-- A division "v ÷ w" (R129). -/
def divRnd (v w : Int) : Int := if w = 0 then 0 else (v + w / 2) / w

/-- clamp to 0–65535 (R129). -/
def clamp16 (v : Int) : Int := clampInt 0 65535 v

/-- An index reflected about the edges without repeating them (R130). -/
def reflect (n : Nat) (i : Int) : Nat :=
  if i < 0 then (-i).toNat else if (n : Int) ≤ i then (2 * ((n : Int) - 1) - i).toNat else i.toNat

/-- An index held within 0 … n − 1. -/
def hold (n : Nat) (i : Int) : Nat := (clampInt 0 ((n : Int) - 1) i).toNat

/-- The sum of a list. -/
def sumI (l : List Int) : Int := l.foldl (· + ·) 0

/-- The least element of a list, or a default. -/
def minI (d : Int) (l : List Int) : Int := l.foldl min d

/-- The greatest element of a list, or a default. -/
def maxI (d : Int) (l : List Int) : Int := l.foldl max d

/-- The absolute value. -/
def absI (v : Int) : Int := if v < 0 then -v else v

/-- The offsets of a square window of radius `r`, row by row. -/
def windowOf (r : Nat) : List (Int × Int) :=
  (List.range (2 * r + 1)).flatMap fun (i : Nat) =>
    (List.range (2 * r + 1)).map fun (j : Nat) => ((i : Int) - r, (j : Int) - r)

/-- Bilinear interpolation of four corners with fractions out of 2^b, unrounded: weight 2^(2b) in all. -/
def bilin (b : Nat) (fx fy a00 a10 a01 a11 : Int) : Int :=
  (2 ^ b - fx) * (2 ^ b - fy) * a00 + fx * (2 ^ b - fy) * a10 + (2 ^ b - fx) * fy * a01 + fx * fy * a11

end Sys2Proof.Machine
end

