-- ==== Sys2Proof/Machine/SgePixels.lean ====
section
/-! DEFINITION. The stereo engine's arithmetic (R156–R170): census and cost, the four paths, the choice, the fit, the
status, the exports. -/

namespace Sys2Proof.Machine

/-- A stereo context's parameters and the frame it works on. -/
structure Stereo where
  w : Nat
  h : Nat
  win : Nat
  lrEn : Bool
  fit : Nat
  p1 : Int
  p2Max : Int
  p2Edge : Int
  cwCen : Int
  cwAd : Int
  adTrunc : Int
  uniq : Int
  flatT : Int
  lrTol : Int
  satLevel : Int
  /-- Bias table of 64 entries. -/
  bc : List Int
  /-- Predictions by block, row by row, in UQ12.4. -/
  pred : Plane
  left : Plane
  right : Plane
  leftMissing : List Nat
  rightMissing : List Nat
  /-- Output rows whose path state was lost (R174). -/
  lostPaths : List Nat

/-- A sample brought to 12 bits (R158). -/
def to12 (bits : Nat) (p : Int) : Int := p * 2 ^ (16 - bits) / 16

/-- A tap reflected at the edges, the centre on a missing row (R130). -/
def tapOf (w h : Nat) (missing : List Nat) (p : Plane) (r c : Nat) (dr dc : Int) : Int :=
  let y := reflect h ((r : Int) + dr)
  if y ∈ missing then p.at r c else p.at y (reflect w ((c : Int) + dc))

/-- The census of a pixel (R159): its 62 taps in row-major order, greater than the centre or not. -/
def census (w h : Nat) (missing : List Nat) (p : Plane) (r c : Nat) : List Bool :=
  (List.range 7).flatMap fun (i : Nat) => ((List.range 9).filter fun (j : Nat) => !(i = 3 ∧ j = 4)).map fun (j : Nat) =>
    decide (p.at r c < tapOf w h missing p r c ((i : Int) - 3) ((j : Int) - 4))

/-- The Hamming distance of two census words. -/
def hamming (a b : List Bool) : Nat := ((a.zip b).filter fun x => x.1 ≠ x.2).length

/-- A list of disparities with a cost for each. -/
abbrev Curve := List (Nat × Int)

/-- The cost at a disparity, if it is a candidate. -/
def Curve.at? (l : Curve) (d : Nat) : Option Int := (l.find? (·.1 = d)).map (·.2)

/-- The least cost of a curve. -/
def Curve.least (l : Curve) : Int := match l with | [] => 0 | x :: r => minI x.2 (r.map (·.2))

/-- The window start of a block (R161). -/
def Stereo.start (t : Stereo) (r c : Nat) : Nat :=
  let k := (t.pred.at (r / 4) (c / 4) + 8) / 16
  (min (max (k - t.win / 2) 0) (4096 - t.win)).toNat

/-- The effective window (R161): disparities up to the column. -/
def Stereo.window (t : Stereo) (r c : Nat) : List Nat :=
  ((List.range t.win).map (· + t.start r c)).filter (· ≤ c)

/-- The matching cost (R159), given the census rows of both images. -/
def Stereo.cost (t : Stereo) (cl cr : List (List Bool)) (r c d : Nat) : Int :=
  let h := hamming (cl.getD c []) (cr.getD (c - d) [])
  let ad := min (absI (t.left.at r c - t.right.at r (c - d))) t.adTrunc
  min 255 (t.cwCen * h + rnd (t.cwAd * ad) 6)

/-- The costs of a row, a curve for each pixel. -/
def Stereo.costRow (t : Stereo) (r : Nat) : List Curve :=
  let cl := (List.range t.w).map (census t.w t.h t.leftMissing t.left r)
  let cr := (List.range t.w).map (census t.w t.h t.rightMissing t.right r)
  (List.range t.w).map fun c => (t.window r c).map fun d => (d, t.cost cl cr r c d)

/-- P2 between a pixel and its predecessor (R163). -/
def Stereo.p2 (t : Stereo) (vp vq : Int) : Int :=
  max t.p1 (t.p2Max - rnd (t.p2Edge * min 255 (divRnd (absI (vp - vq)) 16)) 8)

/-- A path's costs at a pixel from those at its predecessor (R163); an empty predecessor starts the path. -/
def Stereo.pathStep (t : Stereo) (p2 : Int) (cost prev : Curve) : Curve :=
  if prev = [] then cost
  else
    let lm := prev.least
    cost.map fun x =>
      let d := x.1
      let opts := [prev.at? d, (if d = 0 then none else prev.at? (d - 1)).map (· + t.p1), (prev.at? (d + 1)).map (· + t.p1)]
      (d, x.2 + minI (lm + p2) (opts.filterMap id) - lm)

/-- The horizontal path along a row. -/
def Stereo.pathH (t : Stereo) (r : Nat) : Nat → Curve → List Curve → List Curve
  | _, _, [] => []
  | c, prev, x :: rest =>
    let l := t.pathStep (t.p2 (t.left.at r c) (t.left.at r (c - 1))) x (if c = 0 then [] else prev)
    l :: t.pathH r (c + 1) l rest

/-- A path from the row above, `dx` columns away. -/
def Stereo.pathUp (t : Stereo) (r : Nat) (dx : Int) (cost above : List Curve) : List Curve :=
  (cost.zip (List.range t.w)).map fun x =>
    let q := (x.2 : Int) + dx
    if r = 0 ∨ q < 0 ∨ (t.w : Int) ≤ q then x.1
    else t.pathStep (t.p2 (t.left.at r x.2) (t.left.at (r - 1) q.toNat)) x.1 (above.getD q.toNat [])

/-- What a row leaves for the next: its PD, PV and PA costs, and its aggregated costs. -/
structure StereoRow where
  pd : List Curve
  pv : List Curve
  pa : List Curve
  sum : List Curve

/-- A pair row is missing in either image (R157), or its path state was lost: it is NO_DATA, and every pixel of the next row
starts its paths (R174). -/
def Stereo.missing (t : Stereo) (r : Nat) : Bool := r ∈ t.leftMissing || r ∈ t.rightMissing || r ∈ t.lostPaths

/-- Nothing above: every pixel starts its paths. -/
def StereoRow.none : StereoRow := ⟨[], [], [], []⟩

/-- A row aggregated from the one above (R163). -/
def Stereo.row (t : Stereo) (r : Nat) (above : StereoRow) : StereoRow :=
  if t.missing r then StereoRow.none
  else
    let c := t.costRow r
    let ph := t.pathH r 0 [] c
    let pd := t.pathUp r (-1) c above.pd
    let pv := t.pathUp r 0 c above.pv
    let pa := t.pathUp r 1 c above.pa
    let sum := (ph.zip (pd.zip (pv.zip pa))).map fun x => x.1.map fun y =>
      let g (l : Curve) : Int := (l.at? y.1).getD 0
      (y.1, y.2 + g x.2.1 + g x.2.2.1 + g x.2.2.2)
    ⟨pd, pv, pa, sum⟩

/-- All rows from row `r` on, `n` of them. -/
def Stereo.rowsFrom (t : Stereo) : Nat → Nat → StereoRow → List (List Curve)
  | 0, _, _ => []
  | n + 1, r, above =>
    let x := t.row r above
    x.sum :: t.rowsFrom n (r + 1) x

/-- The winner of a curve (R164): d*, S1, S2, Smax. -/
structure Winner where
  d : Nat
  s1 : Int
  s2 : Int
  smax : Int
deriving DecidableEq, Repr

/-- The first candidate of least cost; its rivals at distance 2 or more. -/
def Curve.winner (l : Curve) : Option Winner :=
  match l.find? (fun x => x.2 = l.least) with
  | none => none
  | some x =>
    let far : Curve := l.filter fun y => y.1 + 2 ≤ x.1 ∨ x.1 + 2 ≤ y.1
    some ⟨x.1, x.2, if far = [] then x.2 else far.least, maxI 0 (l.map (·.2))⟩

/-- The winner is at an edge of its candidates (R164). -/
def Curve.edge (l : Curve) (d : Nat) : Bool :=
  (decide (0 < d) && l.all fun x => d ≤ x.1) || (decide (d < 4095) && l.all fun x => x.1 ≤ d)

/-- The bias at a raw disparity (R167). -/
def Stereo.bias (t : Stereo) (raw : Int) : Int :=
  let ph := (raw % 256).toNat
  let i := ph / 4
  let a := t.bc.getD i 0
  a + rnd ((t.bc.getD ((i + 1) % 64) 0 - a) * (ph % 4 : Nat)) 2

/-- The disparity in 1/256 px (R166, R167). -/
def Stereo.fitted (t : Stereo) (l : Curve) (x : Winner) : Int :=
  let raw (k : Int) : Int := 256 * x.d + k
  match (if x.d = 0 then none else l.at? (x.d - 1)), l.at? (x.d + 1) with
  | some a, some b =>
    let num := 256 * (a - b)
    let den := if t.fit = 0 then 2 * (a + b - 2 * x.s1) else 2 * max (a - x.s1) (b - x.s1)
    let delta := if den = 0 then 0
      else clampInt (-128) 128 ((if num < 0 then -1 else if num = 0 then 0 else 1) * divRnd (absI num) den)
    min 0xFFFFF (max 0 (raw delta - t.bias (raw delta)))
  | _, _ => min 0xFFFFF (max 0 (raw 0))

/-- A pixel's result before it is packed: disparity, confidence, status (R168). -/
structure Disp where
  disp : Int
  conf : Int
  status : Nat
deriving DecidableEq, Repr

/-- No data (R168). -/
def Disp.none : Disp := ⟨0, 0, 6⟩

/-- CONF (R169). -/
def Winner.conf (x : Winner) : Int := min 15 (16 * (x.s2 - x.s1) / (x.s2 + 16))

/-- The winner is ambiguous (R169). -/
def Stereo.ambiguous (t : Stereo) (x : Winner) : Bool :=
  decide (256 * (x.s2 - x.s1) < t.uniq * x.s1) || decide (x.s2 = x.s1)

/-- The right view's curve at a column (R165). -/
def Stereo.rightCurve (t : Stereo) (row : List Curve) (xr : Nat) : Curve :=
  ((List.range (t.w - xr)).filterMap fun d => ((row.getD (xr + d) []).at? d).map fun v => (d, v))

/-- A right pixel (R165). -/
def Stereo.rightPixel (t : Stereo) (row : List Curve) (xr : Nat) : Disp :=
  let l := t.rightCurve row xr
  match l.winner with
  | none => Disp.none
  | some x => ⟨t.fitted l x, x.conf, if l.edge x.d then 3 else if t.ambiguous x then 4 else 0⟩

/-- The left–right check of a pixel fails (R169). -/
def Stereo.occluded (t : Stereo) (right : List Disp) (c : Nat) (d : Int) : Bool :=
  let xr := (c : Int) - (d + 128) / 256
  if xr < 0 then true
  else match right[xr.toNat]? with
    | some y => y.status = 6 || decide (16 * t.lrTol < absI (d - y.disp))
    | none => true

/-- A left pixel (R169). -/
def Stereo.leftPixel (t : Stereo) (r c : Nat) (row : List Curve) (right : List Disp) : Disp :=
  let l := row.getD c []
  match l.winner with
  | none => Disp.none
  | some x =>
    let d := t.fitted l x
    let st :=
      if t.satLevel ≤ t.left.at r c ∨ t.satLevel ≤ t.right.at r (c - x.d) then 5
      else if l.edge x.d then 3
      else if x.smax - x.s1 < t.flatT then 1
      else if t.ambiguous x then 4
      else if t.lrEn && t.occluded right c d then 2 else 0
    ⟨d, x.conf, st⟩

/-- A DISP32 word (R168). -/
def Disp.word (x : Disp) : Nat := x.disp.toNat + x.conf.toNat * 2 ^ 24 + x.status * 2 ^ 28

/-- CURVE5 of a pixel (R170): eight 16-bit values. -/
def curve5 (l : Curve) (st : Nat) : List Nat :=
  match l.winner with
  | none => List.replicate 8 0xFFFF
  | some x =>
    if st = 6 then List.replicate 8 0xFFFF
    else
      let at_ (k : Int) : Nat := if (x.d : Int) + k < 0 then 0xFFFF
        else match l.at? ((x.d : Int) + k).toNat with | some v => v.toNat | none => 0xFFFF
      [at_ (-2), at_ (-1), at_ 0, at_ 1, at_ 2, x.d, x.s2.toNat, x.smax.toNat]

/-- CURVEQ of a pixel (R170): W bytes. -/
def Stereo.curveQ (t : Stereo) (r c : Nat) (l : Curve) : List Nat :=
  (List.range t.win).map fun j => match l.at? (t.start r c + j) with
    | some v => (min 254 (rnd v 3)).toNat
    | none => 0xFF

/-- A row's results: left words, right words, cost curves. -/
structure StereoOut where
  left : List Disp
  right : List Disp
  curves : List Nat
deriving DecidableEq, Repr

/-- The results of a row from its aggregated curves. -/
def Stereo.outRow (t : Stereo) (cexp r : Nat) (row : List Curve) : StereoOut :=
  let rt := (List.range t.w).map (t.rightPixel row)
  let lf := (List.range t.w).map fun c => t.leftPixel r c row rt
  let ex := if cexp = 1 then (List.range t.w).flatMap fun c => curve5 (row.getD c []) (lf.getD c Disp.none).status
    else if cexp = 2 ∧ r % 4 = 0 then
      ((List.range t.w).filter (· % 4 = 0)).flatMap fun c => t.curveQ r c (row.getD c [])
    else []
  ⟨lf, rt, ex⟩

/-- Every row of a frame (R155–R170). -/
def Stereo.frame (t : Stereo) (cexp : Nat) : List StereoOut :=
  ((t.rowsFrom t.h 0 StereoRow.none).zip (List.range t.h)).map fun x => t.outRow cexp x.2 x.1

end Sys2Proof.Machine
end

