-- ==== Sys2Proof/Machine/OfePixels.lean ====
section
/-! DEFINITION. The flow engine's arithmetic (R181–R187): predictions by level, block search, subpixel fit, status. -/

namespace Sys2Proof.Machine

/-- An index reflected about the edges as often as it takes (R130, R183). -/
def reflectFar (n : Nat) (i : Int) : Nat :=
  if n ≤ 1 then 0
  else
    let m := (i % (2 * ((n : Int) - 1))).toNat
    if m < n then m else 2 * (n - 1) - m

/-- One level of a current and a reference pyramid, brought to 12 bits (R178). -/
structure FlowLevel where
  w : Nat
  h : Nat
  cur : Plane
  ref : Plane
  curMissing : List Nat
  refMissing : List Nat

/-- A flow context's parameters and levels, level 0 first. `field` is the prediction field, one 64-bit code a block. -/
structure Flow where
  levels : List FlowLevel
  top : Nat
  out : Nat
  mode : Nat
  predX : Int
  predY : Int
  field : Plane
  trunc : Int
  lambda : Int
  flatT : Int
  uniq : Int
  satCnt : Nat
  satLevel : Int
  noRef : Bool

/-- A level of the context. -/
def Flow.level (t : Flow) (l : Nat) : FlowLevel := t.levels.getD l ⟨0, 0, [], [], [], []⟩

/-- A block's result (R185–R187). -/
structure FlowBlock where
  dx : Int
  dy : Int
  confX : Nat
  confY : Nat
  statX : Nat
  statY : Nat
deriving DecidableEq, Repr

/-- NO_DATA in both components (R187). -/
def FlowBlock.none : FlowBlock := ⟨0, 0, 0, 0, 6, 6⟩

/-- A FLOW64 word (R186). -/
def FlowBlock.word (b : FlowBlock) : Nat :=
  ofInt 24 b.dx + b.confX * 2 ^ 24 + b.statX * 2 ^ 28 + ofInt 24 b.dy * 2 ^ 32 + b.confY * 2 ^ 56 + b.statY * 2 ^ 60

/-- DX of a FLOW64 code: none unless STAT_X is VALID (R187). -/
def flowX (code : Nat) : Option Int := if bits code 31 28 = 0 then some (toInt 24 code) else none

/-- DY of a FLOW64 code: none unless STAT_Y is VALID. -/
def flowY (code : Nat) : Option Int := if bits code 63 60 = 0 then some (toInt 24 (code / 2 ^ 32)) else none

/-- CONSTANT at a level (R181). -/
def Flow.constant (t : Flow) (l : Nat) : Int × Int := (rnd t.predX (8 + l), rnd t.predY (8 + l))

/-- The top rule at a level (R181). -/
def Flow.topRule (t : Flow) (l bx by_ : Nat) : Int × Int :=
  let k := t.constant l
  if t.mode = 0 then (0, 0)
  else if t.mode = 1 then k
  else
    let o := t.level t.out
    let at_ (n b : Nat) : Nat := min (n - 1) (2 ^ (l - t.out) * b + 2 ^ (l - t.out) / 2)
    let code := (t.field.at (at_ (ceilDiv o.h 8) by_) (at_ (ceilDiv o.w 8) bx)).toNat
    ((match flowX code with | some d => rnd d (8 + l - t.out) | none => k.1),
     (match flowY code with | some d => rnd d (8 + l - t.out) | none => k.2))

/-- The prediction of a block, given the level above (R181). -/
def Flow.predict (t : Flow) (l bx by_ : Nat) (above : List (List FlowBlock)) : Int × Int :=
  let p :=
    if l = t.top then t.topRule l bx by_
    else
      let u := t.level (l + 1)
      let b := (above.getD (min (by_ / 2) (ceilDiv u.h 8 - 1)) []).getD (min (bx / 2) (ceilDiv u.w 8 - 1)) FlowBlock.none
      if b.statX = 6 then t.topRule l bx by_ else (rnd (2 * b.dx) 8, rnd (2 * b.dy) 8)
  (clampInt (-1024) 1024 p.1, clampInt (-32) 32 p.2)

/-- The rows and columns of a block after reflection, displaced. -/
def blockTaps (n b : Nat) (d : Int) : List Nat := (List.range 8).map fun (i : Nat) => reflectFar n (8 * b + i + d)

/-- The cost of a candidate, none when it is excluded (R183). -/
def Flow.cost (t : Flow) (lv : FlowLevel) (bx by_ : Nat) (p : Int × Int) (u v : Int) : Option Int :=
  let rows := blockTaps lv.h by_ v
  if rows.any (· ∈ lv.refMissing) then none
  else
    let cols := blockTaps lv.w bx u
    let sad := sumI (((blockTaps lv.h by_ 0).zip rows).flatMap fun y =>
      ((blockTaps lv.w bx 0).zip cols).map fun x => min (absI (lv.cur.at y.1 x.1 - lv.ref.at y.2 x.2)) t.trunc)
    some (sad + t.lambda * (absI (u - p.1) + absI (v - p.2)))

/-- A candidate with its cost. -/
structure FlowCand where
  u : Int
  v : Int
  e : Int

/-- The candidates included in a block's window (R183). -/
def Flow.candidates (t : Flow) (lv : FlowLevel) (bx by_ : Nat) (p : Int × Int) : List FlowCand :=
  (windowOf 32).filterMap fun o => (t.cost lv bx by_ p (p.1 + o.2) (p.2 + o.1)).map fun e => ⟨p.1 + o.2, p.2 + o.1, e⟩

/-- Whether a candidate goes before another (R184). -/
def FlowCand.before (p : Int × Int) (a b : FlowCand) : Bool :=
  let m (c : FlowCand) : Int := absI (c.u - p.1) + absI (c.v - p.2)
  decide (a.e < b.e ∨ (a.e = b.e ∧ (m a < m b ∨ (m a = m b ∧ (a.v < b.v ∨ (a.v = b.v ∧ a.u < b.u))))))

/-- The first of a list in an order. -/
def best {α : Type} (lt : α → α → Bool) : List α → Option α
  | [] => none
  | x :: r => match best lt r with
    | none => some x
    | some y => if lt y x then some y else some x

/-- The fit along one axis (R185): the offset, and cx, none without both neighbours. -/
def flowFit (em ep : Option Int) (e0 : Int) : Int × Option Int :=
  match em, ep with
  | some a, some b =>
    let den := 2 * (a + b - 2 * e0)
    let num := 256 * (a - b)
    let q := divRnd (absI num) den
    ((if den = 0 then 0 else clampInt (-128) 128 (if num < 0 then -q else q)), some (a + b - 2 * e0))
  | _, _ => (0, none)

/-- The confidence (R187). -/
def flowConf (c : Option Int) : Nat :=
  match c with | some x => (min 15 (16 * x / (x + 64))).toNat | none => 0

/-- TEXTURELESS along one axis (R187). -/
def Flow.flat (t : Flow) (a b : Option Int) (e0 : Int) : Bool :=
  match ([a, b].filterMap id) with
  | [] => true
  | x :: r => decide (minI x r - e0 < t.flatT)

/-- A block's result from its candidates (R184–R187). -/
def Flow.decide (t : Flow) (lv : FlowLevel) (bx by_ : Nat) (p : Int × Int) (cs : List FlowCand) (x : FlowCand) : FlowBlock :=
  let at_ (u v : Int) : Option Int := (cs.find? fun c => c.u = u ∧ c.v = v).map (·.e)
  let far := (cs.filter fun c => 2 ≤ max (absI (c.u - x.u)) (absI (c.v - x.v))).map (·.e)
  let e2 := match far with | [] => x.e | y :: r => minI y r
  let fx := flowFit (at_ (x.u - 1) x.v) (at_ (x.u + 1) x.v) x.e
  let fy := flowFit (at_ x.u (x.v - 1)) (at_ x.u (x.v + 1)) x.e
  let sat := ((blockTaps lv.h by_ 0).flatMap fun r => (blockTaps lv.w bx 0).filter fun c =>
    t.satLevel ≤ lv.cur.at r c).length
  let outside : Bool := (8 * (bx : Int) + x.u < 0) || (lv.w : Int) < 8 * bx + 8 + x.u || (8 * (by_ : Int) + x.v < 0)
    || (lv.h : Int) < 8 * by_ + 8 + x.v
  let ambiguous : Bool := 256 * (e2 - x.e) < t.uniq * x.e || e2 = x.e
  let stat (edge flat : Bool) : Nat :=
    if t.satCnt ≤ sat then 5 else if outside then 2 else if edge then 3 else if flat then 1
    else if ambiguous then 4 else 0
  { dx := 256 * x.u + fx.1, dy := 256 * x.v + fy.1, confX := flowConf fx.2, confY := flowConf fy.2
    statX := stat (absI (x.u - p.1) = 32) (t.flat (at_ (x.u - 2) x.v) (at_ (x.u + 2) x.v) x.e)
    statY := stat (absI (x.v - p.2) = 32) (t.flat (at_ x.u (x.v - 2)) (at_ x.u (x.v + 2)) x.e) }

/-- A block of a level (R183–R187). -/
def Flow.block (t : Flow) (l bx by_ : Nat) (above : List (List FlowBlock)) : FlowBlock :=
  let lv := t.level l
  if t.noRef ∨ (blockTaps lv.h by_ 0).any (· ∈ lv.curMissing) then FlowBlock.none
  else
    let p := t.predict l bx by_ above
    let cs := t.candidates lv bx by_ p
    match best (FlowCand.before p) cs with
    | none => FlowBlock.none
    | some x => t.decide lv bx by_ p cs x

/-- The block grid of a level. -/
def Flow.grid (t : Flow) (l : Nat) (above : List (List FlowBlock)) : List (List FlowBlock) :=
  (List.range (ceilDiv (t.level l).h 8)).map fun y =>
    (List.range (ceilDiv (t.level l).w 8)).map fun x => t.block l x y above

/-- The grids of `n` levels down from the one above the output by `n` − 1. -/
def Flow.down (t : Flow) : Nat → List (List FlowBlock) → List (List FlowBlock)
  | 0, above => above
  | n + 1, above => t.down n (t.grid (t.out + n) above)

/-- The field of a frame, at level LEV_OUT (R178–R187). -/
def Flow.frame (t : Flow) : List (List FlowBlock) := t.down (t.top + 1 - t.out) []

/-- The block rows of field strip `k` (R190). -/
def flowStripRows (out sh h k : Nat) : List Nat :=
  (List.range (ceilDiv (ceilDiv h (2 ^ out)) 8)).filter fun b => decide
    (8 * b * 2 ^ out < (k + 1) * sh ∧ k * sh < (8 * b + 8) * 2 ^ out)

end Sys2Proof.Machine
end

