-- ==== Sys2Proof/Machine/PyramidPixels.lean ====
section
/-! DEFINITION. The pyramid engine's arithmetic (R220–R223). -/

namespace Sys2Proof.Machine

/-- A binomial weight (R221). -/
def binomial (i : Nat) : Int := [1, 4, 6, 4, 1].getD i 0

/-- A plane with its size and its missing rows. -/
structure Level where
  w : Nat
  h : Nat
  p : Plane
  missing : List Nat

/-- The 5 × 5 binomial sum about a site, of a function of row and column (R195, R221). -/
def binomialSum (f : Int → Int → Int) (y x : Int) : Int :=
  sumI ((List.range 5).flatMap fun (j : Nat) => (List.range 5).map fun (i : Nat) =>
    binomial i * binomial j * f (y + j - 2) (x + i - 2))

/-- The next Gaussian level (R221, R223). -/
def Level.reduce (l : Level) : Level :=
  let w := ceilDiv l.w 2
  let h := ceilDiv l.h 2
  let miss := (List.range h).filter fun (r : Nat) => (List.range 5).any fun (j : Nat) => reflect l.h (2 * (r : Int) + (j : Int) - 2) ∈ l.missing
  { w := w, h := h, missing := miss
    p := tab h w fun r c => if r ∈ miss then 0
      else rnd (binomialSum (fun y x => l.p.at (reflect l.h y) (reflect l.w x)) (2 * r) (2 * c)) 8 }

/-- The expansion of a level to the size of the finer one (R222). -/
def Level.expandAt (fine coarse : Level) (r c : Nat) : Int :=
  rnd (binomialSum (fun y x =>
    let v := reflect fine.h y
    let u := reflect fine.w x
    if v % 2 = 0 ∧ u % 2 = 0 then coarse.p.at (v / 2) (u / 2) else 0) r c) 6

/-- A Laplacian level (R222, R223): LAP_FMT 0 clamps to 16 bits. -/
def Level.laplacian (fine coarse : Level) (wide : Bool) : Level :=
  let reads (r : Nat) : List Nat := ((List.range 5).map fun (j : Nat) => reflect fine.h ((r : Int) + (j : Int) - 2)).filter (· % 2 = 0)
  let miss := (List.range fine.h).filter fun r => r ∈ fine.missing ∨ (reads r).any fun v => v / 2 ∈ coarse.missing
  { fine with
    missing := miss
    p := tab fine.h fine.w fun r c => if r ∈ miss then 0
      else
        let v := fine.p.at r c - fine.expandAt coarse r c
        if wide then v else clampInt (-32768) 32767 v }

/-- Level rows lost in line memory are missing (R225). -/
def Level.lose (l : Level) (rows : List Nat) : Level :=
  if rows = [] then l
  else
    let x := losing rows (l.p, l.missing)
    { l with p := x.1, missing := x.2 }

/-- Gaussian levels `k` to `k + n` (R220, R221); `lost`: the rows of each level lost in line memory. -/
def Level.pyramid (lost : Nat → List Nat) (k : Nat) (l : Level) : Nat → List Level
  | 0 => [l.lose (lost k)]
  | n + 1 =>
    let x := l.lose (lost k)
    x :: Level.pyramid lost (k + 1) x.reduce n

/-- The rows of strip `k` of a level (R226). -/
def levelStripRows (lev sh k : Nat) : Nat × Nat := (ceilDiv (k * sh) (2 ^ lev), ceilDiv ((k + 1) * sh) (2 ^ lev))

end Sys2Proof.Machine
end

