-- ==== Sys2Proof/Machine/FpePixels.lean ====
section
/-! DEFINITION. The feature engine's arithmetic (R192–R200): detection, score, suppression, descriptors, lists, matches. -/

namespace Sys2Proof.Machine

/-- A detection context's parameters and its frame, brought to 12 bits. -/
structure Detect where
  w : Nat
  h : Nat
  nArc : Nat
  nmsR : Nat
  cell : Nat
  ft : Int
  hk : Int
  scoreMin : Int
  quota : Nat
  maxFeat : Nat
  img : Plane
  missing : List Nat

/-- The circle of R192, (Δx, Δy) in order. -/
def circle : List (Int × Int) :=
  [(0, -3), (1, -3), (2, -2), (3, -1), (3, 0), (3, 1), (2, 2), (1, 3), (0, 3), (-1, 3), (-2, 2), (-3, 1), (-3, 0),
   (-3, -1), (-2, -2), (-1, -3)]

/-- The longest run of a list read `left` times around, counted cyclically, at most 16. -/
def longestRun : List Bool → Nat → Nat → Nat
  | [], _, best => min 16 best
  | b :: r, cur, best => if b then longestRun r (cur + 1) (max best (cur + 1)) else longestRun r 0 best

/-- The border rule of R192. -/
def Detect.inside (t : Detect) (y x : Nat) : Bool :=
  15 ≤ x && x + 16 ≤ t.w && 15 ≤ y && y + 16 ≤ t.h && t.missing.all fun r => r + 15 < y || y + 15 < r

/-- Arc and polarity of a pixel (R192): the arc, whether brighter. -/
def Detect.arc (t : Detect) (y x : Nat) : Nat × Bool :=
  let v0 := t.img.at y x
  let taps := circle.map fun o => t.img.at ((y : Int) + o.2).toNat ((x : Int) + o.1).toNat
  let br := taps.map fun v => decide (v > v0 + t.ft)
  let dk := taps.map fun v => decide (v < v0 - t.ft)
  let b := longestRun (br ++ br) 0 0
  let d := longestRun (dk ++ dk) 0 0
  if d ≤ b then (b, true) else (d, false)

/-- The score (R193). -/
def Detect.score (t : Detect) (y x : Nat) : Int :=
  let g := (windowOf 3).map fun o =>
    let r := ((y : Int) + o.1).toNat
    let c := ((x : Int) + o.2).toNat
    ((t.img.at r (c + 1) - t.img.at r (c - 1)) / 8, (t.img.at (r + 1) c - t.img.at (r - 1) c) / 8)
  let sxx := sumI (g.map fun a => a.1 * a.1)
  let syy := sumI (g.map fun a => a.2 * a.2)
  let sxy := sumI (g.map fun a => a.1 * a.2)
  let q := 256 * (sxx * syy - sxy ^ 2) - t.hk * (sxx + syy) ^ 2
  min (2 ^ 32 - 1) (max 0 (q / 2 ^ 24))

/-- A feature (R194, R197). -/
structure Feature where
  x : Nat
  y : Nat
  fx : Int
  fy : Int
  score : Int
  arc : Nat
  brighter : Bool
  subX : Bool
  subY : Bool
deriving DecidableEq, Repr

/-- The subpixel offset along one axis, and whether it was applied (R194). -/
def featureFit (s0 sm sp : Int) : Int × Bool :=
  let den := 2 * (2 * s0 - sm - sp)
  let num := 256 * (sp - sm)
  let q := divRnd (absI num) den
  if den ≤ 0 then (0, false) else (clampInt (-128) 128 (if num < 0 then -q else q), true)

/-- A candidate with its score: SCORE ≥ SCORE_MIN (R192, R194). -/
def Detect.candidate (t : Detect) (y x : Nat) : Option Int :=
  if t.inside y x && decide (t.nArc ≤ (t.arc y x).1) && decide (t.scoreMin ≤ t.score y x) then some (t.score y x) else none

/-- A candidate survives suppression (R194). -/
def Detect.survives (t : Detect) (y x : Nat) (s : Int) : Bool :=
  (windowOf t.nmsR).all fun o =>
    let r := (y : Int) + o.1
    let c := (x : Int) + o.2
    if (o.1 = 0 ∧ o.2 = 0) ∨ r < 0 ∨ c < 0 then true
    else match t.candidate r.toNat c.toNat with
      | none => true
      | some q => decide (q < s ∨ (q = s ∧ (0 < o.1 ∨ (o.1 = 0 ∧ 0 < o.2))))

/-- The feature at a pixel, if there is one (R194). -/
def Detect.featureAt (t : Detect) (y x : Nat) : Option Feature :=
  match t.candidate y x with
  | none => none
  | some s =>
    if t.survives y x s then
      let fx := featureFit s (t.score y (x - 1)) (t.score y (x + 1))
      let fy := featureFit s (t.score (y - 1) x) (t.score (y + 1) x)
      some ⟨x, y, 256 * x + fx.1, 256 * y + fy.1, s, (t.arc y x).1, (t.arc y x).2, fx.2, fy.2⟩
    else none

/-- The features of a frame in raster order. -/
def Detect.features (t : Detect) : List Feature :=
  (List.range t.h).flatMap fun y => (List.range t.w).filterMap (t.featureAt y)

/-- The base pairs of R195: A.x, A.y, B.x, B.y. -/
def basePairs : List (Int × Int × Int × Int) :=
  [
(-8, -3, 9, 5), (4, 2, 7, -12), (-11, 9, -8, 2), (7, -12, 12, -9), (2, 4, 3, 9), (-6, 1, -11, -3), (10, 8, 5, 11), (-3, -7, -1, -12),
   (12, 0, 6, -4), (-9, -10, -4, -8), (1, -2, -3, 6), (5, -6, 11, -2), (-12, 5, -7, 10), (8, 3, 3, -1), (-2, 11, 2, 7), (6, -9, 1, -5),
   (-5, -4, -10, -8), (11, 10, 9, 4), (0, -11, 4, -7), (-7, 6, -2, 3), (3, 12, 8, 8), (-10, -1, -6, -6), (9, -5, 12, 1), (-4, 8, -9, 12),
   (2, -8, -1, -3), (-1, 0, 5, 3), (12, -6, 7, -10), (-8, 10, -12, 1), (4, -3, 9, -7), (-6, -12, -3, -9), (7, 5, 10, 12), (-11, -6, -5, -2),
   (1, 9, -4, 12), (10, -11, 5, -8), (-3, 3, 1, 1), (6, 7, 2, 12), (-9, -4, -12, -10), (11, 2, 8, 6), (-2, -5, 3, -10), (5, 0, -1, -4),
   (-7, 12, -10, 7), (8, -2, 12, -5), (-5, 5, -8, -1), (3, -12, -2, -10), (9, 9, 6, 3), (-12, -8, -7, -12), (0, 6, -5, 9), (4, 10, 7, 2),
   (-10, 3, -6, 8), (12, -3, 10, -8), (-1, -9, -6, -5), (6, -4, 2, 0), (-4, -1, -9, -5), (2, 1, -2, -2), (11, -9, 8, -12), (-8, -7, -3, -3),
   (5, 11, 1, 8), (-11, -11, -9, -6), (7, -7, 4, -10), (-6, 9, -3, 12), (10, 1, 8, -3), (-2, -12, 0, -6), (3, 5, -1, 10), (-12, 12, -10, 6)]

/-- A point rotated `r` times by (x, y) → (−y, x) (R195). -/
def rotate : Nat → Int × Int → Int × Int
  | 0, p => p
  | n + 1, p => rotate n (-p.2, p.1)

/-- The smoothed image (R195). -/
def Detect.smooth (t : Detect) (y x : Int) : Int := rnd (binomialSum (fun r c => t.img.at r.toNat c.toNat) y x) 8

/-- Bit `b` of a feature's descriptor (R195). -/
def Detect.descBit (t : Detect) (f : Feature) (b : Nat) : Bool :=
  let q := basePairs.getD (b % 64) (0, 0, 0, 0)
  let a := rotate (b / 64) (q.1, q.2.1)
  let c := rotate (b / 64) (q.2.2.1, q.2.2.2)
  decide (t.smooth (f.y + a.2) (f.x + a.1) < t.smooth (f.y + c.2) (f.x + c.1))

/-- The 32-byte descriptor. -/
def Detect.descriptor (t : Detect) (f : Feature) : List Byte := leBytes 32 (ofBits 256 (t.descBit f))

/-- The cell of a feature (R196). -/
def Detect.cellOf (t : Detect) (f : Feature) : Nat := (f.y / t.cell) * ceilDiv t.w t.cell + f.x / t.cell

/-- A feature goes before another in its cell (R196). -/
def Feature.first (a b : Feature) : Bool :=
  decide (b.score < a.score ∨ (a.score = b.score ∧ (a.y < b.y ∨ (a.y = b.y ∧ a.x ≤ b.x))))

/-- The features of each cell, in list order, cut to the quota; how many the quota dropped (R196). -/
def Detect.listed (t : Detect) : List Feature × Nat :=
  let all := t.features
  let cells := (List.range (ceilDiv t.w t.cell * ceilDiv t.h t.cell)).map fun c =>
    (all.filter fun f => t.cellOf f = c).foldl (fun l f => orderedInsert Feature.first f l) []
  let kept := cells.flatMap fun l => if t.quota = 0 then l else l.take t.quota
  (kept, all.length - kept.length)

/-- A list as the FPE writes it (R197). -/
structure FeatureList where
  bytes : List Byte
  entries : Nat
  overflow : Bool
deriving DecidableEq, Repr

/-- An entry of a feature list (R197). -/
def Detect.entryBytes (t : Detect) (n i : Nat) (f : Feature) : List Byte :=
  leBytes 4 f.fx.toNat ++ leBytes 4 f.fy.toNat ++ leBytes 4 f.score.toNat ++ leBytes 2 (t.cellOf f)
    ++ leBytes 1 (b2n f.brighter + 2 * b2n f.subX + 4 * b2n f.subY) ++ leBytes 1 f.arc ++ leBytes 4 n ++ leBytes 2 i
    ++ zeros 10 ++ t.descriptor f

/-- The feature list of a frame (R196, R197). -/
def Detect.list (t : Detect) (n acq : Nat) : FeatureList :=
  let l := t.listed
  let kept := l.1.take t.maxFeat
  let excess := l.1.length - kept.length
  let head := leBytes 4 n ++ leBytes 4 kept.length ++ leBytes 4 excess ++ leBytes 4 l.2 ++ leBytes 8 acq
    ++ leBytes 2 (b2n (0 < excess) + 2 * b2n (t.missing ≠ [])) ++ zeros 38
  ⟨head ++ (kept.zip (List.range kept.length)).flatMap fun x => t.entryBytes n x.2 x.1, kept.length, 0 < excess⟩

/-- A match job's parameters and lists (R198). -/
structure Match where
  mr : Nat
  maxDist : Nat
  ratio : Nat
  cross : Bool
  mode : Nat
  predX : Int
  predY : Int
  flow : Plane
  fallback : Bool
  a : List Byte
  b : List Byte

/-- Entries of a list. -/
def listCount (l : List Byte) : Nat := field l 4 4

/-- X and Y of an entry. -/
def entryXY (l : List Byte) (i : Nat) : Int × Int := (field l (64 + 64 * i) 4, field l (68 + 64 * i) 4)

/-- The Hamming distance of two entries' descriptors. -/
def descDist (l : List Byte) (i : Nat) (m : List Byte) (j : Nat) : Nat :=
  (setBits 256 ((field l (96 + 64 * i) 32).xor (field m (96 + 64 * j) 32))).length

/-- The prediction of a query entry (R198). -/
def Match.predict (t : Match) (i : Nat) : Int × Int :=
  if t.mode = 0 then (0, 0)
  else if t.mode = 1 ∨ t.fallback then (t.predX, t.predY)
  else
    let p := entryXY t.a i
    let code := (t.flow.at (p.2 / 2048).toNat (p.1 / 2048).toNat).toNat
    ((flowX code).getD t.predX, (flowY code).getD t.predY)

/-- The candidates of an entry of list `l` in list `m`, displaced by `p`: distance, index (R198). -/
def Match.search (t : Match) (l : List Byte) (i : Nat) (m : List Byte) (p : Int × Int) : List (Nat × Nat) :=
  let q := entryXY l i
  ((List.range (listCount m)).filter fun j =>
    let r := entryXY m j
    decide (absI (r.1 - q.1 - p.1) ≤ 256 * t.mr ∧ absI (r.2 - q.2 - p.2) ≤ 256 * t.mr)).map fun j => (descDist l i m j, j)

/-- The best of a search: least distance, ties to the lower index. -/
def nearest (c : List (Nat × Nat)) : Option (Nat × Nat) := best (fun x y => decide (x.1 < y.1 ∨ (x.1 = y.1 ∧ x.2 < y.2))) c

/-- A match entry and whether it is MATCHED (R198–R200). -/
def Match.entry (t : Match) (i : Nat) : List Byte × Bool :=
  let p := t.predict i
  let c := t.search t.a i t.b p
  match nearest c with
  | none => (leBytes 2 i ++ zeros 4 ++ leBytes 2 (512 + 1024) ++ zeros 8, false)
  | some (d1, j) =>
    let d2 := (nearest (c.filter fun x => x.2 ≠ j)).map (·.1)
    let back := (nearest (t.search t.b j t.a (-p.1, -p.2))).map (·.2)
    let amb : Bool := match d2 with | some d => t.ratio * d ≤ 256 * d1 | none => false
    let st := if t.maxDist < d1 then 2 else if amb then 3 else if t.cross ∧ back ≠ some i then 4 else 0
    let u := entryXY t.a i
    let v := entryXY t.b j
    (leBytes 2 i ++ leBytes 2 (if st = 0 then j else 0) ++ leBytes 2 d1
      ++ leBytes 2 (d2.getD 0 + 512 * b2n d2.isNone + 1024 * st)
      ++ leBytes 4 (ofInt 32 (v.1 - u.1)) ++ leBytes 4 (ofInt 32 (v.2 - u.2)), st = 0)

/-- The match output (R200). -/
def Match.output (t : Match) : List Byte :=
  let es := (List.range (listCount t.a)).map t.entry
  leBytes 4 (field t.a 0 4) ++ leBytes 4 (field t.b 0 4) ++ leBytes 4 (es.filter (·.2)).length
    ++ leBytes 1 (b2n t.fallback) ++ zeros 51 ++ es.flatMap (·.1)

end Sys2Proof.Machine
end

