-- ==== Sys2Proof/Machine/Camera.lean ====
section
/-! DEFINITION. Camera ports, the CSI-2 packet layer, frames, rows and tunnelled sensor writes (chapter 05). -/

namespace Sys2Proof.Machine

/-! ### Ports and streams -/

/-- A camera port's state. -/
def State.cam (s : State) (n : Nat) : CamPort := s.vision.ports.getD n CamPort.fresh

/-- A camera port's state changed. -/
def State.setCam (s : State) (n : Nat) (p : CamPort) : State :=
  { s with vision := { s.vision with ports := s.vision.ports.set n p } }

/-- A stream entry's run. -/
def State.run (s : State) (e : Nat) : StreamRun := s.vision.streams.getD e (StreamRun.fresh e)

/-- A stream entry's run changed. -/
def State.setRun (s : State) (e : Nat) (r : StreamRun) : State :=
  { s with vision := { s.vision with streams := s.vision.streams.set e r } }

/-- A field of a stream entry in force (R124). -/
def State.cps (s : State) (f : RField) (e : Nat) : Nat := s.rd .cpx f e

/-- The domain of a camera port: PD31 for ports 0–5, PD32 for ports 6–11. -/
def camDomain (n : Nat) : Nat := if n < 6 then 31 else 32

/-- A port's logic works: its domain lit and out of reset (R62). -/
def State.camOn (s : State) (n : Nat) : Bool :=
  s.domainReady (camDomain n) && !(camDomain n ∈ s.power.heldInReset) && s.power.warm.isNone

/-- A port is enabled: its downlink lit, its uplink received (R124). -/
def State.camEnabled (s : State) (n : Nat) : Bool := s.camOn n && (s.rd .cpx CPX.PORT_EN).testBit n

/-- Loss of signal on a port's uplink. -/
def State.camLos (s : State) (n : Nat) : Bool := (s.rd .cpx CPX.LOS).testBit n

/-- A port delivers packets: enabled, with block lock (R103). -/
def State.camDelivers (s : State) (n : Nat) : Bool := s.camEnabled n && s.rd .cpx CPP.LOCK n = 1

/-- The entries of the running or draining set that name a port. -/
def State.camLocked (s : State) (n : Nat) : Bool :=
  s.lockedSets.any fun x => x.1.sec.streams.any fun d =>
    s.cps CPS.PORT d.entry = n

/-- The streams that run on a port, by entry. -/
def State.portRuns (s : State) (n : Nat) : List StreamRun :=
  s.vision.streams.filter fun r => r.active && s.cps CPS.EN r.entry = 1 && s.cps CPS.PORT r.entry = n

/-- Those of a virtual channel. -/
def State.vcRuns (s : State) (n vc : Nat) : List StreamRun :=
  (s.portRuns n).filter fun r => s.cps CPS.VC r.entry = vc

/-- The height of a stream's strips: that of the graph it drives, else 16 (chapter 01). -/
def State.stripHeight (s : State) (e : Nat) : Nat :=
  (((s.heldSets.flatMap (·.1.sec.graphs)).find? fun g => e ∈ g.streams).map (·.stripHeight)).getD 16

/-- The beat of trigger `n` (R10). -/
def StreamRun.trigger (r : StreamRun) (n : Nat) : Nat := r.b0 + n * r.period

/-- A trigger of a running stream falls on beat `k` (R10). -/
def StreamRun.dueAt (r : StreamRun) (k : Nat) : Bool :=
  r.active && r.period ≠ 0 && r.b0 ≤ k && (k - r.b0) % r.period = 0

/-- A port's trigger symbol in a beat, with the clock of its instant (R113); none on a port whose downlink is dark. -/
def State.sendTrigger (s : State) (n k : Nat) : State :=
  if s.camEnabled n then s.emit (.trigger n k (4 * s.rd .cpx CPP.TRIG_GROUP n + 12)) else s

/-- The beat at whose boundary row `row` of frame `n` is due (R116). -/
def State.rowDue (s : State) (r : StreamRun) (n row : Nat) : Nat :=
  r.trigger n + s.cps CPS.FS_MAX r.entry + ceilDiv ((row + 1) * s.cps CPS.ROW_CLKS r.entry) 2500

/-- The rows of a frame: HEIGHT, or the one line of a trigger (R117). -/
def State.frameRows (s : State) (e : Nat) : Nat := if s.cps CPS.LINESCAN e = 1 then 1 else s.cps CPS.HEIGHT e

/-- A frame nothing has come of. -/
def Frame.fresh (n : Nat) : Frame :=
  { n := n, opened := false, closed := false, count := 0, sensorFn := 0, log := [], admitted := [] }

/-- Frame `n` of a run. -/
def StreamRun.frame (r : StreamRun) (n : Nat) : Frame := (r.frames.find? (·.n = n)).getD (Frame.fresh n)

/-- A run with frame `f` put in its place. -/
def StreamRun.setFrame (r : StreamRun) (f : Frame) : StreamRun :=
  { r with frames := if r.frames.any (·.n = f.n) then r.frames.map (fun g => if g.n = f.n then f else g)
                     else r.frames ++ [f] }

/-- The frame that is open: an FS has come and neither its FE nor its last row. -/
def StreamRun.openFrame (r : StreamRun) : Option Frame := r.frames.find? fun f => f.opened && !f.closed

/-- A run whose open frames are closed. -/
def StreamRun.closeFrames (r : StreamRun) : StreamRun :=
  { r with frames := r.frames.map fun f => if f.opened then { f with closed := true } else f }

/-- What is known of a row. -/
def Frame.seen (f : Frame) (row : Nat) : Option RowSeen := f.log.find? (·.row = row)

/-- An orphan or unsupported packet counted (R124: one counter). -/
def State.orphan (s : State) (n : Nat) : State := s.count .cpx CPP.CNT_UNSUPP 1 n

/-! ### Framing lost -/

/-- FRAMING_LOST shows which ports are in framing lost. -/
def State.showLost (s : State) (n : Nat) (on : Bool) : State :=
  s.wr .cpx CPX.FRAMING_LOST (putBits (s.rd .cpx CPX.FRAMING_LOST) n 1 (b2n on))

/-- The open frames of a port's streams are no longer waited for (R119). -/
def State.stopFrames (s : State) (n : Nat) : State :=
  (s.portRuns n).foldl (fun t r => t.setRun r.entry (t.run r.entry).closeFrames) s

/-- A port enters framing lost (R119): only the first event counts; its span begins at `since`. -/
def State.loseFraming (s : State) (n code since : Nat) : State :=
  match (s.cam n).lost with
  | some _ => s
  | none =>
    (((s.setCam n { s.cam n with lost := some ⟨since, code⟩ }).showLost n true).stopFrames n).fault .cpx code []
      (s.camLocked n)

/-- What is sent again when light or lock returns (R120): the configuration list, then the latest write of each
class. -/
def CamPort.resendList (p : CamPort) : List TunnelDesc := p.configList ++ p.settings.map (·.2)

/-- CAMERA_CONFIG_RESEND (R120), once the uplink has light and lock again. -/
def State.resendConfig (s : State) (n : Nat) : State :=
  let p := s.cam n
  if s.camLos n || s.rd .cpx CPP.LOCK n = 0 then s
  else s.setCam n { p with resend := p.resendList, outstanding := none }

/-- Loss of signal on an uplink (R34, R119). -/
def State.camLoseSignal (s : State) (n : Nat) : State :=
  let s1 := (s.wr .cpx CPX.LOS (putBits (s.rd .cpx CPX.LOS) n 1 1)).wr .cpx CPP.LOCK 0 n
  if s.camEnabled n then s1.loseFraming n 0x2101 s.time.beatNo else s1

/-- Loss of signal clears on an uplink (R34). -/
def State.camGainSignal (s : State) (n : Nat) : State :=
  s.wr .cpx CPX.LOS (putBits (s.rd .cpx CPX.LOS) n 1 0)

/-- CP_BLOCK_LOCK (R103): an enabled uplink with light gains block lock; what waits is sent again (R120). -/
def execCpBlockLock (cam : Fin 12) (s : State) : Result :=
  .next (if s.camEnabled cam && !s.camLos cam && s.rd .cpx CPP.LOCK cam = 0 then
    (s.wr .cpx CPP.LOCK 1 cam).resendConfig cam
  else s)

/-- CP_LOCK_LOSS (R103, R119): block lock is lost and with it framing. -/
def execCpLockLoss (cam : Fin 12) (s : State) : Result :=
  .next (if s.camDelivers cam then (s.wr .cpx CPP.LOCK 0 cam).loseFraming cam 0x2102 s.time.beatNo else s)

/-! ### Short packets -/

/-- The frame index whose window the present beat falls in, if it is not open yet (R115). -/
def State.windowFrame (s : State) (r : StreamRun) : Option Nat :=
  let t := s.time.beatNo
  let lo := s.cps CPS.FS_MIN r.entry
  if r.period = 0 ∨ t < r.b0 + lo then none
  else
    let n := (t - r.b0 - lo) / r.period
    if t ≤ r.trigger n + s.cps CPS.FS_MAX r.entry ∧ (r.frame n).opened = false then some n else none

/-- The sensor frame number checked against the one before (R118). -/
def State.checkFn (s : State) (r : StreamRun) (n fn : Nat) : State :=
  let m := s.cps CPS.FN_MAX r.entry
  let s1 := s.wr .cpx CPS.LAST_FN fn r.entry
  match r.lastFn with
  | some l => if m ≠ 0 ∧ fn ≠ (if l = m then 1 else l + 1) then s1.count .cpx CPP.CNT_FN_SKIP 1 n else s1
  | none => s1

/-- A frame opened (R115). -/
def State.openFrameAt (s : State) (r : StreamRun) (n fn : Nat) : State :=
  let f := { r.frame n with opened := true, sensorFn := fn }
  let r1 := { r.closeFrames.setFrame f with nextFrame := n + 1, lastFn := some fn }
  (s.setRun r.entry r1).wr .cpx CPS.FRAME_IDX n r.entry

/-- FS on one stream (R115, R118). -/
def State.frameStart (s : State) (r : StreamRun) (port fn : Nat) : State :=
  let s1 := s.checkFn r port fn
  if s.cps CPS.TRIGGERED r.entry = 0 then s1.openFrameAt r r.nextFrame fn
  else match s.windowFrame r with
    | some n => s1.openFrameAt r n fn
    | none => (s1.setRun r.entry { r.closeFrames with lastFn := some fn }).count .cpx CPP.CNT_UNTRIG 1 port

/-- FE on one stream: its open frame closes (R115). -/
def State.frameEnd (s : State) (r : StreamRun) : State :=
  match r.openFrame with
  | some f => s.setRun r.entry (r.setFrame { f with closed := true })
  | none => s

/-- A short packet for every stream of a virtual channel: line-scan streams take none and count none (R117); a packet
no stream takes is an orphan. -/
def State.onVc (s : State) (port vc : Nat) (f : State → StreamRun → State) : State :=
  let rs := s.vcRuns port vc
  if rs = [] then s.orphan port
  else (rs.filter fun r => s.cps CPS.LINESCAN r.entry = 0).foldl (fun t r => f t (t.run r.entry)) s

/-- A frame start packet on a port (R115). -/
def State.fsPacket (s : State) (port vc fn : Nat) : State := s.onVc port vc fun t r => t.frameStart r port fn

/-- A frame end packet on a port (R115). -/
def State.fePacket (s : State) (port vc : Nat) : State := s.onVc port vc fun t r => t.frameEnd r

/-- FS (R115). -/
def execFs (cam : Fin 12) (vc : Fin 16) (frameNo : BitVec 16) (s : State) : Result :=
  .next (if s.camDelivers cam then s.fsPacket cam vc frameNo.toNat else s)

/-- FE (R115). -/
def execFe (cam : Fin 12) (vc : Fin 16) (_frameNo : BitVec 16) (s : State) : Result :=
  .next (if s.camDelivers cam then s.fePacket cam vc else s)

/-- LS_LE (R107): accepted; its line number is checked against the row count, and the spec gives a difference no
effect (log 12). -/
def execLsLe (_cam : Fin 12) (_vc : Fin 16) (_lineEnd : Bool) (_line : BitVec 16) (s : State) : Result := .next s

/-! ### Long packets -/

/-- The ECC columns of the 26 header bits (R107): MIPI CSI-2's header code (PRESUMED, log 13). -/
def eccColumns : List Nat :=
  [0x07, 0x0B, 0x0D, 0x0E, 0x13, 0x15, 0x16, 0x19, 0x1A, 0x1C, 0x23, 0x25, 0x26, 0x29, 0x2A, 0x2C, 0x31, 0x32, 0x34,
   0x38, 0x1F, 0x2F, 0x37, 0x3B, 0x3D, 0x3E]

/-- The six check bits of a 26-bit header. -/
def eccOf (h : Nat) : Nat :=
  ((List.range 26).zip eccColumns).foldl (fun acc x => if h.testBit x.1 then acc.xor x.2 else acc) 0

/-- A header after its ECC (R107): its 26 bits and whether one was corrected; none for a double-bit error. -/
def eccCheck (header : List Byte) : Option (Nat × Bool) :=
  let b := field header 3 1
  let h := field header 0 3 + (b / 64) * 2 ^ 24
  let y := (eccOf h).xor (b % 64)
  if y = 0 then some (h, false)
  else if y ∈ [1, 2, 4, 8, 16, 32] then some (h, true)
  else match eccColumns.findIdx? (· = y) with
    | some i => some (h.xor (2 ^ i), true)
    | none => none

/-- Bits per pixel of a data type: 0 where it is not supported (R107, R108). -/
def dtBits (dt : Nat) : Nat :=
  if dt = 0x12 ∨ dt = 0x2A then 8
  else if dt = 0x2B then 10
  else if dt = 0x2C then 12
  else if dt = 0x2D then 14
  else if dt = 0x2E then 16
  else if dt = 0x2F then 20 else 0

/-- Pixels of one packing group of CSI-2 (PRESUMED for the order of bits, log 13): bytes in, values out. -/
def unpackGroup (dt : Nat) (b : List Nat) : List Nat :=
  let g := nth b
  if dt = 0x2B then (List.range 4).map fun i => g i * 4 + bits (g 4) (2 * i + 1) (2 * i)
  else if dt = 0x2C then [g 0 * 16 + g 2 % 16, g 1 * 16 + g 2 / 16]
  else if dt = 0x2D then
    let l := g 4 + 256 * g 5 + 65536 * g 6
    (List.range 4).map fun i => g i * 64 + bits l (6 * i + 5) (6 * i)
  else if dt = 0x2E then [g 0 * 256 + g 1]
  else if dt = 0x2F then
    [(g 0 * 4 + bits (g 4) 1 0) * 1024 + g 1 * 4 + bits (g 4) 3 2,
     (g 2 * 4 + bits (g 4) 5 4) * 1024 + g 3 * 4 + bits (g 4) 7 6]
  else [g 0]

/-- Bytes of one packing group. -/
def groupSize (dt : Nat) : Nat :=
  if dt = 0x2B ∨ dt = 0x2F then 5 else if dt = 0x2C then 3 else if dt = 0x2D then 7 else if dt = 0x2E then 2 else 1

/-- The pixels of a packet's payload (R109: containers, the value in the low bits). -/
def unpackN (dt : Nat) : Nat → List Nat → List Nat
  | 0, _ => []
  | n + 1, b => if b = [] then [] else unpackGroup dt (b.take (groupSize dt)) ++ unpackN dt n (b.drop (groupSize dt))

/-- All pixels of a payload. -/
def unpack (dt : Nat) (payload : List Byte) : List Nat := unpackN dt payload.length (payload.map (·.toNat))

/-- A row put into its stream's image. -/
def State.putRow (s : State) (k : ImageKey) (frame row : Nat) (data : List Nat) (missing : Bool) : State :=
  { s with vision := { s.vision with
      rows := { key := k, frame := frame, row := row, data := data, missing := missing }
        :: s.vision.rows.filter fun x => !(x.key = k ∧ x.frame = frame ∧ x.row = row) } }

/-- What a long packet carried, its header and CRC already judged. -/
structure RowData where
  good : Bool
  dt : Nat
  payload : List Byte

/-- Where a row stands in its stream's image: in line-scan the lines of a strip form a frame of their own (log 32). -/
def State.imageRow (s : State) (e n row : Nat) : Nat × Nat :=
  if s.cps CPS.LINESCAN e = 1 then (n / s.stripHeight e, n % s.stripHeight e) else (n, row)

/-- A row received in time: logged and written (R109). -/
def State.takeRow (s : State) (r : StreamRun) (f : Frame) (row : Nat) (d : RowData) : State :=
  if d.good then
    let f1 := { f with log := f.log ++ [⟨row, true, s.time.beatNo⟩] }
    let at_ := s.imageRow r.entry f.n row
    (s.setRun r.entry (r.setFrame f1)).putRow (.stream r.entry) at_.1 at_.2 (unpack d.dt d.payload) false
  else s.setRun r.entry (r.setFrame f)

/-- A row may still be taken: not yet marked missing, and before its deadline (R116). -/
def State.inTime (s : State) (r : StreamRun) (f : Frame) (row : Nat) : Bool :=
  (f.seen row).isNone && (s.cps CPS.TRIGGERED r.entry = 0 || s.time.beatNo < s.rowDue r f.n row)

/-- A long packet of a frame stream (R115, R116). -/
def State.frameRow (s : State) (r : StreamRun) (port : Nat) (d : RowData) : State :=
  match r.openFrame with
  | none => s.orphan port
  | some f =>
    let row := f.count
    if s.frameRows r.entry ≤ row then s.orphan port
    else
      let f1 := { f with count := row + 1, closed := row + 1 = s.frameRows r.entry }
      s.takeRow r f1 row { d with good := d.good && s.inTime r f row }

/-- The trigger a line belongs to (R117): the oldest without a row whose window holds the present beat. -/
def State.lineTrigger (s : State) (r : StreamRun) : Option Nat :=
  let t := s.time.beatNo
  let lo := s.cps CPS.FS_MIN r.entry
  if r.period = 0 ∨ t < r.b0 + lo then none
  else
    let last := (t - r.b0 - lo) / r.period
    let span := s.cps CPS.FS_MAX r.entry + ceilDiv (s.cps CPS.ROW_CLKS r.entry) 2500
    let first := if t < r.b0 + span then 0 else (t - r.b0 - span) / r.period
    ((List.range (last + 1 - first)).map (· + first)).find? fun n =>
      t < s.rowDue r n 0 && ((r.frame n).seen 0).isNone && (r.frame n).count = 0

/-- A long packet of a line-scan stream (R117). -/
def State.lineRow (s : State) (r : StreamRun) (port : Nat) (d : RowData) : State :=
  match s.lineTrigger r with
  | none => s.orphan port
  | some n =>
    let f := { r.frame n with opened := true, closed := true, count := 1 }
    (s.takeRow r f 0 d).wr .cpx CPS.FRAME_IDX n r.entry

/-- A long packet with a sound header (R109). -/
def State.rowPacket (s : State) (port vc dt wc : Nat) (payload : List Byte) (crc : Nat) : State :=
  if dt = 0x10 ∨ dt = 0x11 then s
  else if dtBits dt = 0 then s.orphan port
  else match (s.vcRuns port vc).find? fun r => s.cps CPS.DT r.entry = dt with
    | none => s.orphan port
    | some r =>
      if s.cps CPS.DEST r.entry = 0 then s
      else
        let crcOk := crc16 payload = crc
        let lenOk := wc = s.cps CPS.WIDTH r.entry * dtBits dt / 8 ∧ payload.length = wc
        let s1 := if crcOk then s else s.count .cpx CPP.CNT_CRC 1 port
        let s2 := if crcOk && !lenOk then s1.count .cpx CPP.CNT_ROW_LEN 1 port else s1
        let d : RowData := ⟨crcOk && lenOk, dt, payload⟩
        if s.cps CPS.LINESCAN r.entry = 1 then s2.lineRow r port d else s2.frameRow r port d

/-- A long packet whose header's ECC answered `e`. -/
def State.longChecked (s : State) (port : Nat) (e : Option (Nat × Bool)) (payload : List Byte) (crc : Nat) : State :=
  match e with
  | none => s.count .cpx CPP.CNT_ECC_UNCORR 1 port
  | some (h, fixed) =>
    let s1 := if fixed then s.count .cpx CPP.CNT_ECC_CORR 1 port else s
    s1.rowPacket port (bits h 7 6 + 4 * bits h 25 24) (bits h 5 0) (bits h 23 8) payload crc

/-- A long packet (R109): its header checked and corrected. -/
def State.longPacket (s : State) (port : Nat) (header payload : List Byte) (crc : Nat) : State :=
  s.longChecked port (eccCheck header) payload crc

/-- LONG_PACKET (R109). -/
def execLongPacket (cam : Fin 12) (header payload : List Byte) (crc : BitVec 16) (s : State) : Result :=
  if header.length = 4 then .next (if s.camDelivers cam then s.longPacket cam header payload crc.toNat else s)
  else .fault (.illFormed "LONG_PACKET")

/-! ### Deadlines -/

/-- The rows of the strip that holds a row: frame and row of each; in line-scan the lines of consecutive triggers. -/
def State.stripRows (s : State) (e h n row : Nat) : List (Nat × Nat) :=
  if s.cps CPS.LINESCAN e = 1 then (List.range h).map fun i => (n / h * h + i, 0)
  else ((List.range h).map fun i => (n, row / h * h + i)).filter fun x => x.2 < s.frameRows e

/-- The beat in which a row counts, if it is settled, else the latest it can (R116). -/
def State.rowBeat (s : State) (r : StreamRun) (x : Nat × Nat) : Nat :=
  match (r.frame x.1).seen x.2 with
  | some y => y.beat
  | none => s.rowDue r x.1 x.2 - 1

/-- Whether a row was marked missing. -/
def StreamRun.missed (r : StreamRun) (x : Nat × Nat) : Bool :=
  match (r.frame x.1).seen x.2 with
  | some y => !y.got
  | none => false

/-- LOSS_ROWS missing rows in one strip put the port in framing lost, from the strip's acquisition beat (R119). -/
def State.checkLossRows (s : State) (r : StreamRun) (n row : Nat) : State :=
  let xs := s.stripRows r.entry (s.stripHeight r.entry) n row
  if s.rd .cpx CPX.LOSS_ROWS ≤ (xs.filter r.missed).length then
    s.loseFraming (s.cps CPS.PORT r.entry) 0x2103 ((xs.map (s.rowBeat r)).foldl max 0)
  else s

/-- A row marked missing at its deadline: written as zeros, counted, in beat D − 1 (R116). -/
def State.missRow (s : State) (r : StreamRun) (n row : Nat) : State :=
  let f := r.frame n
  let r1 := r.setFrame { f with log := f.log ++ [⟨row, false, s.rowDue r n row - 1⟩] }
  let at_ := s.imageRow r.entry n row
  let s1 := ((s.setRun r.entry r1).putRow (.stream r.entry) at_.1 at_.2
    (List.replicate (s.cps CPS.WIDTH r.entry) 0) true).count .cpx CPP.CNT_ROW_MISS 1 (s.cps CPS.PORT r.entry)
  s1.checkLossRows r1 n row

/-- FS_DEADLINE (R119): the beat after the window of a triggered frame that had no FS in it. -/
def execFsDeadline (stream : Fin 32) (frame : Nat) (s : State) : Result :=
  let r := s.run stream
  .next (if r.active && s.cps CPS.TRIGGERED stream = 1 && s.cps CPS.LINESCAN stream = 0
      && r.trigger frame + s.cps CPS.FS_MAX stream + 1 = s.time.beatNo && !(r.frame frame).opened then
    s.loseFraming (s.cps CPS.PORT stream) 0x2102 s.time.beatNo
  else s)

/-! ### Tunnelled writes -/

/-- The run whose frames a port's tunnel writes count in: its lowest stream entry that runs. -/
def State.tunnelRun (s : State) (n : Nat) : Option StreamRun := (s.portRuns n).head?

/-- The frame whose trigger is the latest so far. -/
def State.currentFrame (s : State) (r : StreamRun) : Nat :=
  if r.period = 0 then r.nextFrame - 1 else (s.time.beatNo - r.b0) / r.period

/-- The nearest index at or after `cur` with the given low 16 bits (R121, chapter 06). -/
def nearestIndex (cur low : Nat) : Nat := cur + (low + 65536 - cur % 65536) % 65536

/-- The present frame index of a port (R121). -/
def State.portFrame (s : State) (n : Nat) : Nat :=
  match s.tunnelRun n with
  | some r => s.currentFrame r
  | none => 0

/-- The setting class of a descriptor. -/
def TunnelDesc.cls (d : TunnelDesc) : Nat := bits (field d.bytes 12 1) 2 0

/-- A keyed write. -/
def TunnelDesc.keyed (d : TunnelDesc) : Bool := (field d.bytes 12 1).testBit 3

/-- The length of its data. -/
def TunnelDesc.len (d : TunnelDesc) : Nat := field d.bytes 1 1

/-- A descriptor of 16 bytes obeys R121: length 1–8, a port, reserved bits zero. -/
def tunnelOk (b : List Byte) : Bool :=
  1 ≤ field b 1 1 ∧ field b 1 1 ≤ 8 ∧ field b 12 1 < 16 ∧ field b 13 1 < 12

/-- A descriptor pushed onto its port's queue, or counted as refused when 64 wait (R121). -/
def State.pushTunnel (s : State) (b : List Byte) : State :=
  let n := field b 13 1 % 16
  let p := s.cam n
  if 64 ≤ p.queue.length then s.count .cpx CPP.CNT_TUN_FAIL 1 n
  else
    let d : TunnelDesc := ⟨b, nearestIndex (s.portFrame n) (field b 14 2), false⟩
    s.setCam n { p with queue := p.queue ++ [d] }

/-- The frame whose send window holds the present beat (R122). -/
def State.sendWindow (s : State) (r : StreamRun) : Option Nat :=
  if r.period = 0 then none
  else
    let n := s.currentFrame r
    let t := s.time.beatNo
    if r.b0 ≤ t ∧ r.trigger n + 1 ≤ t ∧ t + s.cps CPS.LATCH_MARGIN r.entry + 1 ≤ r.trigger (n + 1) then some n else none

/-- DELAY of a class (R124). -/
def State.classDelay (s : State) (e c : Nat) : Nat := bits (s.cps CPS.DELAY e) (3 * c + 2) (3 * c)

/-- The frame a tunnel frame may be sent in now and the effective frame it then has; none while it must wait
(R122). -/
def State.sendNow (s : State) (n : Nat) (d : TunnelDesc) : Option (Nat × Nat) :=
  match s.tunnelRun n with
  | none => if d.keyed then none else some (0, 0)
  | some r =>
    if d.keyed then
      match s.sendWindow r with
      | none => none
      | some w =>
        let e := w + s.classDelay r.entry d.cls
        if d.target ≤ e then some (w, e) else none
    else some (s.currentFrame r, s.currentFrame r + s.classDelay r.entry d.cls)

/-- The bytes of a tunnel frame (R106): sequence number, address, register, length, data, CRC. -/
def tunnelBytes (seq : Nat) (d : TunnelDesc) : List Byte :=
  let b := leBytes 1 seq ++ slice d.bytes 0 1 ++ (slice d.bytes 2 2).reverse ++ slice d.bytes 1 1
    ++ slice d.bytes 4 d.len
  b ++ leBytes 2 (crc16 b)

/-- The front end's contexts fed from a port (R125). -/
def State.ifeOfPort (s : State) (n : Nat) : List Nat :=
  (List.range 8).filter fun c =>
    (s.rd .ife IFX.SOURCE c = 1 || s.rd .ife IFX.SOURCE c = 2) && s.cps CPS.PORT (s.rd .ife IFX.STREAM c) = n

/-- A linked entry is the one a report speaks of (R149). -/
def PqEntry.matches (e : PqEntry) (rep : EffReport) : Bool := e.linked && e.cls = rep.cls && e.target = rep.target

/-- SETTINGS_UNKNOWN from a frame onward (R149). -/
def IfeCtx.becomeUnknown (x : IfeCtx) (cls beat frame : Nat) : IfeCtx :=
  { x with unknown := some (cls, beat, match x.unknown with | some u => min u.2.2 frame | none => frame) }

/-- A report reaches a context's queue (R149): the linked entry takes its effective frame, or is discarded. -/
def IfeCtx.takeReport (x : IfeCtx) (rep : EffReport) (beat : Nat) : IfeCtx :=
  match rep.effective with
  | some f => { x with queue := x.queue.map fun e => if e.matches rep then { e with effective := some f } else e }
  | none =>
    if x.queue.any (·.matches rep) then
      ({ x with queue := x.queue.filter fun e => !e.matches rep }).becomeUnknown rep.cls beat rep.target
    else x

/-- The CPX passes a keyed write's effective frame to the parameter queues (R122, R123, R149). -/
def State.report (s : State) (n : Nat) (rep : EffReport) : State :=
  let p := s.cam n
  let s1 := s.setCam n { p with reports := rep :: p.reports }
  let cs := s.ifeOfPort n
  { s1 with vision := { s1.vision with
      ife := (s1.vision.ife.zip (List.range 8)).map fun x => if x.2 ∈ cs then x.1.takeReport rep s.time.beatNo else x.1 } }

/-- A keyed write sent after its target's window is late (R122). -/
def State.lateSetting (s : State) (d : TunnelDesc) (e : Nat) : State :=
  if d.keyed && decide (d.target < e) then (s.raise .cpx 4).count .cpx CPX.CNT_LATE_SET else s

/-- A tunnel frame leaves (R122): at most one a beat. -/
def State.emitTunnel (s : State) (n : Nat) (f : TunnelFrame) : State :=
  let p := s.cam n
  (s.setCam n { p with outstanding := some f, sentBeat := some s.time.beatNo
                       settings := assocSet f.desc.cls f.desc p.settings }).emit (.tunnel n (tunnelBytes f.seq f.desc))

/-- The head descriptor: what is sent again goes first (R120). -/
def CamPort.head (p : CamPort) : Option (TunnelDesc × CamPort) :=
  match p.resend, p.queue with
  | d :: r, _ => some (d, { p with resend := r })
  | [], d :: r => some (d, { p with queue := r })
  | [], [] => none

/-- A tunnel write fails for good (R123): fault record 0x2104, its effective frame unknown. -/
def State.failTunnel (s : State) (n : Nat) (f : TunnelFrame) : State :=
  let s1 := ((s.setCam n { s.cam n with outstanding := none }).count .cpx CPP.CNT_TUN_FAIL 1 n).fault .cpx 0x2104
  if f.desc.keyed then s1.report n ⟨f.desc.cls, f.desc.target, none⟩ else s1

/-- A tunnel frame sent again in its window, at most twice; else it has failed (R123). One frame leaves in a beat (R106): a
repeat in the beat of the frame itself waits for the next. -/
def State.retryTunnel (s : State) (n : Nat) (f : TunnelFrame) : State :=
  let fits : Bool := !f.desc.keyed || (match s.sendNow n f.desc with | some (w, _) => w = f.window | none => false)
  if f.tries < 3 ∧ fits then
    if (s.cam n).sentBeat = some s.time.beatNo then s.setCam n { s.cam n with outstanding := some { f with again := true } }
    else s.emitTunnel n { f with tries := f.tries + 1, sent := s.time.beatNo, again := false }
  else s.failTunnel n f

/-- TUNNEL_SEND (R122): the head descriptor is sent when its window is open, one frame outstanding and one a beat; a
repeat that had to wait goes first (R123). -/
def execTunnelSend (cam : Fin 12) (s : State) : Result :=
  let p := s.cam cam
  .next (if s.camEnabled cam && decide (p.sentBeat ≠ some s.time.beatNo) then
    match p.outstanding, p.head with
    | some f, _ => if f.again then s.retryTunnel cam f else s
    | none, none => s
    | none, some (d, p1) =>
      match s.sendNow cam d with
      | none => s
      | some (w, e) =>
        let f : TunnelFrame := ⟨d, p.nextSeq, s.time.beatNo, 1, w, e, false⟩
        let s1 := (s.setCam cam { p1 with nextSeq := (p.nextSeq + 1) % 256 }).emitTunnel cam f
        if d.keyed then (s1.report cam ⟨d.cls, d.target, some e⟩).lateSetting d e else s1
  else s)

/-- A tunnel write the camera confirmed (R123, R149). -/
def State.confirmTunnel (s : State) (n : Nat) (f : TunnelFrame) : State :=
  let p := s.cam n
  let c : Confirmed := ⟨f.desc.cls, f.effective, s.time.beatNo, slice f.desc.bytes 4 f.desc.len⟩
  s.setCam n { p with outstanding := none, confirmed := if f.desc.keyed then c :: p.confirmed else p.confirmed }

/-- A tunnel acknowledgement (R104, R123): other statuses than the four are none. -/
def State.tunnelAck (s : State) (n seq status : Nat) : State :=
  match (s.cam n).outstanding with
  | none => s
  | some f =>
    if f.seq ≠ seq then s
    else if status = 0 then s.confirmTunnel n f
    else if status = 3 then s.retryTunnel n f
    else if status = 1 ∨ status = 2 then s.failTunnel n f else s

/-- TUNNEL_ACK (R123). -/
def execTunnelAck (cam : Fin 12) (seq status : Nat) (s : State) : Result :=
  .next (if s.camDelivers cam then s.tunnelAck cam seq status else s)

/-- TUN_ACK_TMO (R123): no acknowledgement within `CPX.TUN_ACK_TMO` beats. -/
def execTunAckTmo (cam : Fin 12) (s : State) : Result :=
  .next (match (s.cam cam).outstanding with
    | some f => if f.sent + s.rd .cpx CPX.TUN_ACK_TMO ≤ s.time.beatNo then s.retryTunnel cam f else s
    | none => s)

/-! ### Transport packets -/

/-- A short packet whose header's ECC answered `e`. -/
def State.shortChecked (s : State) (port : Nat) (e : Option (Nat × Bool)) : State :=
  match e with
  | none => s.count .cpx CPP.CNT_ECC_UNCORR 1 port
  | some (h, fixed) =>
    let s1 := if fixed then s.count .cpx CPP.CNT_ECC_CORR 1 port else s
    let vc := bits h 7 6 + 4 * bits h 25 24
    let dt := bits h 5 0
    if dt = 0 then s1.fsPacket port vc (bits h 23 8)
    else if dt = 1 then s1.fePacket port vc
    else if dt = 2 ∨ dt = 3 then s1 else s1.orphan port

/-- A short packet (R107): generic ones are discarded and counted. -/
def State.shortPacket (s : State) (port : Nat) (header : List Byte) : State := s.shortChecked port (eccCheck header)

/-- A transport packet (R104): a CSI-2 packet, a tunnel acknowledgement, or an orphan. -/
def State.transport (s : State) (n : Nat) (packet : List Byte) : State :=
  let body := packet.drop 1
  if packet = [] then s.orphan n
  else if field packet 0 1 = 1 then
    if body.length = 4 then s.shortPacket n body
    else if 6 ≤ body.length then
      s.longPacket n (body.take 4) (slice body 4 (body.length - 6)) (field body (body.length - 2) 2)
    else s.orphan n
  else if field packet 0 1 = 2 then s.tunnelAck n (field body 0 1) (field body 1 1)
  else s.orphan n

/-- TRANSPORT_PACKET (R104). -/
def execTransportPacket (cam : Fin 12) (packet : List Byte) (s : State) : Result :=
  .next (if s.camDelivers cam then s.transport cam packet else s)

/-! ### Register actions -/

/-- The status of a push: REFUSED when the descriptor breaks R121 or the queue is full, LOCKED_USE on a port in locked
use (R112). The refusal of a full queue is counted (R121). -/
def tunPushCheck (s : State) (b : List Byte) : Nat × State :=
  let n := field b 13 1 % 16
  if !tunnelOk b then (0x0B, s)
  else if s.camLocked n then (0x07, s)
  else if 64 ≤ (s.cam n).queue.length then (0x0B, s.count .cpx CPP.CNT_TUN_FAIL 1 n) else (0, s)

/-- The status of a write of PORT_EN: LOCKED_USE when it changes a port in locked use (R124). -/
def portEnCheck (s : State) (new : Nat) : Nat :=
  let old := s.rd .cpx CPX.PORT_EN
  if (setBits 12 (old.xor new)).any s.camLocked then 0x07 else 0

/-- A darkened port keeps no block lock (R103). -/
def portEnAct (s : State) (new : Nat) : State :=
  (List.range 12).foldl (fun t n => if new.testBit n then t else t.wr .cpx CPP.LOCK 0 n) (s.wr .cpx CPX.PORT_EN new)

end Sys2Proof.Machine
end

