-- ==== Sys2Proof/Machine/IfePixels.lean ====
section
/-! DEFINITION. The image front end's arithmetic (R129–R146): parameter blocks, the nine stages, the three outputs. -/

namespace Sys2Proof.Machine

/-! ### Parameter blocks (R146) -/

/-- Signed 16-bit field of a block. -/
def s16 (b : List Byte) (off : Nat) : Int := toInt 16 (field b off 2)

/-- Unsigned 16-bit field of a block. -/
def u16 (b : List Byte) (off : Nat) : Int := field b off 2

/-- Numbers as little-endian 16-bit fields. -/
def u16s (l : List Int) : List Byte := l.flatMap fun v => leBytes 2 (ofInt 16 v)

/-- Sections of a block laid at their offsets, zeros between. -/
def layOut (n : Nat) (l : List (Nat × List Byte)) : List Byte :=
  l.foldl (fun acc x => acc.take x.1 ++ x.2 ++ acc.drop (x.1 + x.2.length)) (zeros n)

/-- The Default column of R146. -/
def defaultBlock : List Byte :=
  layOut 1088
    [(0x48, u16s [16384, 16384, 16384, 16384]), (0x50, u16s [65535]), (0x62, u16s [4096, 4096]), (0x84, u16s [4096]),
     (0xB0, u16s (List.replicate 33 65535)), (0x100, [7, 7, 0, 0]), (0x110, u16s [4096, 4096, 4096, 4096]),
     (0x120, u16s [256]), (0x130, u16s [4096, 0, 0, 0, 4096, 0, 0, 0, 4096]),
     (0x150, u16s [2991, 10064, 1016, -1649, -5547, 7196, 7196, -6536, -660]), (0x162, u16s [4096, 32768]),
     (0x200, u16s ((List.range 257).map fun j => (Config.srgbTone j : Int)))]

/-- The sections by STAGE_MASK bit: bit, offset, length. -/
def blockSections : List (Nat × Nat × Nat) :=
  [(0, 0x40, 0x12), (1, 0x60, 0x10), (2, 0x80, 0x72), (3, 0x100, 0x10), (4, 0x110, 8), (5, 0x120, 2), (6, 0x130, 0x18),
   (8, 0x150, 0x16), (7, 0x200, 0x202)]

/-- A block's present sections laid over the parameters in force (R146). -/
def mergeBlock (cur new : List Byte) : List Byte :=
  let mask := field new 2 2
  let put (acc : List Byte) (off n : Nat) : List Byte := acc.take off ++ slice new off n ++ acc.drop (off + n)
  blockSections.foldl (fun acc x => if mask.testBit x.1 then put acc x.2.1 x.2.2 else acc) (put cur 0 4)

/-- The reserved bytes of a block: those no section holds. -/
def blockReserved : List (Nat × Nat) :=
  [(0x04, 0x3C), (0x52, 0xE), (0x61, 1), (0x70, 0x10), (0x83, 1), (0x86, 0xA), (0xF2, 0xE), (0x104, 4), (0x118, 8),
   (0x122, 0xE), (0x148, 8), (0x166, 0x9A), (0x402, 0x3E)]

/-- A parameter block's own values lie in range (R146, R147): reserved bytes zero, NR_S at most 256, DEF_COUNT at most
8192, undefined mode bits clear. -/
def blockOk (b : List Byte) : Bool :=
  b.length = 1088 && blockReserved.all (fun x => field b x.1 x.2 = 0) && field b 2 2 < 512
    && field b 0x60 1 < 4 && field b 0x66 2 ≤ 8192 && field b 0x80 2 ≤ 256 && field b 0x82 1 < 4
    && field b 0x68 8 % 64 = 0 && field b 0x108 8 % 64 = 0

/-- Entries of a static defect list (R133). -/
def defectEntries (bytes : List Byte) (n : Nat) : List Nat := (List.range n).map fun i => field bytes (4 * i) 4

/-- A static list is sorted by row, then column, holds no reserved type and stays in the frame (R133). -/
def defectsOk (l : List Nat) (w h : Nat) : Bool :=
  l.all (fun e => bits e 31 30 ≠ 3 && bits e 13 0 < w && bits e 29 16 < h)
    && (l.zip l.tail).all fun x =>
      bits x.1 29 16 < bits x.2 29 16 || (bits x.1 29 16 = bits x.2 29 16 && bits x.1 13 0 ≤ bits x.2 13 0)

/-- A shading grid obeys R139 for a frame. -/
def gridOk (b : List Byte) (w h : Nat) : Bool :=
  let sx := field b 0x100 1
  let sy := field b 0x101 1
  let gx := field b 0x102 1
  let gy := field b 0x103 1
  gx = 0 && gy = 0 || (4 ≤ sx && sx ≤ 10 && 4 ≤ sy && sy ≤ 10 && gx ≤ 65 && gy ≤ 65
    && ceilDiv w (2 ^ sx) + 1 ≤ gx && ceilDiv h (2 ^ sy) + 1 ≤ gy)

/-! ### The frame and its taps (R130) -/

/-- A frame in the pipeline: size, CFA code, which rows are missing, parameters, the defect list, the shading grid's
bytes. -/
structure IfeFrame where
  w : Nat
  h : Nat
  cfa : Nat
  missing : List Nat
  par : List Byte
  defects : List Nat
  grid : List Byte

/-- The channel of a site: 0 R, 1 Gr, 2 Gb, 3 B; MONO uses 0. -/
def IfeFrame.chan (f : IfeFrame) (r c : Nat) : Nat :=
  let i := 2 * (r % 2) + c % 2
  if f.cfa = 0 then i
  else if f.cfa = 1 then nth [1, 0, 3, 2] i
  else if f.cfa = 2 then nth [2, 3, 0, 1] i
  else if f.cfa = 3 then 3 - i else 0

/-- The distance of the same-colour lattice. -/
def IfeFrame.dist (f : IfeFrame) : Int := if f.cfa = 4 then 1 else 2

/-- A tap at an offset: reflected at the edges; the window's centre on a missing row (R130). -/
def IfeFrame.tap (f : IfeFrame) (p : Plane) (r c : Nat) (dr dc : Int) : Int :=
  let y := reflect f.h ((r : Int) + dr)
  if y ∈ f.missing then p.at r c else p.at y (reflect f.w ((c : Int) + dc))

/-- The eight neighbours on the same-colour lattice. -/
def IfeFrame.ring (f : IfeFrame) (p : Plane) (r c : Nat) : List Int :=
  ((windowOf 1).filter (· ≠ (0, 0))).map fun o => f.tap p r c (f.dist * o.1) (f.dist * o.2)

/-- A stage: its function of each site; a missing row stays zeros (R130). -/
def IfeFrame.stage (f : IfeFrame) (g : Nat → Nat → Int) : Plane :=
  (List.range f.h).map fun r => (List.range f.w).map fun c => if r ∈ f.missing then 0 else g r c

/-! ### The stages -/

/-- Stage 1, black level (R131), of aligned values. -/
def IfeFrame.black (f : IfeFrame) (x : Plane) : Plane :=
  f.stage fun r c =>
    let k := f.chan r c
    clamp16 (rnd (max 0 (x.at r c - u16 f.par (0x40 + 2 * k)) * u16 f.par (0x48 + 2 * k)) 14)

/-- Stage 2, defect pixels (R132). -/
def IfeFrame.defect (f : IfeFrame) (p : Plane) : Plane :=
  let mode := field f.par 0x60 1
  let static := mode.testBit 0
  f.stage fun r c =>
    let x := p.at r c
    let col := static && f.defects.any fun e => bits e 31 30 = 1 && bits e 13 0 = c
    let row := static && f.defects.any fun e => bits e 31 30 = 2 && bits e 29 16 = r
    let one := static && f.defects.any fun e => bits e 31 30 = 0 && bits e 13 0 = c && bits e 29 16 = r
    let n := f.ring p r c
    let dyn := mode.testBit 1 && (maxI 0 n + u16 f.par 0x62 < x || x < minI 65535 n - u16 f.par 0x64)
    let d := f.dist
    let al := f.tap p r c 0 (-d)
    let ar := f.tap p r c 0 d
    let au := f.tap p r c (-d) 0
    let ad := f.tap p r c d 0
    let lr := rnd (al + ar) 1
    let ud := rnd (au + ad) 1
    if col then lr
    else if row then ud
    else if one || dyn then (if absI (al - ar) ≤ absI (au - ad) then lr else ud) else x

/-- The interpolated reciprocal noise level at a level. -/
def noiseK (par : List Byte) (x : Int) : Int :=
  let j := (x / 2048).toNat
  let a := u16 par (0xB0 + 2 * j)
  let b := u16 par (0xB0 + 2 * (j + 1))
  a + rnd ((b - a) * (x % 2048)) 11

/-- A difference in quarter standard deviations, at most 15. -/
def noiseQ (par : List Byte) (d x : Int) : Nat := (min 15 (d * noiseK par x / 2 ^ 14)).toNat

/-- Stage 3, the spatial filter (R134). -/
def IfeFrame.spatial (f : IfeFrame) (p : Plane) : Plane :=
  f.stage fun r c =>
    let x0 := p.at r c
    let ws := (f.ring p r c).map fun x => ((field f.par (0x90 + noiseQ f.par (absI (x - x0)) x0) 1 : Int), x)
    let w := sumI (256 :: ws.map (·.1))
    let sf := divRnd (sumI (256 * x0 :: ws.map fun y => y.1 * y.2)) w
    x0 + rnd ((sf - x0) * u16 f.par 0x80) 8

/-- Stage 3, the temporal step (R135): `ref r c` is the reference sample, none where filtering is off. -/
def IfeFrame.temporal (f : IfeFrame) (p : Plane) (ref : Nat → Nat → Option Int) : Plane :=
  f.stage fun r c =>
    let s := p.at r c
    match ref r c with
    | none => s
    | some v =>
      let r' := clamp16 (rnd (v * u16 f.par 0x84) 12)
      s + rnd ((r' - s) * field f.par (0xA0 + noiseQ f.par (absI (s - r')) s) 1) 8

/-- The motion-compensated reference sample (R137) of a vector in 1/256 px: lattice sites outside the frame are held at
the nearest site of the same phase. -/
def IfeFrame.mcSample (f : IfeFrame) (ref : Plane) (r c : Nat) (vx vy : Int) : Int :=
  let d := f.dist
  let u := rnd vx 5
  let v := rnd vy 5
  let iu := u / 16
  let iv := v / 16
  let fu := u - 16 * iu
  let fv := v - 16 * iv
  let pos (n : Nat) (i : Nat) (k : Int) : Nat :=
    let ph := (i : Int) % d
    (ph + d * clampInt 0 (((n : Int) - 1 - ph) / d) (((i : Int) - ph) / d + k)).toNat
  let g (a b : Int) : Int := ref.at (pos f.h r (iv + b)) (pos f.w c (iu + a))
  rnd (bilin 4 fu fv (g 0 0) (g 1 0) (g 0 1) (g 1 1)) 8

/-- A node gain of the shading grid (R139). -/
def IfeFrame.node (f : IfeFrame) (i j k : Nat) : Int :=
  field f.grid (8 * (j * field f.par 0x102 1 + i) + 2 * k) 2

/-- Stage 4, lens shading (R139). -/
def IfeFrame.shade (f : IfeFrame) (p : Plane) : Plane :=
  let sx := field f.par 0x100 1
  let sy := field f.par 0x101 1
  if field f.par 0x102 1 = 0 then p
  else f.stage fun r c =>
    let k := f.chan r c
    let i := c / 2 ^ sx
    let j := r / 2 ^ sy
    let fx : Int := c % 2 ^ sx
    let fy : Int := r % 2 ^ sy
    let g := rnd ((2 ^ sx - fx) * (2 ^ sy - fy) * f.node i j k + fx * (2 ^ sy - fy) * f.node (i + 1) j k
      + (2 ^ sx - fx) * fy * f.node i (j + 1) k + fx * fy * f.node (i + 1) (j + 1) k) (sx + sy)
    clamp16 (rnd (p.at r c * g) 12)

/-- Stage 5, white balance (R140). -/
def IfeFrame.balance (f : IfeFrame) (p : Plane) : Plane :=
  f.stage fun r c => clamp16 (rnd (p.at r c * u16 f.par (0x110 + 2 * f.chan r c)) 12)

/-- The green plane of stage 6 (R141). -/
def IfeFrame.green (f : IfeFrame) (p : Plane) : Plane :=
  let t := u16 f.par 0x120
  f.stage fun r c =>
    let k := f.chan r c
    if k = 1 ∨ k = 2 then p.at r c
    else
      let x := p.at r c
      let gl := f.tap p r c 0 (-1)
      let gr := f.tap p r c 0 1
      let gu := f.tap p r c (-1) 0
      let gd := f.tap p r c 1 0
      let hh := 2 * x - f.tap p r c 0 (-2) - f.tap p r c 0 2
      let vv := 2 * x - f.tap p r c (-2) 0 - f.tap p r c 2 0
      let dh := absI (gl - gr) + absI hh
      let dv := absI (gu - gd) + absI vv
      let eh := 2 * (gl + gr) + hh
      let ev := 2 * (gu + gd) + vv
      if dh + t < dv then clamp16 (rnd eh 2)
      else if dv + t < dh then clamp16 (rnd ev 2) else clamp16 (rnd (eh + ev) 3)

/-- Red (k = 0) or blue (k = 3) of stage 6 from colour differences (R141). -/
def IfeFrame.colour (f : IfeFrame) (p g : Plane) (k : Nat) : Plane :=
  f.stage fun r c =>
    let d (dr dc : Int) : Int := f.tap p r c dr dc - f.tap g r c dr dc
    let j := f.chan r c
    if j = k then p.at r c
    else if j = 3 - k then clamp16 (g.at r c + rnd (d (-1) (-1) + d (-1) 1 + d 1 (-1) + d 1 1) 2)
    else if (j = 1) = (k = 0) then clamp16 (g.at r c + rnd (d 0 (-1) + d 0 1) 1)
    else clamp16 (g.at r c + rnd (d (-1) 0 + d 1 0) 1)

/-- Three colour planes. -/
structure Rgb where
  r : Plane
  g : Plane
  b : Plane

/-- Stage 6, demosaic (R141); MONO copies. -/
def IfeFrame.demosaic (f : IfeFrame) (p : Plane) : Rgb :=
  if f.cfa = 4 then ⟨p, p, p⟩
  else
    let g := f.green p
    ⟨f.colour p g 0, g, f.colour p g 3⟩

/-- A row of a 3 × 3 matrix on the colours of a site: fraction bits, offset of the row in the block. -/
def IfeFrame.dot (f : IfeFrame) (x : Rgb) (off r c : Nat) : Int :=
  s16 f.par off * x.r.at r c + s16 f.par (off + 2) * x.g.at r c + s16 f.par (off + 4) * x.b.at r c

/-- Stage 7, the colour matrix (R142). -/
def IfeFrame.matrix (f : IfeFrame) (x : Rgb) : Rgb :=
  let row (i : Nat) : Plane :=
    f.stage fun r c => clamp16 (rnd (f.dot x (0x130 + 6 * i) r c) 12 + s16 f.par (0x142 + 2 * i))
  ⟨row 0, row 1, row 2⟩

/-- Stage 8, tone (R143). -/
def IfeFrame.tone (f : IfeFrame) (x : Rgb) : Rgb :=
  let t (p : Plane) : Plane := f.stage fun r c =>
    let v := p.at r c
    let j := (v / 256).toNat
    let a := u16 f.par (0x200 + 2 * j)
    let b := u16 f.par (0x200 + 2 * (j + 1))
    a + rnd ((b - a) * (v % 256)) 8
  ⟨t x.r, t x.g, t x.b⟩

/-! ### Outputs (R144, R145) -/

/-- A pixel row of bytes or 16-bit codes, interleaved by colour. -/
def interleave (x : Rgb) (g : Int → Nat) (r : Nat) : List Nat :=
  ((x.r.getD r []).zip ((x.g.getD r []).zip (x.b.getD r []))).flatMap fun v => [g v.1, g v.2.1, g v.2.2]

/-- Display rows: RGB888. -/
def displayRow (x : Rgb) (r : Nat) : List Nat := interleave x (fun v => (min 255 (rnd v 8)).toNat) r

/-- Stage 9 (R145): luma and full-resolution chroma; MONO has constant chroma. -/
def IfeFrame.convert (f : IfeFrame) (t : Rgb) : Rgb :=
  let y := f.stage fun r c => clamp16 (rnd (f.dot t 0x150 r c) 14 + u16 f.par 0x162)
  let ch (off : Nat) : Plane := f.stage fun r c =>
    if f.cfa = 4 then u16 f.par 0x164 else clamp16 (rnd (f.dot t off r c) 14 + u16 f.par 0x164)
  ⟨y, ch 0x156, ch 0x15C⟩

/-- A coding sample: 8 bits (NV12) or 10 bits in [15:6] (P010). -/
def codeSample (p010 : Bool) (v : Int) : Nat :=
  if p010 then (min 1023 (rnd v 6)).toNat * 64 else (min 255 (rnd v 8)).toNat

/-- A luma row of the coding output. -/
def codeLuma (p010 : Bool) (y : Rgb) (r : Nat) : List Nat := (y.r.getD r []).map (codeSample p010)

/-- A chroma row of the coding output: each 2 × 2 block averaged, Cb first. -/
def codeChroma (p010 : Bool) (w : Nat) (y : Rgb) (j : Nat) : List Nat :=
  let avg (p : Plane) (i : Nat) : Int :=
    rnd (p.at (2 * j) (2 * i) + p.at (2 * j) (2 * i + 1) + p.at (2 * j + 1) (2 * i) + p.at (2 * j + 1) (2 * i + 1)) 2
  (List.range (w / 2)).flatMap fun i => [codeSample p010 (avg y.g i), codeSample p010 (avg y.b i)]

/-- Machine vision luma (R144). -/
def luma (x : Rgb) (r c : Nat) : Nat := (rnd (3483 * x.r.at r c + 11718 * x.g.at r c + 1183 * x.b.at r c) 14).toNat

/-- What the pipeline makes of a frame: the values after each tap. -/
structure IfeResult where
  aligned : Plane
  blacked : Plane
  noise : Plane
  balanced : Plane
  camera : Rgb
  linear : Rgb
  toned : Rgb

/-- The pipeline on a frame of pixel codes of `depth` bits (R129): stages 1 to 8. -/
def IfeFrame.pipeline (f : IfeFrame) (depth : Nat) (raw : Plane) (ref : Nat → Nat → Option Int) : IfeResult :=
  let x := f.stage fun r c => raw.at r c * 2 ^ (16 - depth)
  let b := f.black x
  let y := f.temporal (f.spatial (f.defect b)) ref
  let wb := f.balance (f.shade y)
  let cam := f.demosaic wb
  let lin := f.matrix cam
  ⟨x, b, y, wb, cam, lin, f.tone lin⟩

/-! ### Statistics (R151) -/

/-- The channel's pixels, on rows that are not missing. -/
def IfeFrame.sites (f : IfeFrame) (k r0 r1 c0 c1 : Nat) : List (Nat × Nat) :=
  ((List.range (r1 - r0)).map (· + r0)).flatMap fun r =>
    if r ∈ f.missing then []
    else (((List.range (c1 - c0)).map (· + c0)).filter fun c => f.chan r c = k).map fun c => (r, c)

/-- The 256 bins of a channel. -/
def IfeFrame.histogram (f : IfeFrame) (p : Plane) (k : Nat) : List Nat :=
  let vs := (f.sites k 0 f.h 0 f.w).map fun x => (p.at x.1 x.2 / 256).toNat
  (List.range 256).map fun b => vs.count b

/-- The mean of a zone for a channel: 0 when it has no site. -/
def IfeFrame.zone (f : IfeFrame) (p : Plane) (k i j : Nat) : Int :=
  let xs := f.sites k (2 * (j * f.h / 48)) (2 * ((j + 1) * f.h / 48)) (2 * (i * f.w / 64)) (2 * ((i + 1) * f.w / 64))
  if xs = [] then 0 else divRnd (sumI (xs.map fun x => p.at x.1 x.2)) xs.length

/-- Saturated pixels (R131). -/
def IfeFrame.saturated (f : IfeFrame) (x : Plane) : Nat :=
  ((List.range f.h).flatMap fun r => if r ∈ f.missing then [] else (x.getD r []).filter (u16 f.par 0x50 ≤ ·)).length

/-- Bytes 64–10 303 of a statistics record: histograms and zone means. -/
def IfeFrame.statsBody (f : IfeFrame) (p : Plane) : List Byte :=
  (List.range 4).flatMap (fun k => (f.histogram p k).flatMap (leBytes 4))
    ++ (List.range 24).flatMap fun j => (List.range 32).flatMap fun i => (List.range 4).flatMap fun k =>
      leBytes 2 (f.zone p k i j).toNat

end Sys2Proof.Machine
end

