-- ==== Sys2Proof/Machine/Ife.lean ====
section
/-! DEFINITION. The image front end's contexts: parameter queues, frame starts, outputs and statistics (R125–R153). -/

namespace Sys2Proof.Machine

/-! ### Contexts -/

/-- A context's state. -/
def State.ife (s : State) (c : Nat) : IfeCtx := s.vision.ife.getD c IfeCtx.fresh

/-- A context's state changed. -/
def State.setIfe (s : State) (c : Nat) (x : IfeCtx) : State :=
  { s with vision := { s.vision with ife := s.vision.ife.set c x } }

/-- A context is named by a held set (R125). -/
def State.ifeLocked (s : State) (c : Nat) : Bool :=
  s.lockedSets.any fun x => x.1.nodes.any fun n => n.cls = .ife && n.engineCtx = c

/-- A context takes its geometry from a stream entry (SOURCE 0b01, 0b10). -/
def State.ifeStream? (s : State) (c : Nat) : Option Nat :=
  if s.rd .ife IFX.SOURCE c = 1 ∨ s.rd .ife IFX.SOURCE c = 2 then some (s.rd .ife IFX.STREAM c) else none

/-- The frame width and height of a context (R154). -/
def State.ifeSize (s : State) (c : Nat) : Nat × Nat :=
  match s.ifeStream? c with
  | some e => (s.cps CPS.WIDTH e, s.cps CPS.HEIGHT e)
  | none => (s.rd .ife IFX.WIDTH c, s.rd .ife IFX.HEIGHT c)

/-- The input depth of a context (R154). -/
def State.ifeDepth (s : State) (c : Nat) : Nat :=
  match s.ifeStream? c with
  | some e => dtBits (s.cps CPS.DT e)
  | none => s.rd .ife IFX.BITS c

/-- The parameter block in force. -/
def IfeCtx.block (x : IfeCtx) : List Byte := if x.params = [] then defaultBlock else x.params

/-! ### Parameter queues (R148–R150) -/

/-- The reason a block is refused (R147, R133, R139), 0x1061 for an unreadable one: none when it may be queued. -/
def State.blockRefused (s : State) (c addr : Nat) : Option Bool :=
  let b := s.load addr 1088
  let par := mergeBlock (s.ife c).block b
  let sz := s.ifeSize c
  let defs := defectEntries (s.load (field par 0x68 8) (4 * field par 0x66 2)) (field par 0x66 2)
  if s.poisonMap addr 1088 ≠ 0 then some true
  else if blockOk b && gridOk par sz.1 sz.2 && defectsOk defs sz.1 sz.2 then none else some false

/-- The report of a linked entry's tunnel write, when it has already come (R149). -/
def State.reportOf (s : State) (c cls target : Nat) : Option EffReport :=
  match s.ifeStream? c with
  | some e => (s.cam (s.cps CPS.PORT e)).reports.find? fun x => x.cls = cls ∧ x.target = target
  | none => none

/-- An entry queued (R147–R149). An unlinked entry for a frame already started is late; a linked one whose write has failed
is discarded. -/
def State.queueParams (s : State) (c cls low addr : Nat) (linked : Bool) : State :=
  let x := s.ife c
  let cur := x.frame.getD 0
  let target := nearestIndex cur low
  let late : Bool := !linked && (match x.frame with | some n => decide (target ≤ n) | none => false)
  let rep := if linked then s.reportOf c cls target else none
  let e : PqEntry := ⟨target, linked, cls, s.load addr 1088, rep.bind (·.effective), late⟩
  let failed : Bool := match rep with | some r => r.effective.isNone | none => false
  let s1 := s.setIfe c (if failed then x.becomeUnknown cls s.time.beatNo target else { x with queue := x.queue ++ [e] })
  if late then (s1.raise .ife 1).count .ife IFX.CNT_PQ_LATE 1 c else s1

/-- What a push answers (R150): REFUSED for a full queue, a block that breaks its rules or cannot be read, LOCKED_USE
for a context in locked use (R125). -/
def pqPushCheck (s : State) (c addr : Nat) : Nat × State :=
  if s.ifeLocked c then (0x07, s)
  else if 16 ≤ (s.ife c).queue.length then (0x0B, s.count .ife IFE.CNT_PQ_REFUSED)
  else if addr % 64 ≠ 0 ∨ !s.openGddr addr 1088 then (0x0B, s)
  else match s.blockRefused c addr with
    | some true => (0x0B, s.fault .ife 0x1061)
    | some false => (0x0B, s)
    | none => (0, s)

/-- A push of a graph's control node (R150). -/
def State.graphPush (s : State) (d : PqDesc) : State :=
  let cur := (s.ife d.ctx).frame.getD 0
  if 16 ≤ (s.ife d.ctx).queue.length then s.count .ife IFE.CNT_PQ_REFUSED
  else match s.blockRefused d.ctx d.addr with
    | some true => s.fault .ife 0x1061 [] true
    | some false => s
    | none => s.queueParams d.ctx d.cls ((cur + d.ahead) % 65536) d.addr d.linked

/-! ### Frame start (R136, R148, R149) -/

/-- An entry applies at the start of frame `n`. -/
def PqEntry.due (e : PqEntry) (n : Nat) : Bool :=
  if e.linked then (match e.effective with | some f => f ≤ n | none => false) else e.target ≤ n

/-- A linked entry is given up at the start of frame `n`: no report by frame F + 8. -/
def PqEntry.stale (e : PqEntry) (n : Nat) : Bool := e.linked && e.effective.isNone && decide (e.target + 8 ≤ n)

/-- SETTINGS_UNKNOWN ends at the effective frame of the next keyed write of its class that the camera confirms. -/
def State.knownAgain (s : State) (c n : Nat) (x : IfeCtx) : IfeCtx :=
  match x.unknown, s.ifeStream? c with
  | some u, some e =>
    if (s.cam (s.cps CPS.PORT e)).confirmed.any fun k => k.cls = u.1 ∧ u.2.1 < k.beat ∧ k.effective ≤ n then
      { x with unknown := none }
    else x
  | _, _ => x

/-- Frame `n` carries SETTINGS_UNKNOWN. -/
def IfeCtx.unknownAt (x : IfeCtx) (n : Nat) : Bool := match x.unknown with | some u => u.2.2 ≤ n | none => false

/-- A setting of frame `n` comes late (R149): a linked entry applies after it. -/
def IfeCtx.lateAt (x : IfeCtx) (n : Nat) : Bool :=
  x.queue.any fun e => e.linked && decide (e.target ≤ n) && (match e.effective with | some f => n < f | none => false)

/-- The frame's statistics flags known at its start (R151). -/
def startFlags (x : IfeCtx) (unknown temporalOn : Bool) (n : Nat) (priv : Bool) : Nat :=
  b2n unknown + 2 * b2n (x.lateAt n) + 4 * b2n (!temporalOn) + 64 * b2n priv
    + 128 * b2n (x.queue.any fun e => e.late && e.due n)

/-- A context enters frame `n` (R148): what is due is applied in push order, what is stale is discarded. -/
def State.startIfeFrame (s : State) (c n : Nat) : State :=
  let x := s.ife c
  let par := (x.queue.filter (·.due n)).foldl (fun p e => mergeBlock p e.block) x.block
  let k := (x.queue.filter (·.stale n)).foldl (fun y e => y.becomeUnknown e.cls s.time.beatNo e.target) (s.knownAgain c n x)
  let unknown := k.unknownAt n
  let nrT := field par 0x82 1
  let temporal : Bool := nrT.testBit 0 && decide (0 < n) && decide (x.refFrame = some (n - 1)) && !unknown
  let y : IfeCtx := { k with
    params := par
    queue := x.queue.filter fun e => !(e.due n) && !(e.stale n)
    frame := some n
    flags := startFlags x unknown temporal n (s.rd .ife IFX.PRIV c = 1)
    temporal := temporal
    motion := nrT.testBit 1 && s.rd .ife IFX.SOURCE c = 1 }
  let s1 := ((s.setIfe c y).wr .ife IFX.FRAME_IDX n c).wr .ife IFX.MC_ACTIVE 0 c
  let s2 := s1.wr .ife IFX.LAST_PSET (field par 0 2) c
  if unknown && !x.flags.testBit 0 then s2.raise .ife 2 else s2

/-- IFE_FRAME_START (R148): an enabled context takes its due parameters before the frame's first row. -/
def execIfeFrameStart (ctx : Fin 8) (frame : Nat) (s : State) : Result :=
  .next (if s.rd .ife HDR.EN = 1 && s.rd .ife IFX.EN ctx = 1 && s.domainReady 30
      && (match (s.ife ctx).frame with | some n => decide (n < frame) | none => true) then
    s.startIfeFrame ctx frame
  else s)

/-- The motion decision before the first strip of a frame is admitted (R138): a flow field that is not flagged complete
makes the frame motion-adaptive. -/
def State.motionCheck (s : State) (c n : Nat) (flow : Option (Nat × Nat)) (locked : Bool) : State :=
  let x := s.ife c
  let ok : Bool := match flow with
    | some (p, k) => (ImageKey.engine p k 0, n - 1) ∈ s.vision.complete
    | none => false
  if !x.motion then s
  else if ok then s.wr .ife IFX.MC_ACTIVE (b2n x.temporal) c
  else
    let s1 := (s.setIfe c { x with motion := false, flags := x.flags + 8 }).wr .ife IFX.MC_ACTIVE 0 c
    let s2 := (s1.raise .ife 3).count .ife IFX.CNT_MC_FALLBACK 1 c
    if locked then s2.fault .ife 0x3061 else s2

/-! ### Outputs (R128, R144) -/

/-- The rows of an image in a frame, as a plane, and those of them that are missing. -/
def State.image (s : State) (k : ImageKey) (frame h : Nat) : Plane × List Nat :=
  let row (r : Nat) : Option ImgRow := s.vision.rows.find? fun x => x.key = k ∧ x.frame = frame ∧ x.row = r
  ((List.range h).map fun r => (match row r with | some x => x.data.map fun (v : Nat) => (v : Int) | none => []),
   (List.range h).filter fun r => (match row r with | some x => x.missing | none => true))

/-- The rows an engine context lost in line memory while it worked on a frame. -/
def State.lostOf (s : State) (p : Page) (ctx input n : Nat) : List Nat :=
  (s.vision.lostRows.filter fun x => x.page = p.num ∧ x.ctx = ctx ∧ x.input = input ∧ x.frame = n).map (·.row)

/-- The frame a context has in its pipeline. -/
def State.ifeFrame (s : State) (c n : Nat) : IfeFrame × Plane :=
  let sz := s.ifeSize c
  let par := (s.ife c).block
  let img := match s.ifeStream? c with
    | some e => s.image (.stream e) n sz.2
    | none => s.image (.ife c 8) n sz.2
  let img := losing (s.lostOf .ife c 0 n) img
  let gx := field par 0x102 1
  let gy := field par 0x103 1
  ({ w := sz.1, h := sz.2, cfa := s.rd .ife IFX.CFA c, missing := img.2, par := par
     defects := defectEntries (s.load (field par 0x68 8) (4 * field par 0x66 2)) (field par 0x66 2)
     grid := s.load (field par 0x108 8) (8 * gx * gy) }, img.1)

/-- The reference sample of a site: none where temporal filtering is off (R135–R137). -/
def State.ifeRef (s : State) (c n : Nat) (f : IfeFrame) (flow : Option (Nat × Nat)) : Nat → Nat → Option Int :=
  let x := s.ife c
  let ref := s.image (.ife c 9) (n - 1) f.h
  let fld : Plane := match flow with
    | some (p, k) => (s.image (.engine p k 0) (n - 1) (f.h / 8)).1
    | none => []
  fun r col =>
    if !x.temporal ∨ r ∈ ref.2 then none
    else if x.motion then
      let code := (fld.at (r / 8) (col / 8)).toNat
      match flowX code, flowY code with
      | some a, some b => some (f.mcSample ref.1 r col a b)
      | _, _ => some (ref.1.at r col)
    else some (ref.1.at r col)

/-- A plane's row as codes. -/
def codes (p : Plane) (r : Nat) : List Nat := (p.getD r []).map (·.toNat)

/-- One row of every enabled output, and the reference row (R135, R144). -/
def State.putIfeRow (s : State) (c n r : Nat) (f : IfeFrame) (z : IfeResult) : State :=
  let miss : Bool := r ∈ f.missing
  let put (t : State) (on : Bool) (out : Nat) (row : List Nat) : State :=
    if on then t.putRow (.ife c out) n r row miss else t
  let p010 := s.rd .ife IFX.CODE_FMT c = 1
  let code := s.rd .ife IFX.CODE_EN c = 1
  let mv := s.rd .ife IFX.MV_EN c = 1
  let tap := s.rd .ife IFX.MV_TAP c
  let fmt := s.rd .ife IFX.MV_FMT c
  let rgb := if tap = 0 then z.linear else z.camera
  let y := f.convert z.toned
  let s1 := put s (s.rd .ife IFX.DISP_EN c = 1) 0 (displayRow z.toned r)
  let s2 := put s1 code 1 (codeLuma p010 y r)
  let s3 := if code && r % 2 = 0 then s2.putRow (.ife c 2) n (r / 2) (codeChroma p010 f.w y (r / 2)) miss else s2
  let s4 := put s3 (mv && tap = 2) 3 (codes z.noise r)
  let s5 := put s4 (mv && tap ≠ 2 && fmt = 0) 3 (interleave rgb (·.toNat) r)
  let s6 := put s5 (mv && tap ≠ 2 && fmt = 1) 3 (codes rgb.r r)
  let s7 := put s6 (mv && tap ≠ 2 && fmt = 1) 4 (codes rgb.g r)
  let s8 := put s7 (mv && tap ≠ 2 && fmt = 1) 5 (codes rgb.b r)
  let s9 := put s8 (mv && tap ≠ 2 && fmt = 2) 3 ((List.range f.w).map (luma rgb r))
  (s9.putRow (.ife c 9) n r (codes z.noise r) miss)

/-! ### Statistics (R151, R152) -/

/-- The embedded bytes of a frame (R152), in arrival order. -/
def State.embedded (s : State) (e n : Nat) : List Nat :=
  let rs := s.vision.rows.filter fun x => x.key = .stream e ∧ x.frame = n ∧ !x.missing
  (List.range (s.cps CPS.HEIGHT e)).flatMap fun r => (rs.filter (·.row = r)).flatMap (·.data)

/-- The privileged slot that serves a context. -/
def State.privSlot (s : State) (c : Nat) : Option Nat :=
  (List.range 4).find? fun p => s.rd .ife IFP.EN p = 1 && s.rd .ife IFP.CTX p = c

/-- An extracted value (R152): 0 when disabled. -/
def State.extract (s : State) (p i : Nat) (emb : List Nat) : Nat :=
  let b := ((List.range (s.rd .ife IFP.EXT_LEN p i)).map fun k => nth emb (s.rd .ife IFP.EXT_OFFSET p i + k))
  let b := b.map (BitVec.ofNat 8 ·)
  if s.rd .ife IFP.EXT_BE p i = 1 then beNat b else leNat b

/-- A checked field differs from the data of the latest confirmed keyed write of its class in effect (R152). -/
def State.mismatch (s : State) (c p i n : Nat) (emb : List Nat) : Bool :=
  match s.ifeStream? c with
  | none => false
  | some e =>
    s.rd .ife IFP.EXT_CHECK p i = 1 && s.rd .ife IFP.EXT_LEN p i ≠ 0 &&
    (match (s.cam (s.cps CPS.PORT e)).confirmed.find? fun k =>
        k.cls = s.rd .ife IFP.EXT_CLASS p i ∧ k.effective ≤ n with
     | some k => beNat k.data ≠ s.extract p i emb
     | none => false)

/-- The last strip's acquisition beat and the sensor frame number of a frame's stream. -/
def State.frameFacts (s : State) (e n : Nat) : Nat × Nat :=
  let f := (s.run e).frame n
  ((f.log.map (·.beat)).foldl max 0, f.sensorFn)

/-- The statistics record of a frame (R151). -/
def State.statsRecord (s : State) (c n : Nat) (f : IfeFrame) (z : IfeResult) : State :=
  let facts := match s.ifeStream? c with | some e => s.frameFacts e n | none => (0, 0)
  let priv := if s.rd .ife IFX.PRIV c = 1 then s.privSlot c else none
  let emb := match priv with | some p => s.embedded (s.rd .ife IFP.EMB_ENTRY p) n | none => []
  let bad := match priv with
    | some p => emb ≠ [] && (List.range 16).any fun i => s.mismatch c p i n emb
    | none => false
  let x := s.ife c
  let late := x.lateAt n && !x.flags.testBit 1
  let flags := x.flags + 2 * b2n late + 16 * b2n (priv.isSome && emb = []) + 32 * b2n bad
  let tap := if s.rd .ife IFX.HIST_TAP c = 1 then z.balanced else z.blacked
  let head := leBytes 4 n ++ leBytes 2 facts.2 ++ leBytes 2 (field f.par 0 2) ++ leBytes 8 facts.1
    ++ leBytes 2 f.missing.length ++ leBytes 2 flags ++ leBytes 4 (f.saturated z.aligned) ++ zeros 40
  let tail := match priv with
    | some p => (List.range 16).flatMap (fun i => leBytes 4 (if emb = [] then 0 else s.extract p i emb)) ++ zeros 64
    | none => []
  let s1 := { s with vision := { s.vision with stats := ⟨c, n, head ++ f.statsBody tap ++ tail⟩ :: s.vision.stats } }
  let s2 := s1.raise .ife 0
  if bad then s2.raise .ife 4 else s2

/-- An output strip at its flag clock (R128): its rows become visible; the last strip ends the frame with its
reference and its statistics. -/
def State.ifeStrip (s : State) (c n r0 r1 : Nat) (last : Bool) (flow : Option (Nat × Nat)) : State :=
  let fr := s.ifeFrame c n
  let z := fr.1.pipeline (s.ifeDepth c) fr.2 (s.ifeRef c n fr.1 flow)
  let s1 := ((List.range (r1 - r0)).map (· + r0)).foldl (fun t r => t.putIfeRow c n r fr.1 z) s
  let miss := ((List.range (r1 - r0)).filter fun i => (i + r0) ∈ fr.1.missing).length
  let s2 := s1.count .ife IFX.CNT_ROW_MISS miss c
  if last then
    let s3 := s2.setIfe c { s2.ife c with refFrame := some n }
    let s4 : State := { s3 with vision := { s3.vision with complete := (ImageKey.ife c 3, n) :: s3.vision.complete } }
    if s.rd .ife IFX.STATS_EN c = 1 then s4.statsRecord c n fr.1 z else s4
  else s2

end Sys2Proof.Machine
end

