-- ==== Sys2Proof/Machine/WarpPixels.lean ====
section
/-! DEFINITION. The warp engine's arithmetic (R208–R216). -/

namespace Sys2Proof.Machine

/-- A warp context and the frame it works on. `bad`: mesh rows whose nodes could not be read (R216). -/
structure Warp where
  sw : Nat
  sh : Nat
  ow : Nat
  oh : Nat
  bicubic : Bool
  fill : Option Int
  vbound : Nat
  rowOff : Int
  inBits : Nat
  mesh : List Byte
  bad : List Nat
  src : Plane
  missing : List Nat

/-- Mesh columns, rows and the bytes of a mesh row (R208). -/
def meshCols (ow : Nat) : Nat := ceilDiv ow 16 + 1

/-- Bytes of a mesh row (R208). -/
def meshPitch (ow : Nat) : Nat := ceilDiv (8 * meshCols ow) 64 * 64

/-- Bytes of a mesh (R208). -/
def meshBytes (ow oh : Nat) : Nat := meshPitch ow * meshCols oh

/-- A node's word: its column half or its row half. -/
def Warp.word (t : Warp) (i j k : Nat) : Nat := field t.mesh (j * meshPitch t.ow + 8 * i + 4 * k) 4

/-- A node's coordinate (R208). -/
def Warp.node (t : Warp) (i j k : Nat) : Int := toInt 24 (t.word i j k)

/-- The first and last row offsets of the taps (R210, R211). -/
def Warp.taps (t : Warp) : Int × Int := if t.bicubic then (-1, 2) else (0, 1)

/-- A node keeps the bound (R208, R214). -/
def Warp.nodeOk (t : Warp) (i j : Nat) : Bool :=
  let ext (k : Nat) : Bool := toInt 24 (t.word i j k) = toInt 32 (t.word i j k)
  let iy := t.node i j 1 / 256
  let mid := 16 * (j : Int) + t.rowOff
  let row (d : Int) : Int := clampInt 0 ((t.sh : Int) - 1) (iy + d)
  ext 0 && ext 1 && decide (mid - t.vbound ≤ row t.taps.1) && decide (row t.taps.2 ≤ mid + t.vbound)

/-- The first node in storage order that fails (R215): its index j × MX + i. -/
def Warp.firstBad (t : Warp) : Option Nat :=
  (List.range (meshCols t.ow * meshCols t.oh)).find? fun n => !t.nodeOk (n % meshCols t.ow) (n / meshCols t.ow)

/-- The source point of an output pixel (R209). -/
def Warp.source (t : Warp) (y x k : Nat) : Int :=
  let i := x / 16
  let j := y / 16
  rnd (bilin 4 ((x % 16 : Nat) : Int) ((y % 16 : Nat) : Int) (t.node i j k) (t.node (i + 1) j k) (t.node i (j + 1) k)
    (t.node (i + 1) (j + 1) k)) 8

/-- A source sample (R212, R213): `dflt` stands for a tap on a missing row. -/
def Warp.tap (t : Warp) (dflt : Int) (y x : Int) : Int :=
  let r := hold t.sh y
  let out : Bool := y < 0 || (t.sh : Int) ≤ y || x < 0 || (t.sw : Int) ≤ x
  match t.fill with
  | some f => if out then f else if r ∈ t.missing then dflt else t.src.at r (hold t.sw x)
  | none => if r ∈ t.missing then dflt else t.src.at r (hold t.sw x)

/-- A bicubic weight (R211): tap −1, 0, 1, 2 at phase u of 64. -/
def cubic (u : Int) (a : Int) : Int :=
  if a = -1 then -u ^ 3 + 2 * 64 * u ^ 2 - 64 ^ 2 * u
  else if a = 0 then 3 * u ^ 3 - 5 * 64 * u ^ 2 + 2 * 64 ^ 3
  else if a = 1 then -3 * u ^ 3 + 4 * 64 * u ^ 2 + 64 ^ 2 * u
  else u ^ 3 - 64 * u ^ 2

/-- An output pixel (R209–R213). -/
def Warp.pixel (t : Warp) (y x : Nat) : Int :=
  let sx := t.source y x 0
  let sy := t.source y x 1
  let ix := sx / 256
  let iy := sy / 256
  let ax := sx % 256
  let ay := sy % 256
  let d := t.tap 0 iy ix
  let p (b a : Int) : Int := t.tap d (iy + b) (ix + a)
  if t.bicubic then
    let four : List Int := [-1, 0, 1, 2]
    clampInt 0 (2 ^ t.inBits - 1)
      (rnd (sumI (four.flatMap fun b => four.map fun a => cubic (ax / 4) a * cubic (ay / 4) b * p b a)) 38)
  else rnd (bilin 8 ax ay (p 0 0) (p 0 1) (p 1 0) (p 1 1)) 16

/-- An output row is missing (R213, R216). -/
def Warp.rowMissing (t : Warp) (y : Nat) : Bool :=
  let j := y / 16
  j ∈ t.bad || (j + 1) ∈ t.bad
    || (List.range (meshCols t.ow)).any (fun i => !t.nodeOk i j || !t.nodeOk i (j + 1))
    || (List.range t.ow).any (fun x => hold t.sh (t.source y x 1 / 256) ∈ t.missing)

/-- An output row: zeros when it is missing. -/
def Warp.row (t : Warp) (y : Nat) : List Nat :=
  (List.range t.ow).map fun x => if t.rowMissing y then 0 else (t.pixel y x).toNat

end Sys2Proof.Machine
end

