-- ==== Sys2Proof/Machine/Engines.lean ====
section
/-! DEFINITION. The vision engines' contexts at work (chapters 07–09): where a context's images come from, its
predictions and references, and what it makes visible at a strip's flag. -/

namespace Sys2Proof.Machine

/-! ### Geometry (R178, R206: a context whose source is not a task's reads its source) -/

/-- The size of what a source code names, pyramids apart; `own` under a task source. -/
def State.plainSize (s : State) (c code : Nat) (own : Nat × Nat) : Nat × Nat :=
  if code < 0x20 then (s.cps CPS.WIDTH code, s.cps CPS.HEIGHT code)
  else if code < 0x24 then (s.rd (.wpe c) WPX.OUT_WIDTH (code - 0x20), s.rd (.wpe c) WPX.OUT_HEIGHT (code - 0x20))
  else if 0x30 ≤ code ∧ code < 0x38 then s.ifeSize (code - 0x30)
  else own

/-- The level-0 size of a pyramid context. -/
def State.pyeSize (s : State) (c k : Nat) : Nat × Nat :=
  s.plainSize c (s.rd (.pye c) PYX.SRC k) (s.rd (.pye c) PYX.WIDTH k, s.rd (.pye c) PYX.HEIGHT k)

/-- The size of what a source code names. -/
def State.srcSize (s : State) (c code : Nat) (own : Nat × Nat) : Nat × Nat :=
  if 0x28 ≤ code ∧ code < 0x2C then s.pyeSize c (code - 0x28) else s.plainSize c code own

/-- The size of a stereo context. -/
def State.sgeSize (s : State) (c k : Nat) : Nat × Nat :=
  s.srcSize c (s.rd (.sge c) SGX.LEFT_SRC k) (s.rd (.sge c) SGX.WIDTH k, s.rd (.sge c) SGX.HEIGHT k)

/-- The level-0 size of a flow context. -/
def State.ofeSize (s : State) (c k : Nat) : Nat × Nat :=
  s.srcSize c (s.rd (.ofe c) OFX.SRC k) (s.rd (.ofe c) OFX.WIDTH k, s.rd (.ofe c) OFX.HEIGHT k)

/-- The size of a detection context. -/
def State.fpeSize (s : State) (c k : Nat) : Nat × Nat :=
  s.srcSize c (s.rd (.fpe c) FPX.SRC k) (s.rd (.fpe c) FPX.WIDTH k, s.rd (.fpe c) FPX.HEIGHT k)

/-- The source size of a warp context. -/
def State.wpeSize (s : State) (c k : Nat) : Nat × Nat :=
  s.srcSize c (s.rd (.wpe c) WPX.SRC k) (s.rd (.wpe c) WPX.SRC_WIDTH k, s.rd (.wpe c) WPX.SRC_HEIGHT k)

/-- The IN_BITS of the warp or pyramid context that a source code names (R206). -/
def State.srcBits (s : State) (c code : Nat) : Option Nat :=
  if 0x20 ≤ code ∧ code < 0x24 then some (s.rd (.wpe c) WPX.IN_BITS (code - 0x20))
  else if 0x28 ≤ code ∧ code < 0x2C then some (s.rd (.pye c) PYX.IN_BITS (code - 0x28))
  else none

/-- The cluster of a page of a vision engine. -/
def Page.clusterOf (p : Page) : Nat := (p.num - 0x100) / 0x20

/-! ### Sources (R155, R178, R206) -/

/-- Who runs an engine context: a node of a locked set, or of an open task. -/
inductive Runner where
  | set (gset node : Nat)
  | task (ctx node : Nat)

/-- The predictions declared for a runner's node. -/
def State.predOf (s : State) (r : Runner) : Option PredDesc :=
  match r with
  | .set g i => (s.setOf g).bind fun x => x.pkg.sec.predFor.find? (·.node = i)
  | .task c i => (s.task? c).bind fun t => t.settings.predFor.find? (·.node = i)

/-- An image in memory that a task names for an engine context's input. -/
def State.taskImage (s : State) (r : Runner) (p : Page) (ctx input : Nat) : Option TaskImage :=
  match r with
  | .set _ _ => none
  | .task c _ => (s.task? c).bind fun t => t.settings.images.find? fun i => i.page = p.num ∧ i.ctx = ctx ∧ i.input = input

/-- An image read from memory: rows of samples of 1 or 2 bytes. -/
def State.memImage (s : State) (i : TaskImage) (w h : Nat) : Plane :=
  (List.range h).map fun r => (List.range w).map fun c => ((s.loadNat (i.addr + r * i.pitch + c * i.bytes) i.bytes : Nat) : Int)

/-- The image a source code names, for a frame: its plane and its missing rows. -/
def State.srcImage (s : State) (r : Runner) (p : Page) (ctx input code n w h : Nat) : Plane × List Nat :=
  let c := (p.num - 0x100) / 0x20
  if code < 0x20 then s.image (.stream code) n h
  else if code < 0x24 then s.image (.engine (Page.wpe c).num (code - 0x20) 0) n h
  else if 0x28 ≤ code ∧ code < 0x2C then s.image (.engine (Page.pye c).num (code - 0x28) input) n h
  else if 0x30 ≤ code ∧ code < 0x38 then s.image (.ife (code - 0x30) 3) n h
  else match s.taskImage r p ctx input with
    | some i => (s.memImage i w h, [])
    | none => ([], List.range h)

/-- A plane brought to 12 bits. -/
def Plane.to12 (p : Plane) (inBits : Nat) : Plane := p.map fun l => l.map (Machine.to12 inBits)

/-- The decision taken before the first strip of a frame (R162, R179, R182): present unless recorded otherwise. -/
def State.inputPresent (s : State) (p : Page) (ctx n : Nat) : Bool :=
  match s.vision.inputs.find? fun x => x.page = p.num ∧ x.ctx = ctx ∧ x.frame = n with
  | some x => x.present
  | none => true

/-- The image that the producer of a prediction made visible, when it is an engine. -/
def State.producerKey (s : State) (r : Runner) (i : Nat) : Option ImageKey :=
  match r with
  | .set g _ => (s.setOf g).bind fun x => (x.pkg.node? i).bind fun d =>
      let u := ((x.pkg.entry? x.entry).map fun e => e.units.getD i 0xFF).getD 0xFF
      match d.cls with
      | .sge => some (.engine (Page.sge (u / 4)).num d.engineCtx 0)
      | .ofe => some (.engine (Page.ofe (u / 4)).num d.engineCtx 0)
      | .tensor => some (.node g i)
      | .fpeDetect | .fpeMatch | .wpe | .pye | .ife | .recordWrite | .cameraControl => none
  | .task _ _ => none

/-- The words of a prediction field: the producer engine's rows, or memory at the declared address. -/
def State.predWords (s : State) (r : Runner) (d : PredDesc) (n bytes w h : Nat) : Plane :=
  match s.producerKey r d.producer with
  | some (.engine p c o) => (s.image (.engine p c o) (n - d.back) h).1
  | _ =>
    let pitch := ceilDiv (bytes * w) 64 * 64
    (List.range h).map fun y => (List.range w).map fun x => ((s.loadNat (d.addr + y * pitch + x * bytes) bytes : Nat) : Int)

/-! ### Stereo (chapter 07) -/

/-- Predictions of the blocks of a frame (R160), UQ12.4. -/
def State.sgePred (s : State) (r : Runner) (p : Page) (c n : Nat) : Plane :=
  let g (f : RField) : Nat := s.rd p f c
  let sz := s.sgeSize p.clusterOf c
  let w := ceilDiv sz.1 4
  let h := ceilDiv sz.2 4
  let dflt : Int := g SGX.PRED_DEFAULT
  let mode := g SGX.PRED_MODE
  if mode = 1 then
    tab h w fun y x => min 0xFFFE (max 0 ((g SGX.PLANE_A : Int)
      + rnd (toInt 16 (g SGX.PLANE_BX) * x + toInt 16 (g SGX.PLANE_BY) * y) 8))
  else if mode = 3 ∨ !s.inputPresent p c n then tab h w fun _ _ => dflt
  else match s.predOf r with
    | none => tab h w fun _ _ => dflt
    | some d =>
      let f := s.predWords r d n (if mode = 0 then 2 else 4) w h
      if mode = 0 then tab h w fun y x => if f.at y x = 0xFFFF then dflt else f.at y x
      else tab h w fun y x =>
        let v := (f.at y x).toNat
        if bits v 31 28 ≠ 0 then dflt else min 0xFFFE (rnd (bits v 23 0 : Nat) 2)

/-- A stereo context's frame (R155–R170). -/
def State.sgeFrame (s : State) (r : Runner) (p : Page) (c n : Nat) : Stereo :=
  let g (f : RField) : Nat := s.rd p f c
  let w := (s.sgeSize p.clusterOf c).1
  let h := (s.sgeSize p.clusterOf c).2
  let l := losing (s.lostOf p c 0 n) (s.srcImage r p c 0 (g SGX.LEFT_SRC) n w h)
  let q := losing (s.lostOf p c 1 n) (s.srcImage r p c 1 (g SGX.RIGHT_SRC) n w h)
  { w := w, h := h, win := 32 * 2 ^ g SGX.WIN, lrEn := g SGX.LR_EN = 1, fit := g SGX.FIT_MODE, p1 := g SGX.P1
    p2Max := g SGX.P2_MAX, p2Edge := g SGX.P2_EDGE, cwCen := g SGX.CW_CEN, cwAd := g SGX.CW_AD
    adTrunc := g SGX.AD_TRUNC, uniq := g SGX.UNIQ, flatT := g SGX.FLAT_T, lrTol := g SGX.LR_TOL
    satLevel := g SGX.SAT_LEVEL
    bc := (List.range 64).map fun i => toInt 8 (bits (s.rd p SGX.BC c (i / 4)) (8 * (i % 4) + 7) (8 * (i % 4)))
    pred := s.sgePred r p c n, left := l.1.to12 (g SGX.IN_BITS), right := q.1.to12 (g SGX.IN_BITS)
    leftMissing := l.2, rightMissing := q.2, lostPaths := s.lostOf p c 2 n }

/-- Rows put one after another. -/
def State.putRows (s : State) (k : ImageKey) (n : Nat) (l : List (Nat × List Nat × Bool)) : State :=
  l.foldl (fun s x => s.putRow k n x.1 x.2.1 x.2.2) s

/-- Rows `r0` to `r1 - 1`. -/
def rowRange (r0 r1 : Nat) : List Nat := (List.range (r1 - r0)).map (· + r0)

/-- An image is complete for a frame. -/
def State.completeImage (s : State) (k : ImageKey) (n : Nat) : State :=
  { s with vision := { s.vision with complete := setInsert (k, n) s.vision.complete } }

/-- A stereo strip at its flag (R168–R170, R173). -/
def State.sgeStrip (s : State) (r : Runner) (p : Page) (c n r0 r1 : Nat) (last : Bool) : State :=
  let f := s.sgeFrame r p c n
  let out := f.frame (s.rd p SGX.CEXP c)
  let row (i : Nat) : StereoOut := out.getD i ⟨[], [], []⟩
  let rows := rowRange r0 (min r1 f.h)
  let s1 := s.putRows (.engine p.num c 0) n (rows.map fun i => (i, (row i).left.map Disp.word, false))
  let s2 := if s.rd p SGX.RIGHT_EN c = 1 then
      s1.putRows (.engine p.num c 1) n (rows.map fun i => (i, (row i).right.map Disp.word, false)) else s1
  let s3 := if s.rd p SGX.CEXP c ≠ 0 then
      s2.putRows (.engine p.num c 2) n (rows.map fun i => (i, (row i).curves, false)) else s2
  if !last then s3
  else
    let st := out.flatMap fun x => x.left.map (·.status)
    let s4 := (List.range 7).foldl (fun s k => s.wr p SGX.N_STATUS (st.filter (· = k)).length c k) s3
    ((s4.wr p SGX.FRAME_IDX n c).raise p 0).completeImage (.engine p.num c 0) n

/-! ### Flow (chapter 08) -/

/-- One level of a pyramid source: plane brought to 12 bits, missing rows. -/
def State.flowLevelImage (s : State) (r : Runner) (p : Page) (c code lev n w h inBits base : Nat) : Plane × List Nat :=
  let x := if code = 0x3F then
      (match s.taskImage r p c (base + lev) with | some i => (s.memImage i w h, []) | none => ([], List.range h))
    else s.srcImage r p c lev code n w h
  (x.1.to12 inBits, x.2)

/-- A flow context's frame (R178–R183). -/
def State.ofeFrame (s : State) (r : Runner) (p : Page) (c n : Nat) : Flow :=
  let g (f : RField) : Nat := s.rd p f c
  let ref := n - g OFX.REF_DIST
  let sz := s.ofeSize p.clusterOf c
  let lev (l : Nat) : FlowLevel :=
    let w := ceilDiv sz.1 (2 ^ l)
    let h := ceilDiv sz.2 (2 ^ l)
    let a := losing (s.lostOf p c l n) (s.flowLevelImage r p c (g OFX.SRC) l n w h (g OFX.IN_BITS) 0)
    let b := losing (s.lostOf p c (8 + l) n) (s.flowLevelImage r p c (g OFX.SRC) l ref w h (g OFX.IN_BITS) 8)
    ⟨w, h, a.1, b.1, a.2, b.2⟩
  let out := g OFX.LEV_OUT
  let nx := ceilDiv (ceilDiv sz.1 (2 ^ out)) 8
  let ny := ceilDiv (ceilDiv sz.2 (2 ^ out)) 8
  let fieldOk : Bool := g OFX.PRED_MODE = 2 && s.inputPresent p c n
  { levels := (List.range (g OFX.LEV_TOP + 1)).map lev, top := g OFX.LEV_TOP, out := out
    mode := if g OFX.PRED_MODE = 2 && !fieldOk then 1 else g OFX.PRED_MODE
    predX := toInt 24 (g OFX.PRED_DX), predY := toInt 24 (g OFX.PRED_DY)
    field := if fieldOk then (match s.predOf r with | some d => s.predWords r d n 8 nx ny | none => []) else []
    trunc := g OFX.TRUNC, lambda := g OFX.LAMBDA, flatT := g OFX.FLAT_T, uniq := g OFX.UNIQ, satCnt := g OFX.SAT_CNT
    satLevel := g OFX.SAT_LEVEL, noRef := !s.inputPresent p (c + 16) n }

/-- A flow strip at its flag (R186, R190). -/
def State.ofeStrip (s : State) (r : Runner) (p : Page) (c n sh k : Nat) (last : Bool) : State :=
  let f := s.ofeFrame r p c n
  let out := f.frame
  let rows := flowStripRows f.out sh (s.ofeSize p.clusterOf c).2 k
  let s1 := s.putRows (.engine p.num c 0) n (rows.map fun i => (i, (out.getD i []).map FlowBlock.word, false))
  if !last then s1
  else
    let st := out.flatMap fun x => x.flatMap fun b => [b.statX, b.statY]
    let s2 := (List.range 7).foldl (fun s k => s.wr p OFX.N_STATUS (st.filter (· = k)).length c k) s1
    ((s2.wr p OFX.FRAME_IDX n c).raise p 0).completeImage (.engine p.num c 0) n

/-! ### Features (chapter 08) -/

/-- A detection context's frame (R192–R197). -/
def State.fpeFrame (s : State) (r : Runner) (p : Page) (c n : Nat) : Detect :=
  let g (f : RField) : Nat := s.rd p f c
  let sz := s.fpeSize p.clusterOf c
  let img := losing (s.lostOf p c 0 n) (s.srcImage r p c 0 (g FPX.SRC) n sz.1 sz.2)
  { w := sz.1, h := sz.2, nArc := g FPX.N_ARC, nmsR := g FPX.NMS_R, cell := 32 * 2 ^ g FPX.CELL_SIZE
    ft := g FPX.FT, hk := g FPX.HK, scoreMin := g FPX.SCORE_MIN, quota := g FPX.CELL_QUOTA, maxFeat := g FPX.MAX_FEAT
    img := img.1.to12 (g FPX.IN_BITS), missing := img.2 }

/-- A feature list at its flag (R196, R197, R202). -/
def State.fpeList (s : State) (r : Runner) (p : Page) (c n acq : Nat) : State :=
  let l := (s.fpeFrame r p c n).list n acq
  let s1 := s.putRow (.engine p.num c 0) n 0 (l.bytes.map (·.toNat)) false
  let s2 := ((s1.wr p FPX.N_FEAT l.entries c).wr p FPX.OVERFLOW (b2n l.overflow) c).wr p FPX.FRAME_IDX n c
  let s3 := if l.overflow then (s2.raise p 2).count p FPX.CNT_OVERFLOW 1 c else s2
  (s3.raise p 0).completeImage (.engine p.num c 0) n

/-- A list that a match job reads: a detection context's of a frame, or a task's in memory. -/
def State.listBytes (s : State) (r : Runner) (p : Page) (input ctx n : Nat) : List Byte :=
  match r with
  | .set _ _ => ((s.image (.engine p.num ctx 0) n 1).1.getD 0 []).map fun v => BitVec.ofInt 8 v
  | .task _ _ => match s.taskImage r p 2 input with
    | some i => s.load i.addr (64 + 64 * s.loadNat (i.addr + 4) 4)
    | none => zeros 64

/-- A match job at its flag (R198–R200, R202). -/
def State.fpeMatch (s : State) (r : Runner) (p : Page) (n : Nat) : State :=
  let m : Option MatchDesc := match r with
    | .set g i => (s.setOf g).bind fun x => x.pkg.sec.matches_.find? (·.node = i)
    | .task _ _ => none
  let a := s.listBytes r p 0 ((m.map (·.ctxA)).getD 0) (n - (m.map (·.backA)).getD 0)
  let b := s.listBytes r p 1 ((m.map (·.ctxB)).getD 0) (n - (m.map (·.backB)).getD 0)
  let g (f : RField) : Nat := s.rd p f
  let sz := s.fpeSize p.clusterOf ((m.map (·.ctxA)).getD 0)
  let w := ceilDiv sz.1 8
  let h := ceilDiv sz.2 8
  let pred := if g FPE.M_PRED = 2 then s.predOf r else none
  let ok : Bool := pred.isSome && s.inputPresent p 2 n
  let t : Match := { mr := g FPE.MR, maxDist := g FPE.MAX_DIST, ratio := g FPE.RATIO, cross := g FPE.CROSS = 1
                     mode := g FPE.M_PRED, predX := toInt 24 (g FPE.M_PRED_DX), predY := toInt 24 (g FPE.M_PRED_DY)
                     flow := if ok then (match pred with | some d => s.predWords r d n 8 w h | none => []) else []
                     fallback := g FPE.M_PRED = 2 && !ok, a := a, b := b }
  ((s.putRow (.engine p.num 2 0) n 0 (t.output.map (·.toNat)) false).raise p 1).completeImage (.engine p.num 2 0) n

/-! ### Warp and pyramid (chapter 09) -/

/-- A warp context's frame (R206–R216). -/
def State.wpeFrame (s : State) (r : Runner) (p : Page) (c n : Nat) : Warp :=
  let g (f : RField) : Nat := s.rd p f c
  let a := g WPX.MESH_ADDR_LO + 2 ^ 32 * g WPX.MESH_ADDR_HI
  let img := losing (s.lostOf p c 0 n) (s.srcImage r p c 0 (g WPX.SRC) n (s.wpeSize p.clusterOf c).1 (s.wpeSize p.clusterOf c).2)
  let ow := g WPX.OUT_WIDTH
  let oh := g WPX.OUT_HEIGHT
  { sw := (s.wpeSize p.clusterOf c).1, sh := (s.wpeSize p.clusterOf c).2, ow := ow, oh := oh, bicubic := g WPX.INTERP = 1
    fill := if g WPX.OOB_MODE = 1 then some (g WPX.FILL : Int) else none, vbound := 8 * 2 ^ g WPX.VBOUND
    rowOff := toInt 10 (g WPX.ROW_OFF), inBits := g WPX.IN_BITS, mesh := s.load a (meshBytes ow oh)
    bad := (List.range (meshCols oh)).filter fun j => (s.badIn [(a + j * meshPitch ow, meshPitch ow)]).isSome
    src := img.1, missing := img.2 }

/-- A warp strip at its flag (R219); answers the fault of a mesh error that touched it (R216). -/
def State.wpeStrip (s : State) (r : Runner) (p : Page) (c n r0 r1 : Nat) (last : Bool) : State × Option Nat :=
  let f := s.wpeFrame r p c n
  let rows := rowRange r0 (min r1 f.oh)
  let near (y : Nat) : List Nat := [y / 16, y / 16 + 1]
  let unread : Bool := rows.any fun y => (near y).any (· ∈ f.bad)
  let broken : Bool := rows.any fun y => (near y).any fun j => (List.range (meshCols f.ow)).any fun i => !f.nodeOk i j
  let s1 := s.putRows (.engine p.num c 0) n (rows.map fun y => (y, f.row y, f.rowMissing y))
  let s2 := s1.count p WPX.CNT_ROW_MISS (rows.filter f.rowMissing).length c
  let s3 := if unread then s2.fault p 0x10A1 else s2
  let s4 := if broken then (s3.fault p 0x30A1).raise p 1 else s3
  (if last then ((s4.wr p WPX.FRAME_IDX n c).raise p 0).completeImage (.engine p.num c 0) n else s4,
   if unread then some 0x10A1 else if broken then some 0x30A1 else none)

/-- A pyramid strip at its flag (R220–R226): Gaussian levels as outputs 0 to TOP, Laplacian levels as outputs 8 on. -/
def State.pyeStrip (s : State) (r : Runner) (p : Page) (c n sh k : Nat) (last : Bool) : State :=
  let g (f : RField) : Nat := s.rd p f c
  let sz := s.pyeSize p.clusterOf c
  let img := s.srcImage r p c 0 (g PYX.SRC) n sz.1 sz.2
  let lv := Level.pyramid (fun l => s.lostOf p c l n) 0 ⟨sz.1, sz.2, img.1, img.2⟩ (g PYX.TOP)
  let wide : Bool := g PYX.LAP_FMT = 1
  let laps := (lv.zip (lv.drop 1)).map fun x => x.1.laplacian x.2 wide
  let putLevel (s : State) (out l : Nat) (v : Level) (w : Nat) : State :=
    let b := levelStripRows l sh k
    let rows := rowRange b.1 (min b.2 v.h)
    let s1 := s.putRows (.engine p.num c out) n (rows.map fun i => (i, (v.p.getD i []).map (ofInt w ·), i ∈ v.missing))
    s1.count p PYX.CNT_ROW_MISS (rows.filter (· ∈ v.missing)).length c
  let s1 := (lv.zip (List.range lv.length)).foldl (fun s x => putLevel s x.2 x.2 x.1 16) s
  let s2 := if g PYX.LAP_EN = 1 then
      (laps.zip (List.range laps.length)).foldl (fun s x => putLevel s (8 + x.2) x.2 x.1 (if wide then 32 else 16)) s1
    else s1
  if !last then s2
  else
    let s3 := (s2.wr p PYX.FRAME_IDX n c).wr p PYX.LEV_DONE (2 ^ lv.length - 1) c
    (s3.raise p 0).completeImage (.engine p.num c 0) n

/-! ### Before the first strip of a frame (R138, R162, R179, R182) -/

/-- A decision recorded. -/
def State.noteInput (s : State) (p : Page) (ctx n : Nat) (ok : Bool) : State :=
  let keep := s.vision.inputs.filter fun x => !(x.page = p.num ∧ x.ctx = ctx ∧ x.frame = n)
  { s with vision := { s.vision with inputs := ⟨p.num, ctx, n, ok⟩ :: keep } }

/-- The prediction of a runner's node is flagged complete for a frame. -/
def State.predComplete (s : State) (r : Runner) (n : Nat) : Bool :=
  match s.predOf r with
  | none => false
  | some d => match r with
    | .task _ _ => true
    | .set _ _ => match s.producerKey r d.producer with
      | some k => d.back ≤ n && decide ((k, n - d.back) ∈ s.vision.complete)
      | none => false

/-- The stereo engine's check (R162). -/
def State.sgeCheck (s : State) (r : Runner) (p : Page) (c n : Nat) (locked : Bool) : State :=
  let mode := s.rd p SGX.PRED_MODE c
  let ok : Bool := mode = 1 || mode = 3 || s.predComplete r n
  let s1 := (s.noteInput p c n ok).wr p SGX.PRED_FALLBACK (b2n !ok) c
  if ok then s1
  else
    let s2 := (s1.count p SGX.CNT_PRED_FALLBACK 1 c).raise p 1
    if locked then s2.fault p 0x3071 else s2

/-- The flow engine's checks (R179, R182): reference and field. -/
def State.ofeCheck (s : State) (r : Runner) (p : Page) (c n : Nat) (locked : Bool) : State :=
  let cl := p.clusterOf
  let d := s.rd p OFX.REF_DIST c
  let src := s.rd p OFX.SRC c
  let ref : Bool := src = 0x3F || (d ≤ n && decide ((ImageKey.engine (Page.pye cl).num (src - 0x28) 0, n - d) ∈ s.vision.complete))
  let ok : Bool := s.rd p OFX.PRED_MODE c ≠ 2 || s.predComplete r n
  let s1 := ((s.noteInput p (c + 16) n ref).wr p OFX.REF_MISSING (b2n !ref) c)
  let s2 := if ref then s1 else s1.raise p 3
  let s3 := (s2.noteInput p c n ok).wr p OFX.PRED_FALLBACK (b2n !ok) c
  if ok then s3
  else
    let s4 := (s3.count p OFX.CNT_PRED_FALLBACK 1 c).raise p 1
    if locked then s4.fault p 0x3081 else s4

/-- The matcher's check of its field (chapter 08, R198). -/
def State.matchCheck (s : State) (r : Runner) (p : Page) (n : Nat) (locked : Bool) : State :=
  let ok : Bool := s.rd p FPE.M_PRED ≠ 2 || s.predComplete r n
  let s1 := s.noteInput p 2 n ok
  if !ok && locked then s1.fault p 0x3093 else s1

/-- The engine page of a node on a cluster. -/
def NodeDesc.page (d : NodeDesc) (c : Nat) : Option Page :=
  match d.cls with
  | .sge => some (.sge c)
  | .ofe => some (.ofe c)
  | .fpeDetect | .fpeMatch => some (.fpe c)
  | .wpe => some (.wpe c)
  | .pye => some (.pye c)
  | .tensor | .ife | .recordWrite | .cameraControl => none

/-- The checks of an engine node before the first strip of a frame. -/
def State.engineCheck (s : State) (r : Runner) (d : NodeDesc) (c n : Nat) (locked : Bool) : State :=
  match d.page c with
  | none => s
  | some p =>
    if d.cls = .sge then s.sgeCheck r p d.engineCtx n locked
    else if d.cls = .ofe then s.ofeCheck r p d.engineCtx n locked
    else if d.cls = .fpeMatch then s.matchCheck r p n locked
    else s

/-- What an engine node makes visible for strip `k` of frame `n` (height `sh`); answers the fault of an error of
its own that touched it (R216). `acq`: the frame's acquisition beat. -/
def State.engineStrip (s : State) (r : Runner) (d : NodeDesc) (c n k sh : Nat) (last : Bool) (acq : Nat)
    (flow : Option (Nat × Nat)) : State × Option Nat :=
  let r0 := k * sh
  let r1 := (k + 1) * sh
  match d.cls, d.page c with
  | .sge, some p => (s.sgeStrip r p d.engineCtx n r0 r1 last, none)
  | .ofe, some p => (s.ofeStrip r p d.engineCtx n sh k last, none)
  | .fpeDetect, some p => (s.fpeList r p d.engineCtx n acq, none)
  | .fpeMatch, some p => (s.fpeMatch r p n, none)
  | .wpe, some p => s.wpeStrip r p d.engineCtx n r0 r1 last
  | .pye, some p => (s.pyeStrip r p d.engineCtx n sh k last, none)
  | .ife, _ => (s.ifeStrip d.engineCtx n r0 (min r1 (s.ifeSize d.engineCtx).2) last flow, none)
  | _, _ => (s, none)

/-- The height of what an engine node works on, for a whole frame at once. -/
def State.engineHeight (s : State) (d : NodeDesc) (c : Nat) : Nat :=
  match d.cls with
  | .sge => (s.sgeSize c d.engineCtx).2
  | .ofe => (s.ofeSize c d.engineCtx).2
  | .wpe => s.rd (.wpe c) WPX.OUT_HEIGHT d.engineCtx
  | .pye => (s.pyeSize c d.engineCtx).2
  | .ife => (s.ifeSize d.engineCtx).2
  | .tensor | .fpeDetect | .fpeMatch | .recordWrite | .cameraControl => 1

/-! ### Digests of engine runs (R387) -/

/-- Bytes of a value in an image. -/
def State.valueBytes (s : State) (k : ImageKey) : Nat :=
  match k with
  | .engine g c o => match pageAt g with
    | some (.sge x) => if o < 2 then 4 else if s.rd (.sge x) SGX.CEXP c = 1 then 2 else 1
    | some (.ofe _) => 8
    | some (.fpe _) => 1
    | some (.pye x) => if 8 ≤ o ∧ s.rd (.pye x) PYX.LAP_FMT c = 1 then 4 else 2
    | _ => 2
  | .ife c o => if o = 0 then 1 else if o < 3 then 1 + s.rd .ife IFX.CODE_FMT c else 2
  | .stream _ | .node _ _ => 2

/-- The output of a key, if it belongs to a node of a class on a cluster: the front end's reference is none. -/
def NodeDesc.outputOf (d : NodeDesc) (c : Nat) (k : ImageKey) : Option Nat :=
  match k with
  | .engine g x o =>
    let ctx := if d.cls = .fpeMatch then 2 else d.engineCtx
    if (d.page c).map (·.num) = some g ∧ x = ctx then some o else none
  | .ife x o => if d.cls = .ife ∧ x = d.engineCtx ∧ o < 8 then some o else none
  | .stream _ | .node _ _ => none

/-- What a run made visible between two states, in the order in which it enters the digest: outputs in order, each by
rows, then statistics. -/
def State.newOutput (s before : State) (d : NodeDesc) (c : Nat) : List Byte :=
  let fresh := s.vision.rows.filter fun r => (d.outputOf c r.key).isSome && !(r ∈ before.vision.rows)
  let le (a b : ImgRow) : Bool :=
    let x := (d.outputOf c a.key).getD 0
    let y := (d.outputOf c b.key).getD 0
    x < y || (x = y && a.row ≤ b.row)
  let sorted := fresh.foldl (fun l r => orderedInsert le r l) []
  let stats := if s.vision.stats.length = before.vision.stats.length then []
    else match s.vision.stats with | r :: _ => if d.cls = .ife then r.bytes else [] | [] => []
  sorted.flatMap (fun r => r.data.flatMap (leBytes (s.valueBytes r.key) ·)) ++ stats

/-! ### Line memory (chapter 06; R174, R191, R203, R218, R225) -/

/-- The fault of an uncorrectable line-memory error, by engine. -/
def lineCode : NodeClass → Nat
  | .ife => 0x1060
  | .sge => 0x1070
  | .ofe => 0x1080
  | .fpeDetect | .fpeMatch => 0x1090
  | .wpe => 0x10A0
  | .pye => 0x10B0
  | .tensor | .recordWrite | .cameraControl => 0

/-- Words corrected, counted on the engine's page. -/
def State.lineCorrected (s : State) (d : NodeDesc) (c words : Nat) : State :=
  match d.cls, d.page c with
  | .ife, _ => s.count .ife IFE.CNT_LINEMEM_CORR words
  | .sge, some p => s.count p SGE.CNT_LINEMEM_CORR words
  | .ofe, some p => s.count p OFE.CNT_LINEMEM_CORR words
  | .fpeDetect, some p | .fpeMatch, some p => s.count p FPE.CNT_LINEMEM_CORR words
  | .wpe, some p => s.count p WPE.CNT_LINEMEM_CORR words
  | .pye, some p => s.count p PYE.CNT_LINEMEM_CORR words
  | _, _ => s

/-- An uncorrectable error counted, with its event, where the engine's page has them. -/
def State.lineUncorr (s : State) (d : NodeDesc) (c : Nat) : State :=
  match d.cls, d.page c with
  | .sge, some p => (s.count p SGE.CNT_LINEMEM_UNCORR).raise p 2
  | .ofe, some p => (s.count p OFE.CNT_LINEMEM_UNCORR).raise p 2
  | .fpeDetect, some p | .fpeMatch, some p => (s.count p FPE.CNT_LINEMEM_UNCORR).raise p 3
  | .wpe, some p => (s.count p WPE.CNT_LINEMEM_UNCORR).raise p 2
  | .pye, some p => (s.count p PYE.CNT_LINEMEM_UNCORR).raise p 1
  | _, _ => s

/-- What line memory brings to a run on frame `n` before its results are formed: the row lost, the fault reported. -/
def State.lineCheck (s : State) (d : NodeDesc) (c n : Nat) (x : LineCheck) : State × Option Nat :=
  match x with
  | .clean => (s, none)
  | .corrected w => (s.lineCorrected d c w, none)
  | .uncorrectable i row =>
    let p : Page := (d.page c).getD .ife
    let l : LostRow := ⟨p.num, d.engineCtx, i, n, row⟩
    let s1 : State := { s with vision := { s.vision with lostRows := l :: s.vision.lostRows } }
    ((s1.lineUncorr d c).fault p (lineCode d.cls), some (lineCode d.cls))

/-- The first of two faults. -/
def firstFault (a b : Option Nat) : Option Nat := match a with | some _ => a | none => b

/-- NODE_COMPLETE (R244): an open node whose last command has ended completes; a node of an engine works on a whole
frame, the latest of its source, and a fault of its own aborts its task (R247). -/
def execNodeComplete (u : Fin 24) (slot : Nat) (line : LineCheck) (s : State) : Result :=
  .next (match s.slotNode u.val slot with
    | none => s
    | some n => match s.nodeOf n with
      | none => s
      | some d =>
        if n.locked ∨ (d.cls = .tensor ∧ !n.finished) then s
        else
          let r := Runner.task n.ctx n.node
          let c := u.val / 4
          let frame := ((s.vision.streams.filter (·.task = some n.ctx)).map (·.nextFrame - 1)).foldl max 0
          if d.cls = .tensor then s.openDone u.val n d
          else if s.readsPoisoned u.val d then s.taskFault (.cmem c) 0x3046 n.ctx u.val n.node []
          else if (s.ringBlocked u.val n.ctx d).isSome then s
          else
            let l := (s.engineCheck r d c frame false).lineCheck d c frame line
            let y := l.1.engineStrip r d c frame 0 (l.1.engineHeight d c) true 0 none
            match firstFault l.2 y.2 with
            | some code => y.1.abortTask n.ctx code (some u.val) n.node
            | none => y.1.openDone u.val { n with digest := n.digest.add (y.1.newOutput s d c) } d)

end Sys2Proof.Machine
end

