-- ==== Sys2Proof/Machine/Commit.lean ====
section
/-! DEFINITION. Which register fields are in locked use, and what a commit checks and does (R466, R467). The rules of a
page are functions of the state that the shadows would give, so that a load checks a set by the same rules. -/

namespace Sys2Proof.Machine

/-! ### Locked use -/

/-- A node of a set in an entry runs on cluster `c`. -/
def Package.onCluster (p : Package) (e i c : Nat) : Bool :=
  match p.entry? e with
  | some pl => (pl.units.getD i 0xFF) / 4 = c
  | none => false

/-- A set uses context `k` of an engine page (the matcher is context 2 of its page). -/
def Package.usesCtx (p : Package) (e : Nat) (pg : Page) (k : Nat) : Bool :=
  p.nodes.any fun d => d.page pg.clusterOf = some pg && (if d.cls = .fpeMatch then k = 2 else d.engineCtx = k)
    && p.onCluster e d.index pg.clusterOf

/-- A context of an engine page is in locked use: the running or draining set names it (R125, R155). -/
def State.ctxLocked (s : State) (pg : Page) (k : Nat) : Bool :=
  s.lockedSets.any (fun x => x.1.usesCtx x.2 pg k)
    || s.liveSets.any fun r => (match r.oldEntry with | some (e, _) => r.pkg.usesCtx e pg k | none => false)

/-- A CPX entry is named by the running or draining set (R112). -/
def State.entryLocked (s : State) (e : Nat) : Bool := s.lockedSets.any fun x => x.1.sec.streams.any (·.entry = e)

/-- A stream channel serves a locked node (R379). -/
def State.chanLocked (s : State) (u n : Nat) : Bool := (s.chan u n).node.isSome

/-- A scratchpad segment belongs to a held set (R349). -/
def State.spmLocked (s : State) (u g : Nat) : Bool := s.heldPlacements.any fun p => (u, g) ∈ p.spmSegs

/-- A region of the directory belongs to the running set (R320). -/
def State.regionLocked (s : State) (r : Nat) : Bool := s.rd .bod BODR.LOCKED r = 1

/-- The bits of a field's copy that no role may write for locked use. -/
def State.lockedBits (s : State) (p : Page) (f : RField) (i : Nat) : Nat :=
  let all (b : Bool) : Nat := if b then 2 ^ f.width - 1 else 0
  match p with
  | .cpx => if f.n1 = 32 then all (s.entryLocked i) else if f.n1 = 12 then all (s.camLocked i) else 0
  | .ife => if f.n1 = 8 then all (s.ifeLocked i) else if f.n1 = 4 then all (s.ifeLocked (s.rd .ife IFP.CTX i)) else 0
  | .sge _ | .ofe _ | .wpe _ | .pye _ => if 1 < f.n1 then all (s.ctxLocked p i) else 0
  | .fpe _ =>
    if 1 < f.n1 then all (s.ctxLocked p i) else if f.acc = .rws then all (s.ctxLocked p 2) else 0
  | .str u => if f.n1 = 8 then all (s.chanLocked u i) else 0
  | .spm u =>
    if f = SPM.PROT then ofBits 32 (s.spmLocked u ·)
    else if f.n1 = 16 then all (s.ringLocked ⟨false, u, i⟩) else 0
  | .cmem c =>
    if f = CMEM.PROT_LO then ofBits 32 (s.lockedCmem c ·)
    else if f = CMEM.PROT_HI then ofBits 32 (fun k => s.lockedCmem c (k + 32))
    else if f.n1 = 64 then all (s.ringLocked ⟨true, c, i⟩) else 0
  | .bod => if f.n1 = 64 then all (s.regionLocked i) else 0
  | .dev | .clk | .pdc | .rstc | .lcs | .opl | .pmc | .pln | .ccp | .agm | .rsp | .hlk _ | .mc | .mmu | .mcg _ | .amt
  | .dig | .mgc | .clu _ | .tc _ | .vis _ | .eng _ _ => 0

/-- A page holds state of the running set or the Maquette (R463, BLK_STAT.LOCKED_USE). -/
def State.pageLocked (s : State) (p : Page) : Bool :=
  let held : Bool := s.heldSets ≠ []
  let names (pg : Page) : Bool := (List.range 4).any fun k =>
    s.heldSets.any (fun x => x.1.usesCtx x.2 pg k) || s.ctxLocked pg k
  match p with
  | .amt => held
  | .cpx => s.heldSets.any fun x => x.1.sec.streams ≠ []
  | .ife => s.heldSets.any fun x => x.1.nodes.any (·.cls = .ife)
  | .mc | .mcg _ | .mmu => s.heldSets.any fun x => x.1.sec.windows ≠ []
  | .bod => s.heldSets.any fun x => x.1.sec.bod.entries ≠ [] ∨ x.1.sec.bod.regions ≠ []
  | .dig => s.heldSets.any fun x => x.1.logged ≠ []
  | .clu c => s.heldPlacements.any fun q => q.cores.any (· / 4 = c)
  | .cmem c => s.heldPlacements.any fun q => q.cmemSegs.any (·.1 = c)
  | .tc u | .spm u | .eng u _ => s.lockedUnit u
  | .str u => (List.range 8).any (s.chanLocked u ·)
  | .vis c => s.lockedUnit (4 * c + 3)
  | .sge _ | .ofe _ | .fpe _ | .wpe _ | .pye _ => names p
  | .dev | .clk | .pdc | .rstc | .lcs | .opl | .pmc | .pln | .ccp | .agm | .rsp | .hlk _ | .mgc => false

/-! ### The state that the shadows would give -/

/-- Every register of a page as it would be with its shadows applied. -/
def State.withShadows (s : State) (p : Page) : State :=
  let put (r : RegFile) (f : RField) : RegFile :=
    (List.range f.n1).foldl (fun r i => (List.range f.n2).foldl (fun r j =>
      let v := regGet noShadow (f.key p i j) s.shadow
      if v = noShadow then r else regSet f.rst (f.key p i j) v r) r) r
  if s.shadow.any fun e => inPage p e.1 then
    { s with regs := (p.fields.filter (·.acc = .rws)).foldl put s.regs }
  else s

/-- A copy's shadow has been written. -/
def State.touched (s : State) (p : Page) (f : RField) (i j : Nat) : Bool :=
  regGet noShadow (f.key p i j) s.shadow ≠ noShadow

/-- Some shadow of entry `i` of an array of `n` entries has been written. -/
def State.touchedEntry (s : State) (p : Page) (n i : Nat) : Bool :=
  p.fields.any fun f => f.acc = .rws && f.n1 = n && (List.range f.n2).any fun j => s.touched p f i j

/-! ### Rules (each answers the failing checks: word index, REJECT_CODE) -/

/-- A check that fails when `bad`: the word of the field it names, its code. -/
def rule (bad : Bool) (code : Nat) (f : RField) (i : Nat := 0) (j : Nat := 0) : List (Nat × Nat) :=
  if bad then [((f.off + i * f.s1 + j * f.s2) / 4, code)] else []

/-- A width outside 64–8192 or odd, a height below a least one or above 16 383. -/
def sizeRules (sz : Nat × Nat) (hMin : Nat) (w h : RField) (k : Nat) : List (Nat × Nat) :=
  rule (sz.1 < 64 || 8192 < sz.1 || sz.1 % 2 = 1) 2 w k ++ rule (sz.2 < hMin || 16383 < sz.2) 2 h k

/-- A source code outside the ranges a page table allows. -/
def srcRule (ok : Nat → Bool) (code : Nat) (f : RField) (k : Nat) : List (Nat × Nat) := rule (!ok code) 2 f k

/-- Sources of warp contexts (R206). -/
def wpeSrc (c : Nat) : Bool := c < 0x20 || (0x30 ≤ c && c < 0x38) || c = 0x3F
/-- Sources of pyramid contexts (R206). -/
def pyeSrc (c : Nat) : Bool := wpeSrc c || (0x20 ≤ c && c < 0x24)
/-- Sources of stereo contexts (R177). -/
def sgeSrc (c : Nat) : Bool := c < 0x24 || c = 0x3F
/-- Sources of flow contexts (R204). -/
def ofeSrc (c : Nat) : Bool := (0x28 ≤ c && c < 0x2C) || c = 0x3F
/-- Sources of detection contexts (R205). -/
def fpeSrc (c : Nat) : Bool := sgeSrc c || (0x28 ≤ c && c < 0x2C)

/-- A consumer's IN_BITS differs from that of its warp or pyramid source (R206). -/
def State.bitsRule (s : State) (c code inBits : Nat) (f : RField) (k : Nat) : List (Nat × Nat) :=
  rule (match s.srcBits c code with | some b => b ≠ inBits | none => false) 1 f k

/-- R158 for a stereo context. -/
def State.sgeRules (s : State) (c k : Nat) : List (Nat × Nat) :=
  let g (f : RField) : Nat := s.rd (.sge c) f k
  let sz := s.sgeSize c k
  sizeRules sz 16 SGX.WIDTH SGX.HEIGHT k ++ rule (262144 < sz.1 * (32 * 2 ^ g SGX.WIN)) 1 SGX.WIN k
    ++ rule (g SGX.P2_MAX < g SGX.P1) 1 SGX.P1 k ++ srcRule sgeSrc (g SGX.LEFT_SRC) SGX.LEFT_SRC k
    ++ srcRule sgeSrc (g SGX.RIGHT_SRC) SGX.RIGHT_SRC k
    ++ s.bitsRule c (g SGX.LEFT_SRC) (g SGX.IN_BITS) SGX.IN_BITS k
    ++ s.bitsRule c (g SGX.RIGHT_SRC) (g SGX.IN_BITS) SGX.IN_BITS k

/-- R180 for a flow context. -/
def State.ofeRules (s : State) (c k : Nat) : List (Nat × Nat) :=
  let g (f : RField) : Nat := s.rd (.ofe c) f k
  let sz := s.ofeSize c k
  let top := 2 ^ g OFX.LEV_TOP
  sizeRules sz 16 OFX.WIDTH OFX.HEIGHT k ++ rule (g OFX.LEV_TOP < g OFX.LEV_OUT) 1 OFX.LEV_TOP k
    ++ rule (ceilDiv sz.1 top < 16 || ceilDiv sz.2 top < 16) 1 OFX.LEV_TOP k
    ++ srcRule ofeSrc (g OFX.SRC) OFX.SRC k ++ s.bitsRule c (g OFX.SRC) (g OFX.IN_BITS) OFX.IN_BITS k

/-- R205 for a detection context. -/
def State.fpeRules (s : State) (c k : Nat) : List (Nat × Nat) :=
  let g (f : RField) : Nat := s.rd (.fpe c) f k
  sizeRules (s.fpeSize c k) 32 FPX.WIDTH FPX.HEIGHT k ++ srcRule fpeSrc (g FPX.SRC) FPX.SRC k
    ++ s.bitsRule c (g FPX.SRC) (g FPX.IN_BITS) FPX.IN_BITS k

/-- The first node of a warp context's mesh that breaks the bound (R214, R215). -/
def State.meshBad (s : State) (c k : Nat) : Option Nat := (s.wpeFrame (.task 0 0) (.wpe c) k 0).firstBad

/-- The page tables' ranges and R215 for a warp context. -/
def State.wpeRules (s : State) (c k : Nat) (mesh : Bool) : List (Nat × Nat) :=
  let g (f : RField) : Nat := s.rd (.wpe c) f k
  sizeRules (g WPX.OUT_WIDTH, g WPX.OUT_HEIGHT) 16 WPX.OUT_WIDTH WPX.OUT_HEIGHT k
    ++ srcRule wpeSrc (g WPX.SRC) WPX.SRC k ++ rule (mesh && (s.meshBad c k).isSome) 1 WPX.INTERP k

/-- R220 for a pyramid context. -/
def State.pyeRules (s : State) (c k : Nat) : List (Nat × Nat) :=
  let g (f : RField) : Nat := s.rd (.pye c) f k
  let sz := s.pyeSize c k
  let top := 2 ^ g PYX.TOP
  sizeRules sz 16 PYX.WIDTH PYX.HEIGHT k ++ rule (ceilDiv sz.1 top < 8 || ceilDiv sz.2 top < 8) 1 PYX.TOP k
    ++ srcRule pyeSrc (g PYX.SRC) PYX.SRC k ++ s.bitsRule c (g PYX.SRC) (g PYX.IN_BITS) PYX.IN_BITS k

/-- R126 for a front end context. -/
def State.ifeRules (s : State) (k : Nat) : List (Nat × Nat) :=
  let sz := s.ifeSize k
  let raw20 : Bool := match s.ifeStream? k with | some e => s.cps CPS.DT e = 0x2F | none => false
  sizeRules sz 16 IFX.WIDTH IFX.HEIGHT k ++ rule (sz.2 % 2 = 1) 2 IFX.HEIGHT k ++ rule raw20 1 IFX.SOURCE k

/-- Enabled front end contexts. -/
def State.ifeEnabled (s : State) : List Nat := (List.range 8).filter fun k => s.rd .ife IFX.EN k = 1

/-- A context is in-line (R125). -/
def State.ifeInline (s : State) (k : Nat) : Bool := s.rd .ife IFX.SOURCE k = 1

/-- Line memory of the enabled front end contexts (R153). -/
def State.ifeMemory (s : State) : Nat :=
  17408 + (s.ifeEnabled.map fun k => (20 + (if s.ifeInline k then 16 else 2)) * (s.ifeSize k).1 * 2).sum

/-- The first two limits of R153. -/
def State.ifeTotals (s : State) : List (Nat × Nat) :=
  let on := s.ifeEnabled
  rule (1 < (on.filter (s.ifeInline ·)).length) 1 IFX.SOURCE
    ++ rule (4 < (on.filter (s.rd .ife IFX.PRIV ·  = 1)).length) 1 IFX.PRIV
    ++ rule (2 ^ 21 < s.ifeMemory) 1 IFX.SOURCE

/-- R111 over the enabled stream entries. -/
def State.cpxRules (s : State) : List (Nat × Nat) :=
  let on := (List.range 32).filter fun e => s.cps CPS.EN e = 1
  let key (e : Nat) : Nat × Nat × Nat := (s.cps CPS.PORT e, s.cps CPS.VC e, s.cps CPS.DT e)
  let one (e : Nat) : List (Nat × Nat) :=
    let g (f : RField) : Nat := s.cps f e
    let per := s.rd .cpx CPP.TRIG_PERIOD (g CPS.PORT)
    let mult := if g CPS.DT = 0x2B ∨ g CPS.DT = 0x2D then 4 else if g CPS.DT = 0x2C ∨ g CPS.DT = 0x2F then 2 else 1
    rule (on.any fun d => d < e && key d = key e) 1 CPS.PORT e
      ++ rule (g CPS.DEST = 1 && on.any fun d => d < e && s.cps CPS.DEST d = 1) 1 CPS.DEST e
      ++ rule (g CPS.DEST = 5 && g CPS.DT ≠ 0x12) 1 CPS.DEST e ++ rule (g CPS.WIDTH % mult ≠ 0) 1 CPS.DT e
      ++ rule (g CPS.FS_MAX < g CPS.FS_MIN || (per ≠ 0 && per ≤ g CPS.FS_MAX)) 1 CPS.FS_MIN e
      ++ rule (g CPS.DEST = 1 && g CPS.ROW_CLKS < ceilDiv (g CPS.WIDTH * 25) 32) 1 CPS.DEST e
  on.flatMap one

/-- A ring's geometry may change only while it is empty or off (R349, R350). -/
def State.ringRules (s new : State) (r : RingRef) : List (Nat × Nat) :=
  let geo (t : State) : List Nat := [t.ringRd r SPR.BASE CMR.BASE, t.ringRd r SPR.SLOT_LOG2 CMR.SLOT_LOG2,
    t.ringRd r SPR.SLOTS CMR.SLOTS, t.ringRd r SPR.NCONS CMR.NCONS]
  rule (s.ringOn r && geo s ≠ geo new && !(s.ringH r = s.ringT r && s.ringT r = s.ringR r)) 1
    (if r.inCmem then CMR.BASE else SPR.BASE) r.ring

/-- Entries of a region. -/
def State.regionSpan (s : State) (r : Nat) : Nat × Nat :=
  (s.rd .bod BODR.BASE_ENTRY r, s.rd .bod BODR.GRID0 r * s.rd .bod BODR.GRID1 r * s.rd .bod BODR.GRID2 r)

/-- R319 for a region. -/
def State.regionRules (s : State) (r : Nat) : List (Nat × Nat) :=
  let a := s.regionSpan r
  let meets (q : Nat) : Bool :=
    let b := s.regionSpan q
    a.1 < b.1 + b.2 && b.1 < a.1 + a.2
  rule (65536 < a.1 + a.2) 1 BODR.BASE_ENTRY r
    ++ rule (s.rd .bod BODR.EN r = 1 && (List.range 64).any fun q => s.regionLocked q && meets q) 1 BODR.BASE_ENTRY r

/-- A range lies in the GDDR6 ranges (R353). -/
def State.inGddr (s : State) (a n : Nat) : Bool :=
  match s.place a, s.place (a + n - 1) with
  | .gddr g, .gddr h => g = h
  | _, _ => false

/-- A core runs nodes. -/
def State.coreBusy (s : State) (u : Nat) : Bool := (s.core u).nodes ≠ []

/-- The rules of a page's chapter, over the state `n` that its shadows would give. -/
def State.pageRules (s n : State) (p : Page) : List (Nat × Nat) :=
  let each (k : Nat) (f : Nat → List (Nat × Nat)) : List (Nat × Nat) :=
    (List.range k).flatMap fun i => if s.touchedEntry p k i then f i else []
  match p with
  | .clk => rule (n.rd .clk CLK.THM_STOP < n.rd .clk CLK.THM_WARN) 1 CLK.THM_WARN
  | .hlk _ => rule (n.rd p HLK.KEEPALIVE ≤ 2 * n.rd p HLK.REPLAY_TMO) 1 HLK.KEEPALIVE
  | .cpx => n.cpxRules
  | .ife => each 8 n.ifeRules ++ n.ifeTotals
  | .sge c => each 4 (n.sgeRules c)
  | .ofe c => each 2 (n.ofeRules c)
  | .fpe c => each 2 (n.fpeRules c)
  | .wpe c => each 4 fun k =>
      let geo (t : State) : List Nat :=
        [t.rd p WPX.MESH_ADDR_LO k, t.rd p WPX.MESH_ADDR_HI k, t.rd p WPX.VBOUND k, t.rd p WPX.ROW_OFF k,
         t.rd p WPX.INTERP k, (t.wpeSize c k).1, (t.wpeSize c k).2, t.rd p WPX.OUT_WIDTH k, t.rd p WPX.OUT_HEIGHT k]
      n.wpeRules c k (geo s ≠ geo n)
  | .pye c => each 4 (n.pyeRules c)
  | .spm u => rule (s.rd p SPM.PROT ≠ n.rd p SPM.PROT && s.coreBusy u) 1 SPM.PROT
      ++ (List.range 16).flatMap fun r => s.ringRules n ⟨false, u, r⟩
  | .cmem c =>
    let busy : Bool := (List.range 4).any fun k => s.coreBusy (4 * c + k)
    let segs := 64 - 8 * n.rd p CMEM.CACHE_SEGS
    rule (s.rd p CMEM.PROT_LO ≠ n.rd p CMEM.PROT_LO && busy) 1 CMEM.PROT_LO
      ++ rule (s.rd p CMEM.PROT_HI ≠ n.rd p CMEM.PROT_HI && busy) 1 CMEM.PROT_HI
      ++ rule (s.touched p CMEM.CACHE_SEGS 0 0 && (List.range 64).any fun g => segs ≤ g && s.lockedCmem c g) 3 CMEM.CACHE_SEGS
      ++ rule (s.touched p CMEM.CACHE_SEGS 0 0 && s.amt.tasks.any (·.cluster = c)) 1 CMEM.CACHE_SEGS
      ++ (List.range 64).flatMap fun r => s.ringRules n ⟨true, c, r⟩
  | .bod => each 64 n.regionRules
  | .pmc =>
    let lens := (List.range 4).map fun i => n.rd p PMC.WIN_LEN 0 i
    rule (767 < lens.sum) 1 PMC.WIN_LEN
      ++ (List.range 4).flatMap fun i => rule (32768 < n.rd p PMC.WIN_OFS 0 i + n.rd p PMC.WIN_LEN 0 i) 1 PMC.WIN_OFS 0 i
  | .rsp => rule (s.touched p RSP.DI_BEATS 0 0 && (s.lockedRuns || s.amt.maquette.isSome)) 3 RSP.DI_BEATS
  | .dig =>
    let r := n.logRing
    let moved : Bool := s.logRing ≠ r
    rule (moved && (!s.inGddr r.1 r.2 || s.lockedGddr r.1 r.2)) 1 DIG.LOG_BASE_LO
  | .str _ => each 8 fun k => rule (n.rd p STR.CMEM k = 0 && (n.rd p STR.RING k < 3 || 15 < n.rd p STR.RING k)) 2 STR.RING k
  | .dev | .pdc | .rstc | .lcs | .opl | .pln | .ccp | .agm | .mc | .mmu | .mcg _ | .amt | .mgc | .clu _ | .tc _ | .vis _
  | .eng _ _ => []

/-- Range checks and locked use over the shadows written. -/
def State.shadowRules (s : State) (p : Page) : List (Nat × Nat) :=
  (p.fields.filter (·.acc = .rws)).flatMap fun f =>
    (List.range f.n1).flatMap fun i => (List.range f.n2).flatMap fun j =>
      if s.touched p f i j then
        let v := s.rdShadow p f i j
        rule (v < f.vmin || f.vmax < v) 2 f i j ++ rule (s.lockedBits p f i &&& (v ^^^ s.rd p f i j) ≠ 0) 3 f i j
      else []

/-- Of the failing checks, the one a rejection names (R466): the lowest word, then 0x03 before 0x02 before 0x01. -/
def pickReject : List (Nat × Nat) → Option (Nat × Nat)
  | [] => none
  | x :: r => match pickReject r with
    | none => some x
    | some y => if x.1 < y.1 ∨ (x.1 = y.1 ∧ y.2 < x.2) then some x else some y

/-- What a commit of the page would be rejected for (R466). -/
def State.commitFault (s : State) (p : Page) : Option (Nat × Nat) :=
  pickReject (s.shadowRules p ++ s.pageRules (s.withShadows p) p)

/-! ### Commit -/

/-- Contexts of a page that wait for their own boundaries (R466); the matcher is context 2 of its page. -/
def Page.contexts : Page → List Nat
  | .ife => List.range 8
  | .cpx => List.range 32
  | .sge _ | .wpe _ | .pye _ => List.range 4
  | .ofe _ => List.range 2
  | .fpe _ => List.range 3
  | .dev | .clk | .pdc | .rstc | .lcs | .opl | .pmc | .pln | .ccp | .agm | .rsp | .hlk _ | .mc | .mmu | .mcg _
  | .bod | .amt | .dig | .mgc | .clu _ | .tc _ | .vis _ | .cmem _ | .spm _ | .eng _ _ | .str _ => [0]

/-- A field's copy belongs to a context of its page: slots of privileged use go with their context, a port's trigger
group with the stream entry that runs on it. -/
def State.inContext (s : State) (p : Page) (f : RField) (i k : Nat) : Bool :=
  match p with
  | .ife => if f.n1 = 8 then i = k else s.rdShadow p IFP.CTX i = k
  | .cpx => if f.n1 = 32 then i = k else s.rd p CPS.PORT k = i
  | .sge _ | .wpe _ | .pye _ | .ofe _ => i = k
  | .fpe _ => if f.n1 = 1 then k = 2 else i = k
  | .dev | .clk | .pdc | .rstc | .lcs | .opl | .pmc | .pln | .ccp | .agm | .rsp | .hlk _ | .mc | .mmu | .mcg _
  | .bod | .amt | .dig | .mgc | .clu _ | .tc _ | .vis _ | .cmem _ | .spm _ | .eng _ _ | .str _ => true

/-- The effects of values that take force beyond their registers: wiped segments, a log that starts. -/
def State.commitEffects (old new : State) (p : Page) : State :=
  let wipeSegs (s : State) (base : Nat) (l : List Nat) : State := l.foldl (fun s g => s.wipe (base + g * 65536) 65536) s
  match p with
  | .spm u =>
    let a := old.rd p SPM.PROT
    let b := new.rd p SPM.PROT
    wipeSegs new (spmBase u) ((List.range 32).filter fun g => a.testBit g ≠ b.testBit g)
  | .cmem c =>
    let prot (t : State) (g : Nat) : Bool :=
      if g < 32 then (t.rd p CMEM.PROT_LO).testBit g else (t.rd p CMEM.PROT_HI).testBit (g - 32)
    let cached (t : State) (g : Nat) : Bool := 64 - 8 * t.rd p CMEM.CACHE_SEGS ≤ g
    wipeSegs new (cmemBase c) ((List.range 64).filter fun g => prot old g ≠ prot new g || cached old g ≠ cached new g)
  | .dig =>
    if old.rd p DIG.LOG_EN = 0 ∧ new.rd p DIG.LOG_EN = 1 then
      { new with fabric := { new.fabric with logPos := 0 } }.wr p DIG.LOG_WRITTEN 0
    else new
  | .dev | .clk | .pdc | .rstc | .lcs | .opl | .pmc | .pln | .ccp | .agm | .rsp | .hlk _ | .cpx | .ife | .mc | .mmu
  | .mcg _ | .bod | .amt | .mgc | .clu _ | .tc _ | .vis _ | .sge _ | .ofe _ | .fpe _ | .wpe _ | .pye _ | .eng _ _ | .str _ => new

/-- The shadows of one context applied (R466). -/
def State.applyShadows (s : State) (p : Page) (k : Nat) : State :=
  let one (t : State) (f : RField) (i j : Nat) : State :=
    let v := regGet noShadow (f.key p i j) s.shadow
    if v = noShadow ∨ !s.inContext p f i k then t
    else { t.wr p f v i j with shadow := regSet noShadow (f.key p i j) noShadow t.shadow }
  let all := (p.fields.filter (·.acc = .rws)).foldl (fun t f =>
    (List.range f.n1).foldl (fun t i => (List.range f.n2).foldl (fun t j => one t f i j) t) t) s
  s.commitEffects all p

/-- A commit waits for its boundary. -/
def State.committing (s : State) (p : Page) : Bool := s.commits.any (·.1 = p.num)

/-- COMMIT_APPLY for one context (R466): PENDING clears with the last; shadows of no context go then too. -/
def State.applyCommit (s : State) (p : Page) (k : Nat) : State :=
  if !((p.num, k) ∈ s.commits) then s
  else
    let s1 := s.applyShadows p k
    let s2 : State := { s1 with commits := setErase (p.num, k) s1.commits }
    if s2.committing p then s2
    else
      let rest := (p.fields.filter (·.acc = .rws)).foldl (fun t f =>
        (List.range f.n1).foldl (fun t i => (List.range f.n2).foldl (fun t j =>
          let v := regGet noShadow (f.key p i j) t.shadow
          if v = noShadow then t else t.wr p f v i j) t) t) s2
      (rest.dropShadows p).wr p HDR.PENDING 0

/-- A rejected or discarded commit (R466, R467). -/
def State.rejectCommit (s : State) (p : Page) (code word : Nat) : State :=
  let s1 := { s.dropShadows p with commits := s.commits.filter (·.1 ≠ p.num) }
  (((s1.wr p HDR.PENDING 0).wr p HDR.REJECTED 1).wr p HDR.REJECT_CODE code).wr p HDR.REJECT_WORD word

/-- A pending commit discarded (R467). -/
def State.discardCommit (s : State) (p : Page) (code : Nat) : State :=
  if s.committing p then s.rejectCommit p code 0 else s

/-- What a write of GO answers (R466, R467). -/
def goCheck (s : State) (p : Page) : Nat × State :=
  if s.committing p then (0x0A, s)
  else match s.commitFault p with
    | none => (0, s)
    | some (w, c) =>
      let s1 := s.rejectCommit p c w
      match p with
      | .wpe cl =>
        let n := s.withShadows p
        (0x0B, (List.range 4).foldl (fun t k => match (if s.touchedEntry p 4 k then n.meshBad cl k else none) with
          | some i => (t.wr p WPX.MESH_BAD 1 k).wr p WPX.MESH_BAD_NODE i k
          | none => t.wr p WPX.MESH_BAD 0 k) s1)
      | _ => (0x0B, s1)

/-- The page's commit becomes pending (R466). -/
def goAct (s : State) (p : Page) : State :=
  (((({ s with commits := s.commits ++ p.contexts.map fun k => (p.num, k) } : State).wr p HDR.PENDING 1).wr p
    HDR.REJECTED 0).wr p HDR.REJECT_CODE 0).wr p HDR.REJECT_WORD 0

/-- The EN in force of a page's context (R466). -/
def State.ctxEnabled (s : State) (p : Page) (k : Nat) : Bool :=
  match p with
  | .ife => s.rd p IFX.EN k = 1
  | .cpx => s.cps CPS.EN k = 1
  | .sge _ => s.rd p SGX.EN k = 1
  | .ofe _ => s.rd p OFX.EN k = 1
  | .fpe _ => if k = 2 then true else s.rd p FPX.EN k = 1
  | .wpe _ => s.rd p WPX.EN k = 1
  | .pye _ => s.rd p PYX.EN k = 1
  | .dev | .clk | .pdc | .rstc | .lcs | .opl | .pmc | .pln | .ccp | .agm | .rsp | .hlk _ | .mc | .mmu | .mcg _
  | .bod | .amt | .dig | .mgc | .clu _ | .tc _ | .vis _ | .cmem _ | .spm _ | .eng _ _ | .str _ => false

/-- The commits due at a beat boundary: of pages without contexts of their own, and of contexts whose EN in force is
0 (R466). -/
def State.boundaryCommits (s : State) : State :=
  s.commits.foldl (fun t x => match pageAt x.1 with
    | some p => if p.perContext && s.ctxEnabled p x.2 then t else t.applyCommit p x.2
    | none => t) s

/-- COMMIT_APPLY (R466): a context's frame or job starts, or for other pages the beat boundary comes. -/
def execCommitApply (page : BitVec 12) (ctx : Nat) (s : State) : Result :=
  .next (match pageAt page.toNat with
    | some p => s.applyCommit p ctx
    | none => s)

/-- Commits pending on pages that enter locked use (R467): code 0x03. Those the Armature writes: 0x05. -/
def State.lockPages (s before : State) (written : List Page) : State :=
  s.commits.foldl (fun t x => match pageAt x.1 with
    | some p =>
      if p ∈ written then t.discardCommit p 5
      else if !before.pageLocked p && s.pageLocked p then t.discardCommit p 3 else t
    | none => t) s

end Sys2Proof.Machine
end

