-- ==== Sys2Proof/Machine/Rasp.lean ====
section
/-! DEFINITION. The Rasp's self-tests (chapter 18): quanta, modes, diagnostic intervals, what a failed test does. -/

namespace Sys2Proof.Machine

/-! ### Tests and runs -/

/-- Quanta of a test (R420). -/
def testQuanta (t : Nat) : Nat :=
  nth [2048, 1536, 512, 768, 512, 384, 256, 256, 128, 1024, 768, 1024, 1536, 512] t

/-- The instance number a fault record and REASON_DETAIL name (R424). -/
def instNumber : TestInstance → Nat
  | .unit u => u.val
  | .cluster c => c.val
  | .channel n => n.val
  | .ife | .central | .plinth => 0

/-- The REASON_DETAIL of cause 0x04 for an instance (the reason code table of chapter 01). -/
def instDetail : TestInstance → Nat
  | .unit u => u.val
  | .cluster c => 0x40 + c.val
  | .channel n => 0x80 + n.val
  | .ife => 0xF0
  | .central => 0xF1
  | .plinth => 0xF2

/-- A test of an instance. -/
def State.testOf (s : State) (i : TestInstance) (t : Nat) : Option TestState :=
  s.rasp.tests.find? fun x => x.inst = i ∧ x.test = t

/-- A test changed. -/
def State.setTest (s : State) (x : TestState) : State :=
  { s with rasp := { s.rasp with tests := s.rasp.tests.map fun y => if y.inst = x.inst ∧ y.test = x.test then x else y } }

/-- Precedence of a mode (R425): TARGETED, READMIT, PRIORITY, ROTATION. -/
def modeRank (m : Nat) : Nat := if m = 2 then 3 else if m = 3 then 2 else m

/-- The run whose quantum comes next: the highest mode whose test has not passed yet (R425). -/
def TestState.current (x : TestState) : TestRun :=
  (x.runs.filter (!·.passed)).foldl (fun b r => if modeRank b.mode < modeRank r.mode then r else b) x.rotation

/-- A run put in its place. -/
def TestState.setRun (x : TestState) (r : TestRun) : TestState :=
  if r.mode = 0 then { x with rotation := r } else { x with runs := x.runs.map fun y => if y.mode = r.mode then r else y }

/-- An instance is tested: powered, and a core neither disabled nor retired. -/
def State.instOn (s : State) (i : TestInstance) : Bool :=
  (match instDomain i with | some d => s.domainReady d | none => s.power.checkPassed)
    && (match i with
        | .unit u => !s.disabled u.val && !s.retired u.val
        | .cluster _ | .ife | .channel _ | .central | .plinth => true)

/-! ### Diagnostic intervals (R426, R427) -/

/-- Some test of an instance is past its interval. -/
def State.instLatent (s : State) (i : TestInstance) : Bool := s.rasp.tests.any fun t => t.inst = i && t.missed

/-- The RSP page shows the instances past their interval. -/
def State.showLatent (s : State) : State :=
  let un (f : TestInstance → Option Nat) (n : Nat) : Bool := s.rasp.tests.any fun t => t.missed && decide (f t.inst = some n)
  let s1 := s.wr .rsp RSP.LATENT_U (ofBits 24 (un fun i => match i with
    | .unit u => some u.val | .cluster _ | .ife | .channel _ | .central | .plinth => none))
  let s2 := s1.wr .rsp RSP.LATENT_MC (ofBits 16 (un fun i => match i with
    | .channel n => some n.val | .cluster _ | .ife | .unit _ | .central | .plinth => none))
  let s3 := s2.wr .rsp RSP.LATENT_CLU (ofBits 6 (un fun i => match i with
    | .cluster c => some c.val | .channel _ | .ife | .unit _ | .central | .plinth => none))
  let s4 := (s3.wr .rsp RSP.LATENT_IFE (b2n (s.instLatent .ife))).wr .rsp RSP.LATENT_CEN (b2n (s.instLatent .central))
  s4.wr .rsp RSP.LATENT_PLN (b2n (s.instLatent .plinth))

/-- An instance whose missed interval, or slow scrubber, counts for reason 0x32 (R426). -/
def State.instCounts (s : State) (i : TestInstance) : Bool :=
  match i with
  | .unit u => s.usableNames u.val
  | .ife | .channel _ | .cluster _ | .central => s.lockedRuns
  | .plinth => true

/-- The condition of reason 0x32 (R426, R427). -/
def State.latent (s : State) : Bool :=
  s.rasp.tests.any (fun t => t.missed && s.instCounts t.inst)
    || s.rasp.slowScrubs.any fun x => if x.1 then s.lockedRuns else s.usableNames x.2

/-- The intervals of an instance start anew (R426). -/
def State.startIntervals (s : State) (i : TestInstance) : State :=
  let step (t : TestState) : TestState := if t.inst = i then { t with last := some s.time.beatNo, missed := false, expired := false } else t
  ({ s with rasp := { s.rasp with tests := s.rasp.tests.map step } }).showLatent

/-- The intervals of the instances of a domain stop while it is off (R426), and the positions of their tests are
lost; after a warm reset no READMIT test runs (R430). -/
def State.stopTests (s : State) (d : Nat) : State :=
  let warm : Bool := s.rd .rstc RSTC.WARM_COUNT ≠ 0
  let again (l : List TestRun) : List TestRun := (l.filter fun r => !(warm && r.mode = 3)).map fun r => TestRun.fresh r.mode
  let step (t : TestState) : TestState :=
    if instDomain t.inst = some d then
      { t with rotation := TestRun.fresh 0, runs := again t.runs, last := none, missed := false, expired := false }
    else t
  ({ s with rasp := { s.rasp with tests := s.rasp.tests.map step } }).showLatent

/-! ### Passes -/

/-- The mark of a block that failed (R428). -/
def State.markFailed (s : State) (i : TestInstance) (on : Bool) : State :=
  match i with
  | .channel n => s.unitBit .rsp RSP.FAILED_MC n.val on
  | .cluster c => s.unitBit .rsp RSP.FAILED_CLU c.val on
  | .ife => s.wr .rsp RSP.FAILED_IFE (b2n on)
  | .central => s.wr .rsp RSP.FAILED_CEN (b2n on)
  | .plinth => s.wr .rsp RSP.FAILED_PLN (b2n on)
  | .unit _ => s

/-- What the passing of every test of an instance in a mode clears (R410, R425, R428, R430). -/
def State.modePassed (s : State) (i : TestInstance) (mode : Nat) : State :=
  match i with
  | .unit u =>
    if mode = 2 then
      ((s.unitBit .rsp RSP.TARGETED u.val false).unitBit .ccp CCP.TT_PENDING u.val false).clearUnits [u.val] false
    else if mode = 3 then (s.unitBit .rsp RSP.READMIT_PEND u.val false).raise .rsp 3
    else s
  | .cluster c => if mode = 2 then s.clearBlock 7 c.val else s
  | .plinth => ((s.markFailed .plinth false).clearBlock 3 0xFF).clearBlock 4 (instDetail .plinth)
  | .ife | .channel _ | .central => (s.markFailed i false).clearBlock 4 (instDetail i)

/-- A rotation completed in a beat (R426). -/
def TestState.rotated (x : TestState) (k : Nat) : TestState :=
  { x with last := some k, passedAt := some k, missed := false, expired := false }

/-- A mode's test of an instance is complete with its slowest test; it then counts as a rotation of each test it covered
(R425). -/
def State.finishMode (s : State) (i : TestInstance) (mode : Nat) : State :=
  let covered (t : TestState) : Bool := decide (t.inst = i) && t.runs.any (·.mode = mode)
  if s.rasp.tests.all fun t => t.inst ≠ i || t.runs.all fun r => r.mode ≠ mode || r.passed then
    let step (t : TestState) : TestState :=
      if covered t then { t.rotated s.time.beatNo with runs := t.runs.filter (·.mode ≠ mode) } else t
    let s1 := (({ s with rasp := { s.rasp with tests := s.rasp.tests.map step } }).showLatent).count .rsp RSP.CNT_ROT
      (s.rasp.tests.filter covered).length
    s1.modePassed i mode
  else s

/-- A test has passed all of its quanta (R420, R425, R426): a rotation completed, or its part of a mode's test. -/
def State.passTest (s : State) (x : TestState) (r : TestRun) : State :=
  if r.mode = 0 then
    ((s.setTest ((x.rotated s.time.beatNo).setRun (TestRun.fresh 0))).showLatent).count .rsp RSP.CNT_ROT
  else (s.setTest (x.setRun { TestRun.fresh r.mode with passed := true })).finishMode x.inst r.mode

/-! ### Failures (R423, R424, R428) -/

/-- The detail words of a class 0x7 record (R424; log 11 for their places). -/
def testDetails (x : TestState) (r : TestRun) : List Nat := [x.test, instNumber x.inst, r.pos, r.mode]

/-- A block that cannot be retired has failed (R428): cause 0x04 while a locked set runs, else its mark; its test repeats
in PRIORITY mode. -/
def State.failBlock (s : State) (i : TestInstance) : State :=
  let s1 := if s.lockedRuns then s.addCause 4 (instDetail i) [] true true else s.markFailed i true
  s1.startMode i 1

/-- What a failed test does (R428). -/
def State.failTest (s : State) (x : TestState) (r : TestRun) : State :=
  let y := x.setRun (TestRun.fresh r.mode)
  let s1 := ((s.setTest y).count .rsp RSP.CNT_FAIL).raise .rsp 0
  match x.inst with
  | .unit u =>
    let s2 := if r.mode = 2 then s1.addCause 4 u.val [u.val] true else s1
    let s3 := if r.mode = 3 then s2.unitFault .rsp 0x7006 u.val (testDetails x r) true else s2
    s3.retireUnit u.val 0x7001
  | .cluster c =>
    if r.mode = 2 then (s1.retireCluster c.val 0x7001).clearBlock 7 c.val else s1.clusterFault c.val 0x7001
  | .ife | .channel _ | .central => s1.failBlock x.inst
  | .plinth => ((s1.markFailed .plinth true).addCause 4 (instDetail .plinth) [] true true).startMode .plinth 1

/-- The fault record of a test. -/
def State.testFault (s : State) (code : Nat) (x : TestState) (r : TestRun) : State :=
  match x.inst with
  | .unit u => s.unitFault .rsp code u.val (testDetails x r) true
  | .cluster _ | .ife | .channel _ | .central | .plinth => s.fault .rsp code (testDetails x r) true

/-- RSP_QUANTUM_END (R420, R424): a quantum's signature is right or wrong. -/
def execRspQuantumEnd (inst : TestInstance) (test : Nat) (signatureOk : Bool) (s : State) : Result :=
  .next (match s.testOf inst test with
    | none => s
    | some x =>
      if !s.instOn inst then s
      else
        let r := x.current
        if !signatureOk then
          if r.repeating then (s.testFault 0x7001 x r).failTest x r
          else s.setTest (x.setRun { r with repeating := true, cuts := 0 })
        else
          let s1 := if r.repeating then (s.testFault 0x7002 x r).count .rsp RSP.CNT_TRANSIENT else s
          if testQuanta test ≤ r.pos + 1 then s1.passTest x r
          else s1.setTest (x.setRun { r with pos := r.pos + 1, cuts := 0, repeating := false }))

/-- QUANTUM_CUT (R423): an incomplete quantum runs again; cut three times in a row it has failed. -/
def execQuantumCut (inst : TestInstance) (test : Nat) (s : State) : Result :=
  .next (match s.testOf inst test with
    | none => s
    | some x =>
      if !s.instOn inst then s
      else
        let r := x.current
        let s1 := s.count .rsp RSP.CNT_INCOMPLETE
        if 3 ≤ r.cuts + 1 then (s1.testFault 0x7003 x r).failTest x r
        else s1.setTest (x.setRun { r with cuts := r.cuts + 1 }))

/-- DI_MISSED (R426): the interval has ended without a completed rotation. -/
def execDiMissed (inst : TestInstance) (test : Nat) (s : State) : Result :=
  .next (match s.testOf inst test with
    | none => s
    | some x => match x.last with
      | none => s
      | some b =>
        if x.missed ∨ s.time.beatNo ≤ b + s.rd .rsp RSP.DI_BEATS then s
        else
          let s1 := (s.setTest { x with missed := true }).showLatent
          ((s1.testFault 0x7004 x x.current).count .rsp RSP.CNT_DI_MISSED).raise .rsp 1)

/-- DI_EXPIRED (R426): no rotation within four intervals counts as a failed test. -/
def execDiExpired (inst : TestInstance) (test : Nat) (s : State) : Result :=
  .next (match s.testOf inst test with
    | none => s
    | some x => match x.last with
      | none => s
      | some b =>
        if x.expired ∨ s.time.beatNo ≤ b + 4 * s.rd .rsp RSP.DI_BEATS then s
        else
          let y := { x with expired := true }
          ((s.setTest y).testFault 0x7005 y y.rotation).failTest y y.rotation)

/-- What a write of RSP.REQ answers (R433): refused for a unit that is disabled, retired or powered off. -/
def rspReqCheck (s : State) (unit : Nat) : Nat :=
  if 24 ≤ unit ∨ s.disabled unit ∨ s.retired unit ∨ !s.domainReady unit then 0x0B else 0

/-- What a write of RSP.REQ does: a PRIORITY test of the unit. -/
def rspReqAct (s : State) (unit : Nat) : State := (unitInst unit).foldl (fun s i => s.startMode i 1) s

/-- At a beat boundary the targeted tests asked for begin (R425). -/
def State.startTargeted (s : State) : State :=
  let l := s.rasp.toTarget
  let s1 := l.foldl (fun s i => match i with
    | .unit u => (s.startMode i 2).unitBit .rsp RSP.TARGETED u.val true
    | .cluster _ | .ife | .channel _ | .central | .plinth => s.startMode i 2) s
  { s1 with rasp := { s1.rasp with toTarget := [] } }

/-! ### Scrubbers (R336, R427) -/

/-- The pages and fields of an array's scrubber. -/
def arrayPage : SramArray → Page
  | .scratchpad u => .spm u.val
  | .clusterMem c => .cmem c.val

/-- Is it a cluster's memory, and which one. -/
def arrayIs : SramArray → Bool × Nat
  | .scratchpad u => (false, u.val)
  | .clusterMem c => (true, c.val)

/-- The instance that a PRIORITY test of an array's owner covers (R425). -/
def arrayInst : SramArray → TestInstance
  | .scratchpad u => .unit u
  | .clusterMem c => .cluster c

/-- What is known of an array's scrubber. -/
def State.scrubber (s : State) (a : SramArray) : Scrubber :=
  (s.fabric.scrubbers.find? fun x => (x.inCmem, x.owner) = arrayIs a).getD
    { inCmem := (arrayIs a).1, owner := (arrayIs a).2, passes := [], slow := false }

/-- An array's scrubber changed. -/
def State.setScrubber (s : State) (x : Scrubber) : State :=
  { s with fabric := { s.fabric with
      scrubbers := x :: s.fabric.scrubbers.filter fun y => !(y.inCmem = x.inCmem ∧ y.owner = x.owner) } }

/-- The array works: its domain is ready and its core is there. -/
def State.arrayOn (s : State) (a : SramArray) : Bool :=
  match a with
  | .scratchpad u => u.val % 4 ≠ 3 && s.domainReady u.val && !s.disabled u.val
  | .clusterMem c => s.domainReady (24 + c.val)

/-- The limit of an array's scrubber in beats. -/
def State.scrubLimit (s : State) (a : SramArray) : Nat :=
  s.rd (arrayPage a) (match a with | .scratchpad _ => SPM.SCRUB_LIMIT | .clusterMem _ => CMEM.SCRUB_LIMIT)

/-- A pass over its limit: fault record 0x1014, and the warning of R427. -/
def State.reportSlow (s : State) (a : SramArray) : State :=
  let s1 := s.fault (arrayPage a) 0x1014
  { s1 with rasp := { s1.rasp with slowScrubs := setInsert (arrayIs a) s1.rasp.slowScrubs } }

/-- SCRUB_SLOW (R336, R427): a pass has run past its limit. -/
def execScrubSlow (arr : SramArray) (s : State) : Result :=
  let x := s.scrubber arr
  .next (if !s.arrayOn arr ∨ x.slow then s else (s.reportSlow arr).setScrubber { x with slow := true })

/-- SCRUB_PASS (R336): a full pass ends. A word corrected in three passes in a row is stuck, and its unit is tested. -/
def execScrubPass (arr : SramArray) (beats : Nat) (corrected : List Nat) (detIdle : Nat) (s : State) : Result :=
  let x := s.scrubber arr
  let p := arrayPage arr
  let late : Bool := s.scrubLimit arr < beats
  let stuck := corrected.filter fun o => 2 ≤ x.passes.length ∧ x.passes.all fun l => decide (o ∈ l)
  .next (if !s.arrayOn arr then s
    else
      let s1 := s.setScrubber { x with passes := (corrected :: x.passes).take 2, slow := false }
      let s2 := match arr with
        | .scratchpad _ => ((s1.count p SPM.CNT_CORR corrected.length).count p SPM.CNT_DET_IDLE detIdle).wr p SPM.SCRUB_PASS (min beats 0xFFFFFF)
        | .clusterMem _ => (s1.count p CMEM.CNT_CORR corrected.length).wr p CMEM.SCRUB_PASS (min beats 0xFFFFFF)
      let s3 : State := if late then (if x.slow then s2 else s2.reportSlow arr)
        else { s2 with rasp := { s2.rasp with slowScrubs := setErase (arrayIs arr) s2.rasp.slowScrubs } }
      stuck.foldl (fun s o =>
        let s1 := (s.fault p 0x1013 [o]).startMode (arrayInst arr) 1
        match arr with
        | .scratchpad _ => s1.wr p SPM.STUCK_OFS (o / 8)
        | .clusterMem _ => s1) s3)

end Sys2Proof.Machine
end

