-- ==== Sys2Proof/Machine/Records.lean ====
section
/-! DEFINITION. What record k reports (chapters 01 and 17): the set and its fields' values (R238, R253), the comparator
pairs (R402–R408), result ages (R409), position and vehicle time (R20, R21). -/

namespace Sys2Proof.Machine

/-! ### Which set, which values -/

/-- The set that record `k` reports (R250, R251): the old set of a swap up to its last record, the running set up to its
last. -/
def State.reportSet (s : State) (k : Nat) : Option RunSet :=
  let live (r : RunSet) : Bool := match r.lastAdmit with | some e => k < e + r.pkg.latency | none => true
  match s.amt.draining.find? live with
  | some d => some d
  | none => s.amt.running.filter live

/-- The driving stream entry that a node's anchors descend from, and whether they are one a frame (R229). -/
def Package.drivenBy (p : Package) : Nat → Nat → Option (Nat × Bool)
  | 0, _ => none
  | n + 1, i => match p.node? i with
    | none => none
    | some d => match d.anchor with
      | .stream j => ((p.graphOf i).bind fun g => g.2.streams[j]?).map fun e => (e, d.perFrame)
      | .node j => (p.drivenBy n j).map fun x => (x.1, x.2 || d.perFrame)

/-- The strips of a set that anchor a node. -/
def State.anchorStrips (s : State) (r : RunSet) (i : Nat) : List Strip :=
  match r.pkg.drivenBy 4096 i with
  | none => []
  | some (e, frame) => s.amt.strips.filter fun x => x.gset = r.key ∧ x.stream = e ∧ (!frame || x.lastOfFrame)

/-- A* of R238: the largest acquisition beat not after `k - L` of a write of the field that is due. -/
def State.dueAcq (s : State) (r : RunSet) (k f : Nat) : Option Nat :=
  let nodes := (r.pkg.sec.recordWrites.filter (·.2.1 = f)).map (·.1)
  let acqs := (nodes.flatMap (s.anchorStrips r)).map (·.acq)
  (acqs.filter fun a => a + r.pkg.latency ≤ k).foldl (fun (m : Option Nat) a =>
    match m with | none => some a | some b => some (max a b)) none

/-- The write of a source with A_NEW = A*, the later one of several (R238, step 1). -/
def State.stepOne (s : State) (r : RunSet) (k f : Nat) (alternate : Bool) : Option RecWrite :=
  match s.dueAcq r k f with
  | none => none
  | some a => s.plinth.writes.find? fun w => w.set = r.key ∧ w.field = f ∧ w.alternate = alternate ∧ w.acqNew = a

/-- A write that has arrived and is unpoisoned. -/
def usableWrite (w : Option RecWrite) : Option RecWrite := w.filter fun x => x.poison.isNone

/-- The reason a source without a usable write contributes (R238, step 3). -/
def writeReason (w : Option RecWrite) : Nat := match w with | some x => x.poison.getD 0x27 | none => 0x27

/-- The set's own writes decide (R238). -/
def State.ownChoice (s : State) (r : RunSet) (k f : Nat) (pf : PayloadField) : Choice :=
  if (s.dueAcq r k f).isNone then .noWrite
  else
    let p := s.stepOne r k f false
    let a := s.stepOne r k f true
    match usableWrite p, usableWrite a with
    | some w, _ => .used w
    | none, some w => .used w
    | none, none => .failed (if pf.alternate.isSome then min (writeReason p) (writeReason a) else writeReason p)

/-- A write of the field by the set has reached the buffer for records up to `k`. -/
def State.hasWritten (s : State) (r : RunSet) (k f : Nat) : Bool :=
  s.plinth.writes.any fun w => w.set = r.key && w.field = f && decide (w.acqNew + r.pkg.latency ≤ k)

/-- The value a record chooses for a field (R238), or what was carried until the set first writes it (R253). -/
def State.fieldChoice (s : State) (r : RunSet) (k f : Nat) (pf : PayloadField) : Choice :=
  match s.ownChoice r k f pf with
  | .used w => .used w
  | c => match s.amt.carried.find? (·.field = f) with
    | some x => if s.hasWritten r k f then c else x.choice
    | none => c

/-- The choices of a record that has results. -/
def State.choices (s : State) (r : RunSet) (k : Nat) : List Choice :=
  (r.pkg.sec.payload.zip (List.range r.pkg.sec.payload.length)).map fun x => s.fieldChoice r k x.2 x.1

/-- The write a choice uses. -/
def Choice.write? : Choice → Option RecWrite
  | .used w => some w
  | .failed _ | .noWrite => none

/-- What the old set's last record chose, kept for the fields of the new set with CARRY (R253). -/
def State.keepCarried (s : State) (old new : RunSet) : State :=
  let find (pf : PayloadField) : Option Choice :=
    (old.pkg.sec.payload.zip s.plinth.chosen).findSome? fun x =>
      if x.1.off = pf.off ∧ x.1.len = pf.len ∧ x.2 ≠ .noWrite then some x.2 else none
  let l : List Carried := (new.pkg.sec.payload.zip (List.range 32)).filterMap fun x =>
    if x.1.carry ∧ old.pkg.gset ∈ new.pkg.sec.carry then (find x.1).map fun c => ⟨x.2, c⟩ else none
  { s with amt := { s.amt with carried := l } }

/-! ### Position and vehicle time -/

/-- CLK_AON clocks of a beat. -/
def aonPerBeat : Nat := 50

/-- A message and the one before it, newest first, as a straight line at an instant (R20). -/
def lineAt (a b : OdoMsg) (t : Int) : Int :=
  a.pos + rndDiv ((b.pos - a.pos) * (t - (a.stamp : Int))) (b.stamp - a.stamp)

/-- The two messages that give the position at an instant (R20): the nearest on each side, else the two newest. -/
def pickOdo (t : Int) : List OdoMsg → Option (OdoMsg × OdoMsg)
  | b :: a :: r => if (a.stamp : Int) ≤ t then some (a, b) else (pickOdo t (a :: r)).orElse fun _ => none
  | _ => none

/-- POSITION at an instant in CLK_AON clocks (R20). -/
def State.positionAt (s : State) (t : Int) : Nat :=
  match s.plinth.odo with
  | b :: a :: _ =>
    match pickOdo t s.plinth.odo with
    | some (x, y) => ofInt 64 (lineAt x y t)
    | none => ofInt 64 (lineAt a b t)
  | _ => 2 ^ 63

/-- VTO at an instant (R21). -/
def State.vtoAt (s : State) (t : Int) : Nat :=
  match s.plinth.vt with
  | none => 2 ^ 31
  | some (stamp, _) =>
    let v := rndDiv ((t - (stamp : Int)) * 16) 25
    if v < -(2 ^ 31 : Int) ∨ (2 ^ 31 : Int) ≤ v then 2 ^ 31 else ofInt 32 v

/-- Clock 1800 of beat `k` in CLK_AON clocks. -/
def latchClock (k : Nat) : Nat := aonPerBeat * k + 36

/-- The condition of reason 0x26. -/
def State.odoStale (s : State) (k : Nat) : Bool :=
  match s.plinth.odo with
  | b :: _ :: _ => decide (b.stamp + 75 * aonPerBeat < latchClock k)
  | _ => true

/-- The condition of reason 0x33: whole beats since the newest mark, or since beat 0. -/
def State.vtStale (s : State) (k : Nat) : Bool :=
  decide (1000000 < (latchClock k - (match s.plinth.vt with | some (x, _) => x | none => 0)) / aonPerBeat)

/-! ### Comparator pairs -/

/-- A pair's state. -/
def State.pair (s : State) (i : Nat) : PairState := s.plinth.pairs.getD i PairState.fresh

/-- A pair's state changed. -/
def State.setPair (s : State) (i : Nat) (p : PairState) : State :=
  { s with plinth := { s.plinth with pairs := s.plinth.pairs.set i p } }

/-- Width in bits of a TYPE (R400). -/
def typeBits (t : Nat) : Nat := nth [16, 16, 32, 32, 64] (t % 8)

/-- A TYPE is signed. -/
def typeSigned (t : Nat) : Bool := t % 8 % 2 = 0

/-- A field's bytes as a number of a TYPE. -/
def typeValue (t v : Nat) : Int := if typeSigned t then toInt (typeBits t) v else (v % 2 ^ typeBits t : Nat)

/-- NO_VALUE of a TYPE, as its code. -/
def noValue (t : Nat) : Nat := if typeSigned t then 2 ^ (typeBits t - 1) else 2 ^ typeBits t - 1

/-- The operands of a pair, when both are available (R402). -/
def State.pairOperands (s : State) (r : RunSet) (k : Nat) (cs : List Choice) (c : ComparePair) :
    Option (RecWrite × RecWrite) :=
  let chosen (f : Nat) : Option RecWrite := (cs[f]?).bind Choice.write?
  if c.kind = 1 then
    match usableWrite (s.stepOne r k c.fieldX false), usableWrite (s.stepOne r k c.fieldX true), chosen c.fieldX with
    | some x, some y, some w => if w.alternate then none else some (x, y)
    | _, _, _ => none
  else
    match chosen c.fieldX, chosen c.fieldY with
    | some x, some y =>
      let gap := max x.acqNew y.acqNew - min x.acqNew y.acqNew
      if gap ≤ c.skew ∧ !(c.type.testBit 3 && (x.alternate || y.alternate)) then some (x, y) else none
    | _, _ => none

/-- What an evaluation finds (R403, R404): whether out of band, its MARGIN, the values, whether it is a gap. -/
structure PairResult where
  out : Bool
  margin : Nat
  x : Int
  y : Int
  gap : Bool

/-- The comparison of two values (R402, R403); none where an absent value makes it no evaluation. -/
def comparePair (c : ComparePair) (vx vy : Nat) : Option PairResult :=
  let x := typeValue c.type vx
  let y := typeValue c.type vy
  let nx : Bool := vx = noValue c.type
  let ny : Bool := vy = noValue c.type
  if nx && ny then some ⟨false, 0, x, y, false⟩
  else if nx || ny then (if c.type.testBit 4 then none else some ⟨true, 0xFFFFFFFF, x, y, false⟩)
  else
    let d := (x - y).natAbs
    let b := c.bandAbs + c.bandRel * max x.natAbs y.natAbs / 65536
    let m := if b = 0 then (if d = 0 then 0 else 0xFFFFFFFF) else min 0xFFFFFFFF (d * 65536 / b)
    some ⟨b < d, m, x, y, false⟩

/-- The combination of two writes (R402). -/
def comboOf (x y : RecWrite) : Bool × Nat × Bool × Nat := (x.alternate, x.acqNew, y.alternate, y.acqNew)

/-- The evaluation of a pair in record `k`, if it has one, with the combination it uses (R402, R404). -/
def State.evaluate (s : State) (r : RunSet) (k : Nat) (cs : List Choice) (i : Nat) (c : ComparePair) :
    Option (PairResult × Option (Bool × Nat × Bool × Nat)) :=
  let p := s.pair i
  let gapped := if c.maxGap ≠ 0 ∧ p.gap = c.maxGap then some (⟨true, 0xFFFFFFFF, 0, 0, true⟩, p.combo) else none
  match s.pairOperands r k cs c with
  | none => gapped
  | some (x, y) =>
    if p.combo = some (comboOf x y) then gapped
    else match comparePair c x.value y.value with
      | some e => some (e, some (comboOf x y))
      | none => gapped

/-- COUNT of a pair over the `n` beats that end at `k` (R407). -/
def PairState.count (p : PairState) (k n : Nat) : Nat := (p.oob.filter fun b => k < b + n).length

/-- The fault record of an out-of-band evaluation (R470). -/
def State.pairFault (s : State) (i : Nat) (e : PairResult) : State :=
  let w (v : Int) : List Nat := [ofInt 64 v % 2 ^ 32, ofInt 64 v / 2 ^ 32]
  if e.gap then s.faultRec .ccp 0x6003 0xFFFFFFFF [i, 0, 0, 0] true
  else s.faultRec .ccp 0x6001 e.margin (w e.x ++ w e.y) true

/-- The units of a pair that get a targeted test (R405): neither disabled nor retired. -/
def State.pairUnits (s : State) (c : ComparePair) : List Nat :=
  (List.range 24).filter fun u => (c.unitsX.testBit u || c.unitsY.testBit u) && !s.disabled u && !s.retired u

/-- What an evaluation does to its pair (R405–R407). -/
def State.applyPair (s : State) (k : Nat) (h : Compare) (i : Nat) (c : ComparePair) (e : PairResult)
    (combo : Option (Bool × Nat × Bool × Nat)) : State :=
  let p := s.pair i
  let s1 := s.wr .ccp CCPP.LAST_MARGIN e.margin i
  if !e.out then s1.setPair i { p with combo := combo, persist := 0, gap := 0, withheld := false, lastEval := some k }
  else
    let q : PairState := { p with combo := combo, oob := k :: p.oob.filter (fun b => k < b + h.window)
                                  persist := p.persist + 1, gap := 0, withheld := true, lastEval := some k }
    let us := s.pairUnits c
    let s2 := ((((s1.setPair i q).pairFault i e).count .ccp CCP.CNT_DISAGREE).count .ccp CCPP.CNT_FAIL 1 i).raise .ccp 0
    let s3 := (us.foldl (fun s u => s.unitBit .ccp CCP.TT_PENDING u true) s2).wantTargeted (us.flatMap unitInst)
    if h.kSafe ≤ q.count k h.window ∨ h.kPersist ≤ q.persist then s3.addCause 5 i us true else s3

/-- The gap count of a pair that was not evaluated, at the end of the beat (R404). -/
def State.countGap (s : State) (i : Nat) (c : ComparePair) (cs : List Choice) : State :=
  let used (f : Nat) : Bool := ((cs[f]?).bind Choice.write?).isSome
  let both : Bool := used c.fieldX && (c.kind = 1 || used c.fieldY)
  let p := s.pair i
  s.setPair i { p with gap := if c.maxGap ≠ 0 && both && !s.plinth.safe then p.gap + 1 else 0 }

/-- What the comparator contributes to a record: pairs evaluated and out of band, worst pair and margin. -/
structure CmpSummary where
  active : Nat
  fail : Nat
  worst : Nat
  margin : Nat

/-- Nothing evaluated. -/
def CmpSummary.zero : CmpSummary := ⟨0, 0, 0, 0⟩

/-- One pair of a record. -/
def State.runPair (s : State) (r : RunSet) (k : Nat) (cs : List Choice) (i : Nat) (c : ComparePair) (m : CmpSummary) :
    State × CmpSummary :=
  match s.evaluate r k cs i c with
  | none => (s.countGap i c cs, m)
  | some (e, combo) =>
    (s.applyPair k r.pkg.compare i c e combo,
     { active := m.active + 2 ^ i, fail := m.fail + (if e.out then 2 ^ i else 0)
       worst := if m.active = 0 ∨ m.margin < e.margin then i else m.worst
       margin := if m.active = 0 then e.margin else max m.margin e.margin })

/-- All pairs of a record, in order. -/
def State.runPairs (s : State) (r : RunSet) (k : Nat) (cs : List Choice) : State × CmpSummary :=
  let l := r.pkg.compare.pairs
  (l.zip (List.range l.length)).foldl (fun x c => x.1.runPair r k cs c.2 c.1 x.2) (s, CmpSummary.zero)

/-- The pair that withholds a field, if any (R405, R406): the one with the lowest number. -/
def State.withholder (s : State) (r : RunSet) (was : List PairState) (f : Nat) : Option ComparePair :=
  let l := r.pkg.compare.pairs
  ((l.zip (List.range l.length)).find? fun c =>
    (was.getD c.2 PairState.fresh).withheld && (s.pair c.2).withheld
      && (c.1.fieldX = f || (c.1.kind ≠ 1 && c.1.fieldY = f))).map (·.1)

/-- A byte range of a list. -/
def PairKeep (a b : List Byte) (i : Nat) : Bool :=
  a.take 16 = b.take 16 ∧ slice a (16 + 32 * i) 32 = slice b (16 + 32 * i) 32 ∧ 16 + 32 * (i + 1) ≤ a.length

/-- The CCP and AGM pages show a set's pairs and fields, or zeros (R418, R419). -/
def State.showSet (s : State) (p : Option Package) : State :=
  let ps : List ComparePair := match p with | some p => p.compare.pairs | none => []
  let fs : List PayloadField := match p with | some p => p.sec.payload | none => []
  let h : Nat × Nat × Nat × Nat := match p with
    | some p => (p.compare.kDeg, p.compare.kSafe, p.compare.window, p.compare.kPersist) | none => (2, 4, 16, 3)
  let s1 := (((s.wr .ccp CCP.N_PAIRS ps.length).wr .ccp CCP.K_DEG h.1).wr .ccp CCP.K_SAFE h.2.1).wr .ccp CCP.N_WIN h.2.2.1
  let s2 := s1.wr .ccp CCP.K_PERSIST h.2.2.2
  let pair (s : State) (i : Nat) : State :=
    let g (f : ComparePair → Nat) : Nat := match ps[i]? with | some c => f c | none => 0
    let s1 := (((s.wr .ccp CCPP.KIND (g (·.kind)) i).wr .ccp CCPP.FIELD_X (g (·.fieldX)) i).wr .ccp CCPP.FIELD_Y (g (·.fieldY)) i).wr .ccp CCPP.TYPE (g (·.type)) i
    let s2 := ((s1.wr .ccp CCPP.BAND_ABS_LO (g (·.bandAbs) % 2 ^ 32) i).wr .ccp CCPP.BAND_ABS_HI (g (·.bandAbs) / 2 ^ 32) i).wr .ccp CCPP.BAND_REL (g (·.bandRel)) i
    (s2.wr .ccp CCPP.SKEW (g (·.skew)) i).wr .ccp CCPP.MAX_GAP (g (·.maxGap)) i
  let fld (s : State) (f : Nat) : State :=
    let g (h : PayloadField → Nat) : Nat := match fs[f]? with | some x => h x | none => 0
    let s1 := ((s.wr .agm AGMF.BOUND (g (·.bound)) f).wr .agm AGMF.OFFSET (g (·.off)) f).wr .agm AGMF.LENGTH (g (·.len)) f
    ((s1.wr .agm AGMF.AGE_LAST 0 f).wr .agm AGMF.ALT_USED 0 f).wr .agm AGMF.WITHHELD 0 f
  (List.range 32).foldl fld ((List.range 16).foldl pair s2)

/-- The first record of another set, or of none (R408): pairs whose header and entry stay the same keep their state over
a swap; every other starts anew. -/
def State.enterSet (s : State) (r : Option RunSet) (swapped : Bool) : State :=
  let key := match r with | some x => x.key | none => 0
  if key = s.plinth.chosenSet then s
  else
    let b : List Byte := match r with | some x => x.pkg.compareBytes | none => []
    let keep (i : Nat) : PairState := if swapped && PairKeep s.plinth.compareBytes b i then s.pair i else PairState.fresh
    let s1 : State := { s with plinth := { s.plinth with chosenSet := key, compareBytes := b, pairs := (List.range 16).map keep } }
    s1.showSet (r.map (·.pkg))

/-- The CCP page shows the pairs' counts (R418). -/
def State.showPairs (s : State) (k n : Nat) : State :=
  let s1 := s.wr .ccp CCP.WITHHELD (ofBits 16 fun i => (s.pair i).withheld)
  (List.range 16).foldl (fun s i =>
    let p := s.pair i
    ((s.wr .ccp CCPP.COUNT (min 255 (p.count k n)) i).wr .ccp CCPP.PERSIST_RUN (min 15 p.persist) i).wr .ccp CCPP.GAP
      (min 65535 (match p.lastEval with | some b => k - b | none => 0)) i) s1

/-! ### Result age (R409, R14) -/

/-- The AGM's pass over one field of record `k`. -/
def State.ageField (s : State) (k f : Nat) (pf : PayloadField) (c : Choice) (withheld : Bool) : State :=
  match c with
  | .used w =>
    let a := k - w.acqOld
    let s1 := ((s.wr .agm AGMF.AGE_LAST (min a 65535) f).wr .agm AGMF.ALT_USED (b2n w.alternate) f).wr .agm AGMF.WITHHELD (b2n withheld) f
    let s2 := s1.wr .agm AGM.AGE_MAX (max (s1.rd .agm AGM.AGE_MAX) (min a 65535))
    if pf.bound < a then s2.count .agm AGMF.CNT_LATE_F 1 f else s2
  | .failed _ | .noWrite => (s.wr .agm AGMF.ALT_USED 0 f).wr .agm AGMF.WITHHELD (b2n withheld) f

/-- A field is late. -/
def lateField (k : Nat) (pf : PayloadField) (c : Choice) : Bool :=
  match c with | .used w => pf.bound < k - w.acqOld | .failed _ | .noWrite => false

/-- AGE (R14): beats since the oldest strip that contributes; free where none does (log 16). -/
def recordAge (k : Nat) (cs : List Choice) : Nat :=
  match minNat? (cs.filterMap fun c => c.write?.map (·.acqOld)) with
  | some a => min 65535 (k - a)
  | none => Config.openValue 4 [k] % 65536

/-! ### Reasons -/

/-- The verdict of a reason code (the table of chapter 01). -/
def verdictOf (code : Nat) : Nat :=
  if code = 0 then 1 else if code < 0x10 then 4 else if code < 0x20 then 3 else if code < 0x30 then 2 else 1

/-- The lowest code whose condition holds, with its lowest detail (R15). -/
def pickReason (l : List (Nat × Nat)) : Nat × Nat :=
  l.foldl (fun b c => if b.1 = 0 ∨ c.1 < b.1 ∨ (c.1 = b.1 ∧ c.2 < b.2) then c else b) (0, 0xFF)

/-- The camera ports in use that are in framing lost for an acquisition beat (R119). -/
def State.lostPorts (s : State) (r : RunSet) (a : Nat) : List Nat :=
  let used (n : Nat) : Bool := r.pkg.sec.streams.any fun d => s.cps CPS.PORT d.entry = n
  let lost (n : Nat) : Bool :=
    (match (s.cam n).lost with | some x => x.since ≤ a | none => false)
      || (s.cam n).spans.any fun x => decide (x.1 ≤ a ∧ a < x.2)
  (List.range 12).filter fun n => used n && lost n

/-- The conditions that hold whatever runs. -/
def State.commonConds (s : State) (k : Nat) : List (Nat × Nat) :=
  (if s.odoStale k then [(0x26, 0xFF)] else []) ++ (if s.vtStale k then [(0x33, 0xFF)] else [])
    ++ (if s.latent then [(0x32, 0xFF)] else [])

/-- The condition of reason 0x30: a fallback placement runs, and a core was retired in service. -/
def State.reducedCond (s : State) : List (Nat × Nat) :=
  match s.amt.running with
  | some r => if r.entry ≠ 0 ∧ !r.released then (match s.reduced with | some u => [(0x30, u)] | none => []) else []
  | none => []

/-- The condition of reason 0x22 (R254). -/
def State.retireCond (s : State) (k : Nat) : List (Nat × Nat) :=
  match s.amt.retiring with
  | some r => if r.d ≤ k ∧ k ≤ r.d + 1 then (r.units.map fun u => (0x22, u)) else []
  | none => []

/-- The conditions of a record that has results. -/
def resultConds (k : Nat) (fs : List PayloadField) (cs : List Choice) : List (Nat × Nat) :=
  (fs.zip cs).zip (List.range 32) |>.flatMap fun x =>
    (match x.1.2 with | .failed r => [(r, x.2)] | .noWrite => [(0x11, x.2)] | .used _ => [])
      ++ (if lateField k x.1.1 x.1.2 then [(0x24, x.2)] else [])

end Sys2Proof.Machine
end

