-- ==== Sys2Proof/Machine/Sign.lean ====
section
/-! DEFINITION. Keys, signature blocks, the device's own signatures, the audit log and its checkpoints (chapter 19). -/

namespace Sys2Proof.Machine

/-! ### Keys and signatures -/

/-- The copy of the key block in force: its digest matches and its count is higher (R442). -/
def Store.keyBlock (st : Store) : KeyBlock :=
  if st.keys0.torn then st.keys1
  else if st.keys1.torn then st.keys0
  else if st.keys1.generation > st.keys0.generation then st.keys1 else st.keys0

/-- A change of the key block goes into the copy with the lower count, its count raised (R442). -/
def Store.writeKeyBlock (st : Store) (f : KeyBlock → KeyBlock) : Store :=
  let k := f st.keyBlock
  let n := { k with generation := st.keyBlock.generation + 1, torn := false }
  if st.keyBlock = st.keys0 then { st with keys1 := n } else { st with keys0 := n }

/-- The public key pair of a slot (R437), if the store holds one. -/
def Store.key (st : Store) (slot : Nat) : Option KeyPair :=
  let l := if slot ≤ 3 then st.factory.keys else st.keyBlock.keys
  (l.find? (·.1 = slot)).map (·.2)

/-- Both signatures of a pair verify over a message (R439). -/
def KeyPair.verifies (k : KeyPair) (param : Nat) (msg rsa slh : List Byte) : Bool :=
  Config.rsaVerify k.rsa msg rsa && Config.slhVerify param k.slh msg slh

/-- The length of a signature block with SHA2-128s (R438). -/
def sigBlockLen : Nat := 8248

/-- A signature block of a slot verifies over a message (R438, R439). -/
def Store.verifyBlock (st : Store) (slot : Nat) (block msg : List Byte) : Bool :=
  match st.key slot with
  | none => false
  | some k =>
    block.length = sigBlockLen && field block 0 4 = 0x32474953 && field block 4 1 = slot && field block 5 1 = 1
      && field block 6 2 = 0 && k.verifies 1 msg (slice block 8 384) (block.drop 392)

/-- The identity digest (R440): SHA-256 of bytes 0–511 of the certificate. -/
def Store.idDigest (st : Store) : List Byte := sha256 (st.factory.certificate.take 512)

/-- The device's signature block of slot 0x10 (R438): its two signatures are hedged, so their bytes are free
(log 3). -/
def State.ownBlock (s : State) : List Byte × State :=
  let d := s.drawBytes (384 + 17088)
  (leBytes 4 0x32474953 ++ leBytes 1 0x10 ++ leBytes 1 2 ++ leBytes 2 0 ++ d.1, d.2)

/-! ### The audit log -/

/-- The store changed. -/
def State.setStore (s : State) (st : Store) : State := { s with mgc := { s.mgc with store := st } }

/-- Bytes 0–95 of an audit entry (R451). -/
def auditBody (st : Store) (e : AuditReq) : List Byte :=
  leBytes 8 st.auditNext ++ leBytes 8 e.beat ++ leBytes 4 st.coldStarts ++ leBytes 2 e.kind ++ leBytes 1 e.actor
    ++ leBytes 1 (e.port + 64 * b2n st.auditTorn) ++ leBytes 4 e.result ++ padTo 36 e.data
    ++ (if st.auditNext = 0 then zeros 32 else st.auditHash)

/-- Entries the entry area holds (R452), and those of one 64 KiB block (R453). -/
def auditArea : Nat := 245760

/-- An entry appended (R451–R453): the oldest block goes when the area is full. -/
def Store.append (st : Store) (e : AuditReq) : Store :=
  let b := auditBody st e
  let h := sha256 b
  let kept := if auditArea ≤ st.audit.length then st.audit.take (auditArea - 512) else st.audit
  { st with audit := (b ++ h) :: kept, auditNext := st.auditNext + 1, auditHash := h, auditTorn := false }

/-- What the newest entry adds to the counts kept with the log (R430, R452): a retirement, kind 0x0070, its unit in the
first data byte; an entry into SERVICE, kind 0x0060 with target 3 in the second, from which retirements count anew. -/
def Store.countEntry (st : Store) (e : AuditReq) : Store :=
  if e.kind = 0x70 then
    let u := field e.data 0 1
    { st with retireCounts := assocSet u (lookupD 0 u st.retireCounts + 1) st.retireCounts }
  else if e.kind = 0x60 ∧ field e.data 1 1 = 3 then { st with serviceSeq := st.auditNext - 1, retireCounts := [] }
  else st

/-- The 128 bytes a checkpoint signs (R452). -/
def State.checkpointBody (s : State) : List Byte :=
  let st := s.mgc.store
  padTo 64 (leBytes 8 (st.auditNext - 1) ++ st.auditHash ++ leBytes 8 s.time.beatNo)
    ++ (List.range 24).flatMap (fun u => leBytes 1 (min 255 (lookupD 0 u st.retireCounts)))
    ++ padTo 40 (leBytes 8 st.serviceSeq)

/-- A checkpoint written into the next of its 113 slots (R452), newest first. -/
def State.writeCheckpoint (s : State) : State :=
  let b := s.checkpointBody
  let g := s.ownBlock
  let st := g.2.mgc.store
  (g.2.setStore { st with checkpoints := (b ++ g.1) :: st.checkpoints.take 112 })

/-- A checkpoint is due: written now, or after the attestation that is being signed (the table after R454); in SCRAPPED no
private key exists to sign one (R446). -/
def State.checkpoint (s : State) : State :=
  if s.lifeCycle = 6 then s
  else if s.mgc.attest.isSome then { s with mgc := { s.mgc with checkpointDue := true } } else s.writeCheckpoint

/-- The MGC and LCS pages show the newest entry and the latest into SERVICE (R455, R456). -/
def State.showAuditSeq (s : State) : State :=
  (s.wr2 .mgc MGC.AUD_SEQ_LO MGC.AUD_SEQ_HI (s.mgc.store.auditNext - 1)).wr2 .lcs LCS.SERVICE_SEQ_LO LCS.SERVICE_SEQ_HI
    s.mgc.store.serviceSeq

/-- An entry programmed (R450–R453): a checkpoint after every 4096th and after each life-cycle change; a torn slot
found before it is reported. -/
def State.program (s : State) (e : AuditReq) : State :=
  let seq := s.mgc.store.auditNext
  let s1 := (s.setStore ((s.mgc.store.append e).countEntry e)).showAuditSeq
  if (seq + 1) % 4096 = 0 ∨ e.kind = 0x60 then s1.checkpoint else s1

/-- AUDIT_PROGRAM_DONE (R450): the oldest entry handed to the MGC has been programmed and what waited for it is sent. -/
def execAuditProgramDone (s : State) : Result :=
  match s.mgc.toProgram with
  | [] => .next s
  | e :: r =>
    let s1 := ({ s with mgc := { s.mgc with toProgram := r } }).program e
    .next (match e.ticket with | some t => s1.releaseTicket t | none => s1)

/-- The Plinth's lost entries as one LOST entry (R450). -/
def State.drainLost (s : State) : State :=
  if s.plinth.auditLost = 0 then s
  else
    let n := s.plinth.auditLost
    let s1 := ({ s with plinth := { s.plinth with auditLost := 0 } }).count .mgc MGC.CNT_AUD_LOST n
    (s1.fault .mgc 0x8041).program
      { beat := s.time.beatNo, kind := 0xF1, actor := 4, port := 128, result := 0, data := leBytes 4 n, ticket := none }

/-- AUDIT_DRAIN (R450): with PD38 ready the MGC appends the Plinth's queue, a LOST entry first after an overflow. -/
def execAuditDrain (s : State) : Result :=
  .next (if s.domainReady 38 then
    let s1 := s.drainLost
    s1.plinth.auditQ.foldl (fun t e => t.program e) { s1 with plinth := { s1.plinth with auditQ := [] } }
  else s)

end Sys2Proof.Machine
end

