-- ==== Sys2Proof/Machine/Package.lean ====
section
/-! DEFINITION. Graph packages: header, directory, node descriptors, comparator pairs and digest selection (R232–R234,
R389, R400, R401), and what a set writes into the device's registers (R250). -/

namespace Sys2Proof.Config

/-- FREE VALUE. What the sections of a package body hold whose contents the spec names without a byte layout (R233:
GRAPHS, PLACEMENTS, STREAMS, CAMCFG, CONTEXTS, WINDOWS, PQ, PAYLOAD, CARRY; log 8). -/
opaque decodeSections : List Byte → Sys2Proof.Machine.Sections

/-- FREE VALUE. What an open task's settings block holds (R245, bytes 32–39), whose layout the spec gives in part only
(log 8). -/
opaque decodeTask : List Byte → Sys2Proof.Machine.TaskSettings

end Sys2Proof.Config

namespace Sys2Proof.Machine

/-! ### Header and directory (R232, R233) -/

/-- The signature blocks take this many bytes after a package's body (R232, R438). -/
def pkgSignatures : Nat := sigBlockLen

/-- Body length of a package. -/
def pkgLen (b : List Byte) : Nat := field b 16 4

/-- The body of a package. -/
def pkgBody (b : List Byte) : List Byte := b.take (pkgLen b)

/-- The header's magic, format version, body length or section count is invalid: refused before any signature (R248). -/
def headerBad (b : List Byte) : Bool :=
  b.length < 64 || field b 0 4 ≠ 0x4B50475A || field b 4 2 ≠ 1 || pkgLen b % 64 ≠ 0 || pkgLen b < 64
    || b.length < pkgLen b + pkgSignatures || 2 ^ 26 < pkgLen b + pkgSignatures || field b 20 4 = 0 || 32 < field b 20 4

/-- A directory entry: type, offset, length, its reserved bytes. -/
structure DirEntry where
  type : Nat
  off : Nat
  len : Nat
  reserved : Nat

/-- The section directory. -/
def directory (b : List Byte) : List DirEntry :=
  (List.range (field b 20 4)).map fun i =>
    let o := 64 + 16 * i
    ⟨field b o 2, field b (o + 4) 4, field b (o + 8) 4, field b (o + 2) 2 + field b (o + 12) 4⟩

/-- Where the section of a type stands in the directory; 0xFF when it is absent. -/
def sectionPos (b : List Byte) (type : Nat) : Nat := ((directory b).findIdx? (·.type = type)).getD 0xFF

/-- The bytes of the section of a type. -/
def sectionBytes (b : List Byte) (type : Nat) : List Byte :=
  match (directory b).find? (·.type = type) with
  | some d => slice b d.off d.len
  | none => []

/-- The position of the first directory entry that breaks R232 or R233. -/
def badSection (b : List Byte) : Option Nat :=
  let ds := directory b
  (ds.zip (List.range ds.length)).findSome? fun x =>
    let d := x.1
    let bad := d.reserved ≠ 0 || d.off % 64 ≠ 0 || d.off < 64 + 16 * ds.length || pkgLen b < d.off + d.len
      || d.type = 0 || 0x0C < d.type || (ds.take x.2).any (·.type = d.type)
    if bad then some x.2 else none

/-- A section that must appear does not (R233). -/
def missingSection (b : List Byte) : Bool := [1, 2, 3, 9].any fun t => sectionPos b t = 0xFF

/-! ### Node descriptors (R234) -/

/-- Unit classes by their code. -/
def classOf (c : Nat) : NodeClass :=
  ([.tensor, .sge, .ofe, .fpeDetect, .fpeMatch, .wpe, .pye, .ife, .recordWrite, .cameraControl] : List NodeClass).getD c
    .cameraControl

/-- A node descriptor of 32 bytes. -/
def parseNode (b : List Byte) : NodeDesc :=
  let a := field b 6 2
  { index := field b 0 2, cls := classOf (field b 2 1), engineCtx := field b 3 1, step := toInt 8 (field b 4 1)
    perFrame := (field b 5 1).testBit 0, mayVary := (field b 5 1).testBit 1
    anchor := if a.testBit 15 then .node (a % 32768) else .stream (a % 4)
    start := field b 8 4, flag := field b 12 4, lane := field b 16 2, inFlag := field b 18 2, inCount := field b 20 1
    outCount := field b 21 1, outFlag := field b 22 2, cmdAddr := field b 24 8 }

/-- A node descriptor breaks what R234 says of any node: class, reserved bits, counts. -/
def nodeFieldsBad (b : List Byte) : Bool :=
  9 < field b 2 1 || 4 ≤ field b 5 1 || 8 < field b 20 1 || 8 < field b 21 1

/-- The node descriptor of a set breaks R234: also its index, or an anchor that is none. -/
def nodeBytesBad (b : List Byte) (i n : Nat) : Bool :=
  let a := field b 6 2
  field b 0 2 ≠ i || nodeFieldsBad b || (if a.testBit 15 then n ≤ a % 32768 else 4 ≤ a)

/-- The bytes of the node descriptors. -/
def nodeChunks (b : List Byte) : List (List Byte) :=
  let x := sectionBytes b 2
  (List.range (x.length / 32)).map fun i => slice x (32 * i) 32

/-! ### Comparator pairs (R400, R401) and digest selection (R389) -/

/-- A value of the COMPARE header, 0 standing for its default. -/
def orDefault (v d : Nat) : Nat := if v = 0 then d else v

/-- An entry of the COMPARE section. -/
def parsePair (b : List Byte) : ComparePair :=
  { kind := field b 0 1, fieldX := field b 1 1, fieldY := field b 2 1, type := field b 3 1, unit := field b 4 2
    maxGap := field b 6 2, bandAbs := field b 8 8, bandRel := field b 16 2, skew := field b 18 2
    unitsX := field b 20 4, unitsY := field b 24 4 }

/-- The entries of the COMPARE section as bytes. -/
def pairChunks (b : List Byte) : List (List Byte) :=
  (List.range (field b 0 1)).map fun i => slice b (16 + 32 * i) 32

/-- The COMPARE section; absent, it has no pair. -/
def parseCompare (b : List Byte) : Compare :=
  { kDeg := orDefault (field b 1 1) 2, kSafe := orDefault (field b 2 1) 4, window := orDefault (field b 3 1) 16
    kPersist := orDefault (field b 4 1) 3, pairs := (pairChunks b).map parsePair }

/-- TYPE of a pair matches the length of a payload field. -/
def typeFits (t : Nat) (f : PayloadField) : Bool := 8 * f.len = typeBits (t % 8)

/-- A pair breaks R400 or R401. -/
def pairBad (b : List Byte) (fs : List PayloadField) : Bool :=
  let p := parsePair b
  let fit (i : Nat) : Bool := match fs[i]? with | some f => typeFits p.type f | none => false
  let reserved : Bool := p.type % 8 > 4 || 32 ≤ p.type || field b 28 4 ≠ 0 || 2 ^ 24 ≤ p.unitsX || 2 ^ 24 ≤ p.unitsY
    || p.unit = 0 || 4 < p.unit
  reserved || !fit p.fieldX ||
    (if p.kind = 1 then p.fieldY ≠ 0xFF || (match fs[p.fieldX]? with | some f => f.alternate.isNone | none => true)
     else p.kind ≠ 2 || !fit p.fieldY)

/-- The COMPARE section breaks R400 or R401. -/
def compareBad (b : List Byte) (fs : List PayloadField) : Bool :=
  let c := parseCompare b
  let es := pairChunks b
  b ≠ [] && (b.length < 16 || 16 < field b 0 1 || b.length < 16 + 32 * field b 0 1
    || leNat (slice b 5 11) ≠ 0 || c.kDeg = 0 || c.kSafe ≤ c.kDeg || c.window < c.kSafe || c.window < 2 || 64 < c.window
    || c.kPersist < 2 || 8 < c.kPersist || es.any (pairBad · fs) || es.eraseDups.length ≠ es.length)

/-- The entries of the DIGESTS section. -/
def digestChunks (b : List Byte) : List (List Byte) := (List.range (b.length / 8)).map fun i => slice b (8 * i) 8

/-- The first entry of DIGESTS that breaks R389: the node it names. -/
def badDigest (b : List Byte) (n : Nat) : Option Nat :=
  let es := digestChunks b
  let bad (x : List Byte × Nat) : Bool :=
    let e := x.1
    n ≤ field e 0 2 || 2 ≤ field e 2 1 || field e 3 1 ≠ 0 || field e 4 4 = 0
      || (es.take x.2).any fun d => field d 0 2 = field e 0 2
  if b.length % 8 ≠ 0 || 512 < es.length then some 0xFFFF
  else ((es.zip (List.range es.length)).find? bad).map fun x => field x.1 0 2

/-! ### The package -/

/-- A package read from its bytes. -/
def parsePackage (b : List Byte) : Package :=
  { gset := field b 6 2, latency := field b 10 2, fwMin := field b 12 4, bodyDigest := slice b 24 32, placementPos := sectionPos b 3
    nodes := (nodeChunks b).map parseNode
    compare := parseCompare (sectionBytes b 0x0A), compareBytes := sectionBytes b 0x0A
    logged := (digestChunks (sectionBytes b 0x0B)).filterMap fun e =>
      if (field e 2 1).testBit 0 then some (field e 0 2, field e 4 4) else none
    sec := Config.decodeSections (pkgBody b) }

/-- The unit of a node in an entry. -/
def Package.unitOf (p : Package) (e i : Nat) : Nat :=
  match p.entry? e with
  | some pl => pl.units.getD i 0xFF
  | none => 0xFF

/-- The strip height of a stream of the set, 16 where no graph gives one (chapter 01). -/
def Package.heightOf (p : Package) (stream : Nat) : Nat :=
  ((p.sec.graphs.find? fun g => stream ∈ g.streams).map (·.stripHeight)).getD 16

/-- The stream description of an entry. -/
def Package.streamOf (p : Package) (entry : Nat) : Option StreamDesc := p.sec.streams.find? (·.entry = entry)

/-! ### Settings (R250) -/

/-- The offset of a context's words in its page, and from one context to the next. -/
def Page.ctxWords : Page → Nat × Nat
  | .cpx => (0x200, 0x20)
  | .ife | .pye _ => (0x100, 0x40)
  | .sge _ => (0x100, 0x100)
  | .str _ => (0x100, 0x20)
  | .ofe _ | .fpe _ | .wpe _ => (0x100, 0x80)
  | .dev | .clk | .pdc | .rstc | .lcs | .opl | .pmc | .pln | .ccp | .agm | .rsp | .hlk _ | .mc | .mmu | .mcg _ | .bod
  | .amt | .dig | .mgc | .clu _ | .tc _ | .vis _ | .cmem _ | .spm _ | .eng _ _ => (0, 0)

/-- A setting written: word offset from the context's words, low bit, width, value. In a front end context offsets from
0x200 on name the words of the privileged slots (R154); the matcher's words are context 2 of its page. -/
def State.writeField (s : State) (p : Page) (k : Nat) (x : Nat × Nat × Nat × Nat) : State :=
  let w := match p with
    | .ife => if 0x200 ≤ x.1 then 0x100 + x.1 else 0x100 + 0x40 * k + x.1
    | .fpe _ => if k = 2 then 0x200 + x.1 else 0x100 + 0x80 * k + x.1
    | _ => p.ctxWords.1 + p.ctxWords.2 * k + x.1
  match p.fields.find? fun f => f.acc = .rws && f.lo = x.2.1 && (f.indexAt w).isSome with
  | some f => match f.indexAt w with
    | some (i, j) => s.wr p f x.2.2.2 i j
    | none => s
  | none => s

/-- The settings of a context written. -/
def State.writeFields (s : State) (p : Page) (k : Nat) (l : List (Nat × Nat × Nat × Nat)) : State :=
  l.foldl (fun s x => s.writeField p k x) s

/-- EN of a context written. -/
def State.enableCtx (s : State) (p : Page) (k v : Nat) : State := s.writeField p k (0, if p = .cpx then 31 else 0, 1, v)

/-- The page and number of a node's context on its cluster; the front end's has none. -/
def NodeDesc.ctxOn (d : NodeDesc) (c : Nat) : Option (Page × Nat) :=
  match d.cls with
  | .ife => some (.ife, d.engineCtx)
  | .fpeMatch => some (.fpe c, 2)
  | _ => (d.page c).map fun p => (p, d.engineCtx)

/-- The pages an entry writes, each with a context and its settings. -/
def Package.settings (p : Package) (e : Nat) : List (Page × Nat × List (Nat × Nat × Nat × Nat)) :=
  p.sec.contexts.filterMap fun c => (p.node? c.node).bind fun d =>
    (d.ctxOn (p.unitOf e c.node / 4)).map fun x => (x.1, x.2, c.fields)

/-- The stream entries written: settings, then EN. -/
def State.writeStreams (s : State) (l : List StreamDesc) : State :=
  l.foldl (fun s d => (s.writeFields .cpx d.entry d.fields).enableCtx .cpx d.entry 1) s

/-- The contexts of a set written for a placement entry. -/
def State.writeContexts (s : State) (p : Package) (e : Nat) : State :=
  (p.settings e).foldl (fun s x => (s.writeFields x.1 x.2.1 x.2.2).enableCtx x.1 x.2.1 1) s

/-- The stream channels of a set written, each for the node it serves. -/
def State.writeChannels (s : State) (p : Package) (e : Nat) : State :=
  p.sec.channels.foldl (fun s c =>
    let u := if p.unitOf e c.node < 24 then p.unitOf e c.node else c.unit
    let s1 := (s.writeFields (.str u) c.number c.fields).enableCtx (.str u) c.number 1
    s1.setChan { s1.chan u c.number with node := some c.node }) s

/-- The entries and regions of the directory that a set declares (R320). -/
def State.writeBod (s : State) (b : BodDesc) : State :=
  let s1 := b.entries.foldl (fun s e => s.bodStore e.1 (putBits e.2 8 1 1)) s
  b.regions.foldl (fun s r =>
    (((((((s.wr .bod BODR.BASE_ENTRY r.2.1 r.1).wr .bod BODR.BLOCK_LOG2 r.2.2.1 r.1).wr .bod BODR.GRID0 r.2.2.2.1 r.1).wr
      .bod BODR.GRID1 r.2.2.2.2.1 r.1).wr .bod BODR.GRID2 r.2.2.2.2.2 r.1).wr .bod BODR.EN 1 r.1).wr .bod BODR.LOCKED 1 r.1)) s1

/-- The pinned windows filled from the package (R248). -/
def State.fillWindows (s : State) (b : List Byte) (ws : List WindowDesc) : State :=
  ws.foldl (fun s w => s.store w.addr (slice b w.content w.contentLen)) s

/-- The pages that a set's settings touch. -/
def Package.pages (p : Package) (e : Nat) : List Page :=
  .cpx :: .bod :: ((p.settings e).map (·.1) ++ p.sec.channels.map fun c => .str (p.unitOf e c.node))

/-- Everything that an entry of a set writes (R250). -/
def State.writeSet (s : State) (p : Package) (e : Nat) : State :=
  (((s.writeStreams p.sec.streams).writeContexts p e).writeChannels p e).writeBod p.sec.bod

end Sys2Proof.Machine
end

