-- ==== Sys2Proof/Machine/Load.lean ====
section
/-! DEFINITION. The checks of a load (R249), each over the state that the set's settings and windows would give. -/

namespace Sys2Proof.Machine

/-- A refusal: its code, the position of the section, the node (R249). -/
abbrev Refused := Option (Nat × Nat × Nat)

/-- The REFUSAL_DETAIL of a failure (R249). -/
def refusalDetail (section_ node : Nat) : Nat := 65536 * section_ + node

/-- A load being checked: its bytes, the package, the placement entry chosen, and the state its settings and windows would
give, with no core running anything. -/
structure Trial where
  bytes : List Byte
  pkg : Package
  entry : Nat
  st : State

/-- Refused for the section of a type, or for the header (type 0), naming a node. -/
def failAt (b : List Byte) (code type : Nat) (node : Nat := 0xFFFF) : Refused :=
  some (code, if type = 0 then 0xFF else sectionPos b type, node)

/-- Refused when a condition holds. -/
def failIf (bad : Bool) (b : List Byte) (code type : Nat) : Refused := if bad then failAt b code type else none

/-- Refused for the first node of a package that fails. -/
def failNode (p : Package) (bad : NodeDesc → Bool) (b : List Byte) (code type : Nat) : Refused :=
  match p.nodes.find? bad with
  | some d => failAt b code type d.index
  | none => none

/-- The first refusal of a list of checks. -/
def firstFail (l : List (Unit → Refused)) : Refused := l.findSome? fun f => f ()

/-! ### Queries of a package -/

/-- Clocks from the admission of the anchor strip to a node's flag, through its chain of producers (R231). -/
def Package.offsetOf (p : Package) : Nat → Nat → Nat
  | 0, _ => 0
  | n + 1, i => match p.node? i with
    | none => 0
    | some d => match d.anchor with
      | .stream _ => d.flag
      | .node j => p.offsetOf n j + d.flag

/-- The driving stream of a node, through its chain (R229). -/
def Package.root (p : Package) (i : Nat) : Option Nat := ((p.drivenBy 4096 i).map (·.1))

/-- The least interval between successive anchors of a node, in clocks (R241). -/
def Trial.interval (t : Trial) (d : NodeDesc) : Nat :=
  match t.pkg.drivenBy 4096 d.index with
  | none => 0
  | some (e, frame) =>
    let per := ((t.pkg.streamOf e).map (·.period)).getD 0
    let sh := t.pkg.heightOf e
    if frame then per * 2500
    else if t.st.cps CPS.LINESCAN e = 1 then sh * per * 2500
    else sh * t.st.cps CPS.ROW_CLKS e / 2500 * 2500

/-- A node is placed in an entry. -/
def Placement.places (q : Placement) (i : Nat) : Bool := q.units.getD i 0xFF ≠ 0xFF

/-- A range lies in the set's pinned windows. -/
def Package.inWindow (p : Package) (a n : Nat) : Bool := p.sec.windows.any fun w => w.addr ≤ a && a + n ≤ w.addr + w.size

/-- What a stage inside a chain takes for its input when only its checks matter. -/
def givenStage (inside : Bool) : Option (List Nat × StageOut) :=
  if inside then some ([1, 1, 1, 1, 1, 1], StageOut.codes 0 [0]) else none

/-- The commands of a locked tensor node, each as it would issue, with nothing else running; a stage inside a chain has an
input of its own. -/
def Trial.issues (t : Trial) (d : NodeDesc) : List Issue :=
  let cs := t.st.cmdsOf d
  (cs.zip (List.range cs.length)).map fun x =>
    let inside : Bool := match cs[x.2 - 1]? with | some c => 0 < x.2 && c.chain | none => false
    let n : CoreNode :=
      { slot := 0, locked := true, gset := 0, ctx := 0, node := d.index, strip := 0, cmd := x.2, busy := false
        stage := givenStage inside, finished := false, reran := false
        needsRerun := false, dead := false, waiting := none, waitSince := 0, poison := none, noRerun := false
        combined := false, digest := Digest.start 0 }
    ⟨t.pkg.unitOf t.entry d.index, n, d, cs, x.1⟩

/-- What a command of a locked set fails for at load: 0x03, 0x06 or 0x0D (R266, R278, R282, R306, R316). -/
def Trial.cmdCode (t : Trial) (x : Issue) : Option Nat :=
  if x.c.cls = 0xC ∧ x.c.op = 0 then some 3
  else if x.n.stage.isSome ∧ x.c.cls = 2 then none
  else match t.st.issueFault x with
    | none => none
    | some f => some (if f.code = 0x3031 then 0xD else if f.code = 0x4040 ∨ f.code = 0x3032 then 6 else 3)

/-- A placed tensor node. -/
def Trial.tensor (t : Trial) (d : NodeDesc) : Bool := d.cls = .tensor && t.pkg.unitOf t.entry d.index < 24

/-- Some command of a node fails with a code. -/
def Trial.cmdFails (t : Trial) (code : Nat) (d : NodeDesc) : Bool :=
  t.tensor d && (t.issues d).any fun x => t.cmdCode x = some code

/-! ### 0x03 FORMAT (R232–R236, R400, R401, R389, R158, R266) -/

/-- The graphs of a set: 1–8, each with 1–4 driving streams of the set and nodes of the set, a strip height of the four. -/
def Package.graphsBad (p : Package) : Bool :=
  p.sec.graphs = [] || 8 < p.sec.graphs.length || p.sec.graphs.any fun g =>
    g.streams = [] || 4 < g.streams.length || !(g.stripHeight ∈ [8, 16, 32, 64])
      || p.nodes.length < g.firstNode + g.nodeCount || g.streams.any fun e => (p.streamOf e).isNone

/-- A node belongs to no graph, its anchor is no driving stream of the graph, or its chain of anchors has no end
(R229). -/
def Package.anchorBad (p : Package) (d : NodeDesc) : Bool := (p.drivenBy 4096 d.index).isNone

/-- A unit that may stand for a node (R235). -/
def unitFits (d : NodeDesc) (u : Nat) : Bool :=
  u = 0xFF || match d.cls with
    | .tensor => u < 24 && u % 4 ≠ 3
    | .sge | .ofe | .fpeDetect | .fpeMatch | .wpe | .pye => u < 24 && u % 4 = 3
    | .ife | .recordWrite | .cameraControl => u = 0xFE

/-- A payload field breaks R236. -/
def Package.fieldBad (p : Package) (f : PayloadField) : Bool :=
  !(f.len ∈ [2, 4, 8]) || f.off < 28 || 96 < f.off + f.len || p.nodes.length ≤ f.primary
    || (match f.alternate with | some a => decide (p.nodes.length ≤ a) | none => false)

/-- Two payload fields overlap. -/
def fieldsMeet (l : List PayloadField) : Bool :=
  (l.zip (List.range l.length)).any fun x => (l.take x.2).any fun g => x.1.off < g.off + g.len && g.off < x.1.off + x.1.len

/-- The engine contexts of the set break the rules that their pages' commits check (R126, R158, R180, R205, R206,
R220). -/
def Trial.engineBad (t : Trial) (d : NodeDesc) : Bool :=
  let u := t.pkg.unitOf t.entry d.index
  let c := u / 4
  match d.cls with
  | .ife => 8 ≤ d.engineCtx || t.st.ifeRules d.engineCtx ≠ []
  | .sge => u < 24 && (4 ≤ d.engineCtx || t.st.sgeRules c d.engineCtx ≠ [])
  | .ofe => u < 24 && (2 ≤ d.engineCtx || t.st.ofeRules c d.engineCtx ≠ [])
  | .fpeDetect => u < 24 && (2 ≤ d.engineCtx || t.st.fpeRules c d.engineCtx ≠ [])
  | .wpe => u < 24 && (4 ≤ d.engineCtx || t.st.wpeRules c d.engineCtx false ≠ [])
  | .pye => u < 24 && (4 ≤ d.engineCtx || t.st.pyeRules c d.engineCtx ≠ [])
  | .tensor | .fpeMatch | .recordWrite | .cameraControl => false

/-- A command list without an END among its words. -/
def Trial.endless (t : Trial) (d : NodeDesc) : Bool :=
  t.tensor d && !((t.st.cmdsOf d).any (·.last))

/-- A locked list holds an invalid block descriptor (R372). -/
def Trial.listBad (t : Trial) (c : ChannelDesc) : Bool :=
  let u := if t.pkg.unitOf t.entry c.node < 24 then t.pkg.unitOf t.entry c.node else c.unit
  (List.range c.count).any fun i => (t.st.blockAt ⟨c.addr, c.count⟩ i).invalid (t.st.ringSlot (t.st.chanRing u c.number))

/-- Checks of the bytes that name no section contents: header fields and the directory. -/
def formatHeader (b : List Byte) : Refused :=
  if field b 6 2 = 0 ∨ field b 56 8 ≠ 0 then failAt b 3 0
  else match badSection b with
    | some i => some (3, i, 0xFFFF)
    | none => failIf (missingSection b) b 3 0

/-- Code 0x03 for what can be told without a placement. -/
def formatFail (b : List Byte) (p : Package) : Refused :=
  firstFail
    [fun _ => formatHeader b,
     fun _ => failIf p.graphsBad b 3 1,
     fun _ => failIf ((sectionBytes b 2).length % 32 ≠ 0 || 4096 < p.nodes.length || p.nodes = []) b 3 2,
     fun _ => ((nodeChunks b).zip (List.range p.nodes.length)).findSome? fun x =>
       if nodeBytesBad x.1 x.2 p.nodes.length then failAt b 3 2 x.2 else none,
     fun _ => failNode p p.anchorBad b 3 2,
     fun _ => failIf (256 < p.sec.placements.length || p.sec.placements.any fun q => q.units.length ≠ p.nodes.length) b 3 3,
     fun _ => failNode p (fun d => p.sec.placements.any fun q => !unitFits d (q.units.getD d.index 0xFF)) b 3 3,
     fun _ => failIf (p.sec.streams.any (fun d => 32 ≤ d.entry) || !(p.sec.streams.map (·.entry)).Nodup) b 3 4,
     fun _ => failIf (p.sec.camcfg.any fun c => 12 ≤ c.1 || 2048 < c.2.length || c.2.any fun x => !tunnelOk x) b 3 5,
     fun _ => failIf (p.sec.contexts.any fun c => (p.node? c.node).isNone) b 3 6,
     fun _ => failIf (32 < p.sec.payload.length || p.sec.payload.any p.fieldBad || fieldsMeet p.sec.payload) b 3 9,
     fun _ => failIf (compareBad (sectionBytes b 0xA) p.sec.payload) b 3 0xA,
     fun _ => match badDigest (sectionBytes b 0xB) p.nodes.length with
       | some n => failAt b 3 0xB n
       | none => none,
     fun _ => failIf (8 < p.sec.carry.length) b 3 0xC]

/-- Code 0x03 for what depends on the settings and windows. -/
def Trial.formatFail (t : Trial) : Refused :=
  firstFail
    [fun _ => failNode t.pkg t.engineBad t.bytes 3 6,
     fun _ => failNode t.pkg (fun d => t.endless d || t.cmdFails 3 d) t.bytes 3 2,
     fun _ => (t.pkg.sec.channels.find? t.listBad).bind fun c => failAt t.bytes 3 4 c.node]

/-! ### 0x06 SCRATCH, 0x07 LINEMEM, 0x08 IFE -/

/-- Byte ranges of a descriptor, as device addresses. -/
def State.issueRanges (s : State) (x : Issue) (ref : Nat) : List (Nat × Nat) :=
  if ref = 0 then [] else
  let d := s.descAt x.desc.cmdAddr ref
  d.rows.map fun r => (spaceBase x.u d.space + r.1, r.2)

/-- What a command reads: its inputs, and C where it accumulates. -/
def State.issueReads (s : State) (x : Issue) : List (Nat × Nat) :=
  let c := x.c
  s.issueRanges x c.dA ++ s.issueRanges x c.dB ++ (if c.cls = 0xA then [] else s.issueRanges x c.dSA) ++ s.issueRanges x c.dSB
    ++ (if c.acc then s.issueRanges x c.dC else [])

/-- What a command writes. -/
def State.issueWrites (s : State) (x : Issue) : List (Nat × Nat) :=
  s.issueRanges x x.c.dC ++ (if x.c.cls = 0xA then s.issueRanges x x.c.dSA else [])

/-- A range is covered by ranges; at most `n` steps. -/
def covered (l : List (Nat × Nat)) : Nat → Nat → Nat → Bool
  | _, _, 0 => true
  | 0, _, _ => false
  | k + 1, a, n => match l.find? fun r => r.1 ≤ a && a < r.1 + r.2 with
    | some r => covered l k (r.1 + r.2) (n - (r.1 + r.2 - a))
    | none => false

/-- A device address lies in a DETECT segment (R334). -/
def State.detectAt (s : State) (a : Nat) : Bool :=
  match s.place a with
  | .spm u o => (s.rd (.spm u) SPM.PROT).testBit (o / 65536)
  | .cmem c o =>
    if o / 65536 < 32 then (s.rd (.cmem c) CMEM.PROT_LO).testBit (o / 65536) else (s.rd (.cmem c) CMEM.PROT_HI).testBit (o / 65536 - 32)
  | _ => false

/-- A range meets DETECT memory, which is laid out in segments of 64 KiB. -/
def State.detectIn (s : State) (r : Nat × Nat) : Bool :=
  0 < r.2 && (List.range (r.2 / 65536 + 2)).any fun k => s.detectAt (r.1 + min (65536 * k) (r.2 - 1))

/-- Two lists of ranges share a byte. -/
def rangesMeet (a b : List (Nat × Nat)) : Bool := a.any fun x => b.any fun y => x.1 < y.1 + y.2 && y.1 < x.1 + x.2

/-- The commands of a node read DETECT memory. -/
def State.listDetects (s : State) (l : List Issue) : Bool := l.any fun x => (s.issueReads x).any s.detectIn

/-- The commands of a node read DETECT memory and break R337, the reservation apart: a byte read from it that the node has not
written, a byte written that the node read before writing it, a shared combine, or a SCATTER that combines. -/
def State.listRerunBad (s : State) (l : List Issue) : Bool :=
  s.listDetects l &&
    (let before (i : Nat) : List (Nat × Nat) := (l.take i).flatMap s.issueWrites
     (l.zip (List.range l.length)).any fun x =>
       let w := before x.2
       let early (y : Issue × Nat) : List (Nat × Nat) :=
         (s.issueReads y.1).filter fun r => !covered (before y.2) 64 r.1 r.2
       (s.issueReads x.1).any (fun r => s.detectIn r && !covered w 64 r.1 r.2)
         || rangesMeet (s.issueWrites x.1) ((l.zip (List.range (x.2 + 1))).flatMap early)
         || (x.1.c.shared && (x.1.c.combine ≠ 0 || x.1.c.acc)) || (x.1.c.cls = 8 && x.1.c.op = 1 && x.1.c.combine ≠ 0))

/-- A node reads DETECT memory. -/
def Trial.readsDetect (t : Trial) (d : NodeDesc) : Bool := t.tensor d && t.st.listDetects (t.issues d)

/-- A node that reads DETECT memory breaks R337, its reservation apart. -/
def Trial.rerunBad (t : Trial) (d : NodeDesc) : Bool := t.tensor d && t.st.listRerunBad (t.issues d)

/-- Segments of scratchpads and cluster memories beyond their capacity (R331, R333). -/
def Trial.segsBad (t : Trial) (q : Placement) : Bool :=
  q.spmSegs.any (fun x => 24 ≤ x.1 || 32 ≤ x.2)
    || q.cmemSegs.any fun x => 6 ≤ x.1 || 64 - t.st.cacheSegs x.1 ≤ x.2

/-- Code 0x06. -/
def Trial.scratchFail (t : Trial) : Refused :=
  firstFail
    [fun _ => failIf (t.pkg.sec.placements.any t.segsBad) t.bytes 6 3,
     fun _ => failNode t.pkg (fun d => t.cmdFails 6 d || t.rerunBad d) t.bytes 6 2]

/-- The contexts of a class that the set uses on a cluster. -/
def Trial.ctxs (t : Trial) (cls : NodeClass) (c : Nat) : List Nat :=
  ((t.pkg.nodes.filter fun d => d.cls = cls && t.pkg.onCluster t.entry d.index c).map (·.engineCtx)).eraseDups

/-- Line memory of a stereo context (R172). -/
def State.sgeLineMem (s : State) (c k : Nat) : Nat :=
  let w := (s.sgeSize c k).1
  6 * w * (32 * 2 ^ s.rd (.sge c) SGX.WIN k) + 40 * w

/-- Line memory of a flow context (R189). -/
def State.ofeLineMem (s : State) (c k : Nat) : Nat :=
  ((rowRange (s.rd (.ofe c) OFX.LEV_OUT k) (s.rd (.ofe c) OFX.LEV_TOP k + 1)).map fun l =>
    456 * ceilDiv (ceilDiv (s.ofeSize c k).1 (2 ^ l)) 2).sum

/-- Line memory of a detection context (R203). -/
def State.fpeLineMem (s : State) (c k : Nat) : Nat := 96 * ceilDiv (s.fpeSize c k).1 2 + 16384

/-- Line memory of a warp context (R218). -/
def State.wpeLineMem (s : State) (c k : Nat) : Nat :=
  (2 * (8 * 2 ^ s.rd (.wpe c) WPX.VBOUND k) + 4) * (s.wpeSize c k).1 * 2

/-- Line memory of a pyramid context (R225). -/
def State.pyeLineMem (s : State) (c k : Nat) : Nat :=
  ((List.range (s.rd (.pye c) PYX.TOP k)).map fun (l : Nat) =>
    (12 + 16 * s.rd (.pye c) PYX.LAP_EN k) * ceilDiv (s.pyeSize c k).1 (2 ^ l)).sum

/-- The line memory of a vision core (R172, R189, R203, R218, R225). -/
def Trial.lineMemory (t : Trial) (c : Nat) : Nat :=
  let s := t.st
  ((t.ctxs .sge c).map (s.sgeLineMem c)).sum + ((t.ctxs .ofe c).map (s.ofeLineMem c)).sum
    + ((t.ctxs .fpeDetect c).map (s.fpeLineMem c)).sum + ((t.ctxs .wpe c).map (s.wpeLineMem c)).sum
    + ((t.ctxs .pye c).map (s.pyeLineMem c)).sum

/-- Code 0x07. -/
def Trial.lineFail (t : Trial) : Refused :=
  failIf ((List.range 6).any fun c => 2 ^ 21 < t.lineMemory c) t.bytes 7 6

/-- Clocks a row of a front end context costs (R127). -/
def State.rowCost (s : State) (k : Nat) : Nat := ceilDiv (s.ifeSize k).1 4 + 24

/-- Code 0x08 (R153): totals, and the clocks of a beat with the in-line reservation, the row slots and the test lane. -/
def Trial.ifeFail (t : Trial) : Refused :=
  let s := t.st
  let inline := match s.ifeEnabled.find? (s.ifeInline ·) with
    | some k =>
      let clks := match s.ifeStream? k with | some e => s.cps CPS.ROW_CLKS e | none => 2500
      ceilDiv 2500 clks * s.rowCost k
    | none => 0
  let slots := match t.pkg.entry? t.entry with
    | some q => ((q.lanes.filter fun l => l.on = .ifeRows && !l.test).map fun l => l.last - l.first).sum
    | none => 0
  let uses : Bool := t.pkg.nodes.any (·.cls = .ife)
  failIf (uses && (s.ifeTotals ≠ [] || 2500 < inline + slots + 100)) t.bytes 8 6

/-! ### 0x09 LANE, 0x0A DEADLINE (R239–R241, R422) -/

/-- Quanta of one rotation of the tests of a unit (R420). -/
def laneQuanta : LaneUnit → Nat
  | .engine u e => testQuanta (if u % 4 = 3 then 4 + e else e)
  | .ifeRows => testQuanta 0xA
  | .fabric _ => testQuanta 0xC
  | .cmem _ _ => testQuanta 9
  | .gddr _ => 0

/-- The engine of a vision core that serves a class. -/
def visionEngine : NodeClass → Option Nat
  | .sge => some 0
  | .ofe => some 1
  | .fpeDetect | .fpeMatch => some 2
  | .wpe => some 3
  | .pye => some 4
  | .tensor | .ife | .recordWrite | .cameraControl => none

/-- The units a node of an entry runs on. -/
def Trial.nodeUnits (t : Trial) (q : Placement) (d : NodeDesc) : List LaneUnit :=
  let u := q.units.getD d.index 0xFF
  if !q.places d.index then []
  else match d.cls with
    | .ife => [.ifeRows]
    | .tensor => ((List.range 4).filter fun e => (t.st.nodeEngines d).testBit e).map fun e => .engine u e
    | .recordWrite | .cameraControl => []
    | .sge | .ofe | .fpeDetect | .fpeMatch | .wpe | .pye => (visionEngine d.cls).toList.map fun e => .engine u e

/-- The lane of a node on a unit. -/
def Placement.laneOf (q : Placement) (on : LaneUnit) (number : Nat) : Option Lane :=
  q.lanes.find? fun l => l.on = on && l.number = number && !l.test

/-- The units that must have a test lane (R422): every unit of the plan but the GDDR6 channels, and every engine of the
cores the entry names. -/
def Placement.tested (q : Placement) : List LaneUnit :=
  ((q.lanes.map (·.on)).filter fun x => match x with | .gddr _ => false | .engine _ _ | .ifeRows | .fabric _ | .cmem _ _ => true)
    ++ q.cores.flatMap fun u => (List.range (if u % 4 = 3 then 5 else 4)).map fun e => .engine u e

/-- A unit's test lane breaks R422. -/
def Trial.testLaneBad (t : Trial) (q : Placement) (on : LaneUnit) : Bool :=
  let n := (q.lanes.filter fun l => l.on = on && l.test && l.first + 100 ≤ l.last).map fun l => (l.last - l.first) / 100
  n = [] || t.st.rd .rsp RSP.DI_BEATS / 2 < ceilDiv (laneQuanta on) n.sum

/-- The lanes of an entry break R239. -/
def Trial.lanesBad (t : Trial) (q : Placement) : Bool :=
  let ls := q.lanes
  let drives (e : Nat) : Bool := t.pkg.sec.graphs.any fun g => e ∈ g.streams
  ls.any (fun l => l.last ≤ l.first || 2500 < l.last || (!l.test && !drives l.stream))
    || (ls.map (·.on)).any (fun on => 16 < (ls.filter (·.on = on)).length)
    || (ls.zip (List.range ls.length)).any fun x => (ls.take x.2).any fun m =>
      m.on = x.1.on && (m.number = x.1.number || (m.first < x.1.last && x.1.first < m.last))

/-- A node has no lane of its driving stream on a unit it runs on. -/
def Trial.laneMissing (t : Trial) (q : Placement) (d : NodeDesc) : Bool :=
  (t.nodeUnits q d).any fun on => match q.laneOf on d.lane with
    | some l => some l.stream ≠ t.pkg.root d.index
    | none => true

/-- A re-run reservation of a node, equal to its length and before its flag clock (R240). -/
def Placement.reserved (q : Placement) (d : NodeDesc) : Bool :=
  q.reruns.any fun r => r.1 = d.index && d.start < r.2 && r.2 - d.start ≤ d.flag - r.2 && r.2 < d.flag

/-- A node's span to its flag clock is not below the least interval of its anchors (R241). -/
def Trial.spanBad (t : Trial) (q : Placement) (d : NodeDesc) : Bool :=
  q.places d.index && (d.flag < d.start || t.interval d ≤ d.flag)

/-- Code 0x09, for every entry. -/
def Trial.laneFail (t : Trial) : Refused :=
  t.pkg.sec.placements.findSome? fun q =>
    firstFail
      [fun _ => failIf (t.lanesBad q) t.bytes 9 3,
       fun _ => failIf (q.tested.any (t.testLaneBad q)) t.bytes 9 3,
       fun _ => failNode t.pkg (fun d => t.laneMissing q d || t.spanBad q d || (q.places d.index && t.readsDetect d && !q.reserved d))
         t.bytes 9 3]

/-- Code 0x0A (R9, R401). -/
def Trial.deadlineFail (t : Trial) : Refused :=
  let p := t.pkg
  let late (d : NodeDesc) : Bool := d.cls = .recordWrite && p.sec.placements.any (·.places d.index)
    && decide ((p.latency - 1) * 2500 + 1800 < p.offsetOf 4096 d.index)
  firstFail
    [fun _ => failIf (p.latency < 2 || 256 < p.latency) t.bytes 0xA 0,
     fun _ => failIf (p.sec.payload.any fun f => f.bound < p.latency) t.bytes 0xA 9,
     fun _ => failNode p late t.bytes 0xA 2]

/-! ### 0x0B FLAG to 0x0F STREAM -/

/-- A node's input flag that no node sets. -/
def Trial.unfed (t : Trial) (q : Placement) (d : NodeDesc) : Bool :=
  let c := q.units.getD d.index 0xFF / 4
  q.places d.index && (List.range d.inCount).any fun i =>
    let f := d.inFlag + i
    2048 ≤ f || !(t.pkg.sec.flags.any fun x => x.flag = f && (x.cluster = c || 6 ≤ c))

/-- Code 0x0B (R242). -/
def Trial.flagFail (t : Trial) : Refused :=
  let fs := t.pkg.sec.flags
  firstFail
    [fun _ => failIf ((List.range 6).any fun c => 2048 < ((fs.filter (·.cluster = c)).map (·.flag)).eraseDups.length) t.bytes 0xB 2,
     fun _ => failIf (fs.any fun f => 6 ≤ f.cluster || 2048 ≤ f.flag || (t.pkg.node? f.node).isNone) t.bytes 0xB 2,
     fun _ => failNode t.pkg (fun d => t.pkg.sec.placements.any fun q => t.unfed q d) t.bytes 0xB 2]

/-- Code 0x0C (R244). -/
def Trial.counterFail (t : Trial) : Refused :=
  failIf (t.pkg.sec.placements.any fun q =>
    (List.range 6).any (fun c => 1024 < ((q.counters.filter (·.1 = c)).map (·.2)).eraseDups.length)
      || q.counters.any fun x => 6 ≤ x.1 || 1024 ≤ x.2) t.bytes 0xC 3

/-- Code 0x0D (R278). -/
def Trial.mayVaryFail (t : Trial) : Refused :=
  failNode t.pkg (fun d => d.mayVary || t.cmdFails 0xD d || (t.tensor d && (t.issues d).any (·.c.mayVary))) t.bytes 0xD 2

/-- The device addresses a node reaches (R363): its command words, and its operands in device space. -/
def Trial.addrBad (t : Trial) (d : NodeDesc) : Bool :=
  let p := t.pkg
  let dev (x : Issue) (ref : Nat) : Bool :=
    ref ≠ 0 && (t.st.descAt d.cmdAddr ref).space = 2 && (t.st.issueRanges x ref).any fun r => !p.inWindow r.1 r.2
  t.tensor d && (!p.inWindow d.cmdAddr (64 * (t.st.cmdsOf d).length)
    || (t.issues d).any fun x => dev x x.c.dA || dev x x.c.dC)

/-- A block placed outside the windows and the cluster memories of the set (R320). -/
def Trial.blockBad (t : Trial) (e : Nat × Nat) : Bool :=
  let off := bits e.2 57 16 * 64
  let c := bits e.2 5 3
  if !e.2.testBit 0 then false
  else if bits e.2 2 1 = 0 then !t.pkg.inWindow off 64
  else if bits e.2 2 1 = 1 then
    !(match t.pkg.entry? t.entry with
      | some q => decide ((c, off / 65536) ∈ q.cmemSegs)
      | none => false)
  else true

/-- Code 0x0E (R92, R320, R363): windows in GDDR6, every other address inside them. -/
def Trial.addrFail (t : Trial) : Refused :=
  let p := t.pkg
  let s := t.st
  let pages (u : Nat) (c : ChannelDesc) : Bool := !p.inWindow c.addr (32 * c.count) || (List.range c.count).any fun i =>
    (s.blockAt ⟨c.addr, c.count⟩ i).runs.any fun r => !p.inWindow r.1 r.2 && u ≤ 24
  let mesh (d : NodeDesc) : Bool :=
    let u := p.unitOf t.entry d.index
    let a := s.rd (.wpe (u / 4)) WPX.MESH_ADDR_LO d.engineCtx + 2 ^ 32 * s.rd (.wpe (u / 4)) WPX.MESH_ADDR_HI d.engineCtx
    d.cls = .wpe && u < 24
      && !p.inWindow a (meshBytes (s.rd (.wpe (u / 4)) WPX.OUT_WIDTH d.engineCtx) (s.rd (.wpe (u / 4)) WPX.OUT_HEIGHT d.engineCtx))
  let written (x : Nat × Nat × Bool × Nat) : Bool := match s.place x.2.2.2 with
    | .gddr _ => !p.inWindow x.2.2.2 8
    | .cmem _ _ | .spm _ _ => false
    | .csr | .host | .hole | .nothing => true
  firstFail
    [fun _ => failIf (p.sec.windows.any fun w => w.size = 0 || !s.inGddr w.addr w.size || w.size < w.contentLen) t.bytes 0xE 7,
     fun _ => failNode p (fun d => t.addrBad d || mesh d) t.bytes 0xE 2,
     fun _ => (p.sec.channels.find? (pages 0)).bind fun c => failAt t.bytes 0xE 4 c.node,
     fun _ => failIf (p.sec.pq.any fun x => !p.inWindow x.addr 256) t.bytes 0xE 8,
     fun _ => (p.sec.recordWrites.find? written).bind fun x => failAt t.bytes 0xE 2 x.1,
     fun _ => failIf (p.sec.bod.entries.any t.blockBad) t.bytes 0xE 6]

/-- The stream entry that an engine's source code descends from; at most `n` engines between (R206). -/
def State.sourceStream (s : State) (c : Nat) : Nat → Nat → Option Nat
  | 0, _ => none
  | n + 1, code =>
    if code < 0x20 then some code
    else if code < 0x24 then s.sourceStream c n (s.rd (.wpe c) WPX.SRC (code - 0x20))
    else if 0x28 ≤ code ∧ code < 0x2C then s.sourceStream c n (s.rd (.pye c) PYX.SRC (code - 0x28))
    else if 0x30 ≤ code ∧ code < 0x38 then s.ifeStream? (code - 0x30)
    else none

/-- A stereo node's two sources differ in P or B0, or are line-scan (R157). -/
def Trial.pairBad (t : Trial) (d : NodeDesc) : Bool :=
  let u := t.pkg.unitOf t.entry d.index
  d.cls = .sge && u < 24 &&
    (let src (f : RField) : Option StreamDesc :=
      (t.st.sourceStream (u / 4) 4 (t.st.rd (.sge (u / 4)) f d.engineCtx)).bind t.pkg.streamOf
     match src SGX.LEFT_SRC, src SGX.RIGHT_SRC with
     | some a, some b => a.period ≠ b.period || a.offset ≠ b.offset || t.st.cps CPS.LINESCAN a.entry = 1
         || t.st.cps CPS.LINESCAN b.entry = 1
     | _, _ => true)

/-- A flow node's strips are too low (R180), a detection node has no quota (R196). -/
def Trial.stripBad (t : Trial) (d : NodeDesc) : Bool :=
  let u := t.pkg.unitOf t.entry d.index
  let sh := ((t.pkg.root d.index).map t.pkg.heightOf).getD 0
  u < 24 && ((d.cls = .ofe && sh < 8 * 2 ^ t.st.rd (.ofe (u / 4)) OFX.LEV_OUT d.engineCtx)
    || (d.cls = .fpeDetect && t.st.rd (.fpe (u / 4)) FPX.CELL_QUOTA d.engineCtx = 0))

/-- Code 0x0F (R115, R150, R157, R180, R196). -/
def Trial.streamFail (t : Trial) : Refused :=
  let p := t.pkg
  let deep (k : Nat) : Bool := 16 < ((p.sec.pq.filter (·.ctx = k)).map fun x => x.ahead + 1).sum
  firstFail
    [fun _ => failIf (p.sec.graphs.any fun g => g.streams.any fun e => t.st.cps CPS.TRIGGERED e = 0 ||
       (match p.streamOf e with | some d => decide (d.period = 0) | none => true)) t.bytes 0xF 4,
     fun _ => failIf (t.st.cpxRules ≠ []) t.bytes 0xF 4,
     fun _ => failNode p (fun d => t.pairBad d || t.stripBad d) t.bytes 0xF 6,
     fun _ => failIf ((List.range 8).any deep) t.bytes 0xF 8]

/-! ### 0x10 MESH to 0x16 FALLBACK_SHAPE -/

/-- Code 0x10 (R215). -/
def Trial.meshFail (t : Trial) : Refused :=
  failNode t.pkg (fun d =>
    let u := t.pkg.unitOf t.entry d.index
    d.cls = .wpe && u < 24 && (t.st.meshBad (u / 4) d.engineCtx).isSome) t.bytes 0x10 6

/-- Code 0x11 (R357): 50 slots of 50 clocks a beat, of which 0–3 are kept for maintenance. -/
def Trial.slotFail (t : Trial) : Refused :=
  let bad (q : Placement) : Bool :=
    q.lanes.any (fun l => match l.on with
      | .gddr _ => l.first % 50 ≠ 0 || l.last % 50 ≠ 0 || l.first < 200
      | .engine _ _ | .ifeRows | .fabric _ | .cmem _ _ => false)
      || q.gddrSlots.any (fun x => x.2.1 < 4 || 50 ≤ x.2.1 || 16 < x.2.2.1 || 2 < x.2.2.2)
      || !(q.gddrSlots.map fun x => (x.1, x.2.1)).Nodup
  failIf (t.pkg.sec.placements.any bad) t.bytes 0x11 3

/-- Two windows share a byte and are not the same SHARED one (R249). -/
def windowsClash (a b : WindowDesc) : Bool :=
  a.addr < b.addr + b.size && b.addr < a.addr + a.size
    && !(a.shared && b.shared && a.addr = b.addr && a.size = b.size && a.digest = b.digest)

/-- Code 0x12, against the sets that hold windows and an active log (R390). -/
def State.windowFail (s : State) (b : List Byte) (p : Package) : Refused :=
  let log := s.logRing
  let inLog (w : WindowDesc) : Bool := s.rd .dig DIG.LOG_EN = 1 && w.addr < log.1 + log.2 && log.1 < w.addr + w.size
  failIf (p.sec.windows.any fun w => inLog w || s.liveSets.any fun r => r.pkg.sec.windows.any (windowsClash w)) b 0x12 7

/-- Graph contexts held (R230). -/
def State.ctxHeld (s : State) : Nat := ((s.heldSets.map fun x => x.1.sec.graphs.length).sum) + s.amt.tasks.length

/-- Code 0x13: graph contexts, and contexts or entries that a live set holds with other settings. -/
def State.contextFail (s : State) (b : List Byte) (p : Package) (e : Nat) : Refused :=
  let other (r : RunSet) : Bool :=
    (p.settings e).any (fun x => (r.pkg.settings r.entry).any fun y => x.1 = y.1 && x.2.1 = y.2.1 && x.2.2 ≠ y.2.2)
      || p.sec.streams.any fun x => r.pkg.sec.streams.any fun y => x.entry = y.entry && x.fields ≠ y.fields
  firstFail
    [fun _ => failIf (16 < s.ctxHeld + p.sec.graphs.length) b 0x13 1,
     fun _ => failIf (s.liveSets.any other) b 0x13 6]

/-- The lanes that a graph's nodes use in an entry, each with its unit, clocks and the node's two clocks. -/
def Trial.graphLanes (t : Trial) (q : Placement) (g : GraphDesc) : List (Nat × LaneUnit × Nat × Nat × Nat × Nat) :=
  (t.pkg.nodes.filter fun d => g.holds d.index).flatMap fun d =>
    (t.nodeUnits q d).filterMap fun on => (q.laneOf on d.lane).map fun l => (d.index - g.firstNode, on, l.first, l.last, d.start, d.flag)

/-- Two graphs are identical in their sets: digest, placement and lanes (R252). -/
def sameGraph (t r : Trial) (qt qr : Placement) (g h : GraphDesc) : Bool :=
  g.digest = h.digest && slice qt.units g.firstNode g.nodeCount = slice qr.units h.firstNode h.nodeCount
    && t.graphLanes qt g = r.graphLanes qr h

/-- The lanes of a set's plan that belong to no graph that continues. -/
def lanesApart (q : Placement) (skip : List Nat) : List Lane := q.lanes.filter fun l => !l.test && !(l.stream ∈ skip)

/-- R252 against a live set. -/
def Trial.swapClash (t : Trial) (r : RunSet) : Bool :=
  let o : Trial := ⟨[], r.pkg, r.entry, t.st⟩
  match t.pkg.entry? t.entry, r.pkg.entry? r.entry with
  | some q, some qr =>
    let same := t.pkg.sec.graphs.filter fun g => r.pkg.sec.graphs.any (sameGraph t o q qr g)
    let going := same.flatMap (·.streams)
    (lanesApart q going).any fun l => (lanesApart qr []).any fun m => l.on = m.on && l.first < m.last && m.first < l.last
  | _, _ => false

/-- Code 0x14, against the running set. -/
def Trial.swapFail (t : Trial) (s : State) : Refused :=
  failIf (match s.amt.running with | some r => !r.released && t.swapClash r | none => false) t.bytes 0x14 3

/-- Clocks from a stream's trigger to its latest last row, and to its earliest first strip. -/
def Trial.frameSpan (t : Trial) (e : Nat) : Nat × Nat :=
  let f (x : RField) : Nat := t.st.cps x e
  (f CPS.FS_MAX * 2500 + f CPS.HEIGHT * f CPS.ROW_CLKS + 2500, f CPS.FS_MIN * 2500 + t.pkg.heightOf e * f CPS.ROW_CLKS)

/-- A producer's flag for the frame `back` earlier does not come before the first strip of the frame that needs it. -/
def Trial.producerLate (t : Trial) (producer consumer back : Nat) : Bool :=
  match t.pkg.root producer, t.pkg.root consumer with
  | some a, some b =>
    let per (e : Nat) : Nat := ((t.pkg.streamOf e).map (·.period)).getD 0
    let off (e : Nat) : Nat := ((t.pkg.streamOf e).map (·.offset)).getD 0
    per a ≠ per b
      || (back * per b + off b) * 2500 + (t.frameSpan b).2 < off a * 2500 + (t.frameSpan a).1 + t.pkg.offsetOf 4096 producer
  | _, _ => true

/-- Code 0x15 (R138, R162, R179, R182). -/
def Trial.lateFail (t : Trial) : Refused :=
  let p := t.pkg
  let s := t.st
  let pyramid (d : NodeDesc) : Bool :=
    let u := p.unitOf t.entry d.index
    let c := u / 4
    let code := s.rd (.ofe c) OFX.SRC d.engineCtx
    d.cls = .ofe && u < 24 && p.nodes.any fun x =>
      x.cls = .pye && p.onCluster t.entry x.index c && x.engineCtx + 0x28 = code
        && t.producerLate x.index d.index (s.rd (.ofe c) OFX.REF_DIST d.engineCtx)
  let flow (d : NodeDesc) : Bool := d.cls = .ife && p.sec.flowFor.any fun f =>
    f.1 = d.engineCtx && p.nodes.any fun x => x.cls = .ofe && x.engineCtx = f.2.2
      && (Page.ofe (p.unitOf t.entry x.index / 4)).num = f.2.1 && t.producerLate x.index d.index 1
  firstFail
    [fun _ => (p.sec.predFor.find? fun x => t.producerLate x.producer x.node x.back).bind fun x => failAt t.bytes 0x15 2 x.node,
     fun _ => failNode p (fun d => pyramid d || flow d) t.bytes 0x15 2]

/-- The first entry usable when `u` is absent too (R256). -/
def State.entryWithout (s : State) (p : Package) (u : Nat) : Option Placement :=
  p.sec.placements.find? fun q => s.usable q && !q.names u

/-- A node stands in two entries on the same unit, in the same clocks (R256). -/
def Trial.sameSlot (t : Trial) (a b : Placement) (d : NodeDesc) : Bool :=
  a.units.getD d.index 0xFF = b.units.getD d.index 0xFF
    && (t.nodeUnits a d).all fun on => (a.laneOf on d.lane).map (fun l => (l.first, l.last)) = (b.laneOf on d.lane).map (fun l => (l.first, l.last))

/-- Code 0x16 (R256). -/
def Trial.fallbackFail (t : Trial) (s : State) : Refused :=
  (t.pkg.sec.placements.filter s.usable).findSome? fun e =>
    e.cores.findSome? fun u => match s.entryWithout t.pkg u with
      | none => none
      | some f => failNode t.pkg (fun d => e.places d.index && e.units.getD d.index 0xFF ≠ u && !t.sameSlot e f d) t.bytes 0x16 3

/-! ### The load -/

/-- The state that a set's settings and windows would give, nothing running on the cores. -/
def State.trial (s : State) (b : List Byte) (p : Package) (e : Nat) : Trial :=
  let h := (s.fillWindows b p.sec.windows).writeSet p e
  ⟨b, p, e, { h with fabric := { h.fabric with cores := [] } }⟩

/-- Code 0x01, 0x02 (R249): both signatures under the keys of slot 0x06, the body's digest, the windows'. -/
def State.signatureFail (s : State) (b : List Byte) : Refused :=
  firstFail
    [fun _ => failIf (!s.mgc.store.verifyBlock 6 (slice b (pkgLen b) pkgSignatures) (pkgBody b)) b 1 0,
     fun _ => failIf (sha256 ((pkgBody b).drop 64) ≠ slice b 24 32) b 2 0]

/-- A window's content digest does not match. -/
def windowsFail (b : List Byte) (p : Package) : Refused :=
  failIf (p.sec.windows.any fun w => sha256 (slice b w.content w.contentLen) ≠ w.digest) b 2 7

/-- Codes 0x01 to 0x04, which a store command checks too (R443). -/
def State.packageFail (s : State) (b : List Byte) : Refused :=
  let p := parsePackage b
  firstFail
    [fun _ => failIf (headerBad b) b 3 0,
     fun _ => s.signatureFail b,
     fun _ => windowsFail b p,
     fun _ => formatFail b p]

/-- Code 0x04. -/
def State.versionFail (s : State) (b : List Byte) : Refused :=
  failIf (field b 8 2 ≠ 0x00B0 || s.mgc.fwVersion < field b 12 4) b 4 0

/-- The checks of a load, in the order of R249's table; a set without usable entry still has its format checked first. -/
def State.loadFail (s : State) (b : List Byte) : Refused :=
  let p := parsePackage b
  let t := s.trial b p ((s.chooseEntry p).getD 0)
  firstFail
    [fun _ => s.packageFail b,
     fun _ => t.formatFail,
     fun _ => s.versionFail b,
     fun _ => failIf (s.chooseEntry p).isNone b 5 3,
     fun _ => t.scratchFail, fun _ => t.lineFail, fun _ => t.ifeFail, fun _ => t.laneFail, fun _ => t.deadlineFail,
     fun _ => t.flagFail, fun _ => t.counterFail, fun _ => t.mayVaryFail, fun _ => t.addrFail, fun _ => t.streamFail,
     fun _ => t.meshFail, fun _ => t.slotFail, fun _ => s.windowFail b p,
     fun _ => s.contextFail b p t.entry, fun _ => t.swapFail s, fun _ => t.lateFail, fun _ => t.fallbackFail s]

end Sys2Proof.Machine
end

