-- ==== Sys2Proof/Machine/LinkDown.lean ====
section
/-! DEFINITION. Sessions that end and ports that go down (R81, R97, R100). -/

namespace Sys2Proof.Machine

/-- Role sessions are told of on their port (R95, R96): the cause word is not stated and is free (log 11). -/
def State.sessionEvent (s : State) (p role what : Nat) : State :=
  let d := s.draw
  d.2.queueEvent p 0x55 (leBytes 1 role ++ leBytes 1 what ++ leBytes 2 d.1)

/-- A record subscription ends with the last session that holds it (R98). -/
def State.unsubscribe (s : State) (p role : Nat) : State :=
  let x := s.port p
  let l := setErase role x.recSubs
  let s1 := s.setPort p { x with recSubs := l }
  if l.isEmpty then s1.wr (.hlk p) HLK.REC_SUB 0 else s1

/-- A session ends (R100): its bit, its subscription, its audit entry, which a completion may wait for (R450). -/
def State.endSession (s : State) (p role actor : Nat) (ticket : Option Nat := none) : State :=
  if s.sessionOpen p role then
    let f := HLK.SESS_OPEN
    let s1 := s.wr (.hlk p) f (putBits (s.rd (.hlk p) f) (role - 1) 1 0)
    ((s1.unsubscribe p role).audit 0x11 actor p 0 (leBytes 1 role) ticket).sessionEvent p role 2
  else s

/-- Every session of a port ends (R81, R100). -/
def State.endSessions (s : State) (p : Nat) : State := [1, 2, 3].foldl (fun s r => s.endSession p r 4) s

/-- EVT_JOB_DONE bodies among messages, as cookie, status and fault code. -/
def jobDoneOf (b : List Byte) : HeldJobDone := ⟨field b 0 8, field b 8 2, field b 12 2⟩

/-- The whole messages of VC3 cut into cells and not sent yet: single cells that begin and end a message. -/
def uncut (l : List TxCell) : List (Nat × List Byte) :=
  (l.filter fun c => c.vc = 3 && c.som && c.eom).map fun c => (field c.payload 0 1, c.payload.drop 16)

/-- The queued events of a port that goes down (R97): job completions move to the other port or are held, the others
and the record copies are counted. -/
def State.emptyEvents (s : State) (p : Nat) : State :=
  let x := s.port p
  let all := uncut x.cellQ ++ x.eventQ.map fun m => (m.mtype, m.body)
  let jobs := (all.filter (·.1 = 0x53)).map fun e => jobDoneOf e.2
  let copies := x.recordQ.length + b2n (x.cellQ.any fun c => c.vc = 3 && !c.som)
  let s1 := (s.count (.hlk p) HLK.CNT_EVT_LOST (all.length - jobs.length)).count (.hlk p) HLK.CNT_REC_DROP copies
  let s2 := s1.setPort p { x with eventQ := [], recordQ := [], cellQ := x.cellQ.filter (·.vc ≠ 3) }
  jobs.foldl (fun s j =>
    if s.portUp (1 - p) then
      s.queueEvent (1 - p) 0x53 (leBytes 8 j.cookie ++ leBytes 2 (j.status % 32768 + 32768) ++ zeros 2 ++ leBytes 2 j.fault ++ zeros 2)
    else { s with link := { s.link with heldJobs := s.link.heldJobs ++ [j] } }) s2

/-- Open tasks that wait for a host on a port abort with HOST_TIMEOUT (R81, R92). -/
def State.abortHostTasks (s : State) (p : Nat) : State :=
  let waits := (s.port p).hostReqs
  waits.foldl (fun s h => if (s.task? h.ctx).isSome then
    (s.faultRec (.hlk p) 0x2040 (faultMid h.ctx h.unit 0xFFFF) [] false).abortTask h.ctx 0x2040 (some h.unit) else s) s

/-- What a port keeps when its link layer starts anew: the lockout, the outstanding challenge, jobs taken, tags. -/
def HlPort.restart (x : HlPort) : HlPort :=
  { HlPort.fresh with
    lastHello := x.lastHello, challenge := x.challenge, lockoutEnd := x.lockoutEnd, nextHostTag := x.nextHostTag
    jobs := x.jobs }

/-- The open link boot of a port that goes down is abandoned (R102). -/
def State.abandonBoot (s : State) (p : Nat) : State :=
  match s.link.boot with
  | some b => if b.port = p then ({ s with link := { s.link with boot := none } }).wr (.hlk p) HLK.BOOT_PORT 0 else s
  | none => s

/-- The link state fields of a port (R76): its state; no width and no version before UP. -/
def State.linkState (s : State) (p st : Nat) : State :=
  ((s.wr (.hlk p) HLK.LINK_STATE st).wr (.hlk p) HLK.WIDTH 0).wr (.hlk p) HLK.VERSION 0

/-- A port goes down (R81) into state `next`: 1 SIGNAL, 0 DARK. -/
def State.linkDown (s : State) (p next : Nat) : State :=
  let st := s.rd (.hlk p) HLK.LINK_STATE
  if st = 4 ∨ st = 5 then
    let s1 := (((s.linkState p next).endSessions p).abortHostTasks p).wr (.hlk p) HLK.VC2_GRANTED 0
    let s2 := ((s1.wr (.hlk p) HLK.REC_SUB 0).emptyEvents p).abandonBoot p
    let s3 := s2.setPort p (s2.port p).restart
    s3.fault (.hlk p) 0x2022
  else s.linkState p next

end Sys2Proof.Machine
end

