-- ==== Sys2Proof/Machine/Power.lean ====
section
/-! DEFINITION. Power domains (R42–R44): requests, ramps, what a domain loses when it goes off, what it holds when it
comes on; the shared steps of bring-up (R58). -/

namespace Sys2Proof.Machine

/-! ### The table of R42 -/

/-- The parent of a domain; none for AON. -/
def domParent (d : Nat) : Option Nat :=
  if d < 24 then some (24 + d / 4) else if d = 38 then none else if d = 37 then some 38 else some 37

/-- Start rank. -/
def domRank (d : Nat) : Nat :=
  if d = 38 then 1 else if d = 37 then 2 else if d = 35 ∨ d = 36 then 3 else if d = 33 ∨ d = 34 then 4
  else if d = 31 ∨ d = 32 then 5 else if d = 30 then 6 else if 24 ≤ d then 7 else 8

/-- Wake time in beats. -/
def domWake (d : Nat) : Nat :=
  if d = 38 then 12500 else if d = 37 then 100 else if d = 35 ∨ d = 36 then 29000 else if d = 33 ∨ d = 34 then 10000
  else if d = 31 ∨ d = 32 then 5000 else if d = 30 then 12 else if 24 ≤ d then 16 else 12

/-- The domains by ascending start rank and number (R43). -/
def startOrder : List Nat := [38, 37, 35, 36, 33, 34, 31, 32, 30, 24, 25, 26, 27, 28, 29] ++ List.range 24

/-- The domains by descending start rank (R45, R59): every domain after its children (R43). -/
def offOrder : List Nat := startOrder.reverse

/-- A domain lies under another. -/
def under (a : Nat) (d : Nat) : Bool :=
  match domParent d with
  | none => false
  | some p => p = a || (match domParent p with
    | none => false
    | some q => q = a || domParent q = some a)

/-! ### Requests (R43, R44) -/

/-- A domain's bit in ON_REQ (PDC page). -/
def State.requested (s : State) (d : Nat) : Bool :=
  if d < 32 then (s.rd .pdc PDC.ON_REQ0).testBit d else (s.rd .pdc PDC.ON_REQ1).testBit (d - 32)

/-- A domain's bit in ON_REQ set or cleared; firmware writes it too (PDC page). -/
def State.setRequest (s : State) (d : Nat) (on : Bool) : State :=
  if d < 32 then s.wr .pdc PDC.ON_REQ0 (putBits (s.rd .pdc PDC.ON_REQ0) d 1 (b2n on))
  else s.wr .pdc PDC.ON_REQ1 (putBits (s.rd .pdc PDC.ON_REQ1) (d - 32) 1 (b2n on))

/-- The domains requested, parents first. -/
def State.requestedList (s : State) : List Nat := startOrder.filter fun d => d ≠ 38 && s.requested d

/-- A domain is on or starting. -/
def State.domainUp (s : State) (d : Nat) : Bool := !s.domainOff d

/-- The units of every usable entry of a package (R255). -/
def State.usableCores (s : State) (p : Package) : List Nat :=
  (List.range 24).filter fun u => p.sec.placements.any fun q => s.usable q && q.names u

/-- Cores that the running sets and the loaded set need powered (R44, R50, R255). -/
def State.neededCores (s : State) : List Nat :=
  (List.range 24).filter fun u => s.lockedUnit u || s.heldSets.any fun x => u ∈ s.usableCores x.1

/-- The domains a package in an entry runs on. -/
def State.packageDomains (s : State) (p : Package) (cores : List Nat) : List Nat :=
  let groups := (List.range 2).filter fun g => p.sec.windows.any fun w => w.addr / 2 ^ 33 = g
  let cams := p.sec.streams.map fun d => camDomain (s.cps CPS.PORT d.entry)
  let clusters := setUnion (cores.map (· / 4))
    (p.sec.placements.flatMap fun q => if s.usable q then q.cmemSegs.map (·.1) else [])
  [37] ++ (groups.map (35 + ·)) ++ setUnion [] cams ++ (if p.nodes.any (·.cls = .ife) then [30] else [])
    ++ (clusters.map (24 + ·)) ++ cores

/-- The domains that the running locked placement uses (R44). -/
def State.lockedDomains (s : State) : List Nat :=
  s.liveSets.flatMap fun r => s.packageDomains r.pkg ((List.range 24).filter fun u => s.runningUnit u || s.usableNames u)

/-- Why an on-request is refused (R25, R43, R44, R50), as REFUSE_REASON. -/
def State.onRefused (s : State) (d : Nat) : Option Nat :=
  let gone (u : Nat) : Bool := s.disabled u || s.retired u
  if (d < 24 && (gone d || d / 4 ∈ s.power.failedClusters)) || (24 ≤ d && d < 30 && (d - 24) ∈ s.power.failedClusters) then
    some 3
  else if d ∈ s.power.heldOff then some 1
  else match domParent d with
    | some p =>
      if s.domainOff p && !(p ∈ s.power.queue) then some 1
      else if d < 24 && s.sensors.stopActive && !(d ∈ s.neededCores) then some 5 else none
    | none => none

/-- A refused request: it is not kept (R43). -/
def State.showRefused (s : State) (d reason : Nat) : State :=
  (s.wr .pdc PDC.REFUSE_PD d).wr .pdc PDC.REFUSE_REASON reason

/-- An on-request (R43, R44, R58): before PD38 is ready it is only held in its bit. -/
def State.requestOn (s : State) (d : Nat) : State :=
  if !s.domainReady 38 ∨ s.domainUp d ∨ d ∈ s.power.queue then s.setRequest d true
  else match s.onRefused d with
    | some r => (s.setRequest d false).showRefused d r
    | none =>
      let s1 := s.setRequest d true
      { s1 with power := { s1.power with queue := s1.power.queue ++ [d] } }

/-- On-requests of several domains, parents first. -/
def State.requestAll (s : State) (l : List Nat) : State :=
  (startOrder.filter (· ∈ l)).foldl (fun s d => s.requestOn d) s

/-! ### What a domain loses when it goes off (R63) -/

/-- Every open task of a list of contexts aborts. -/
def State.abortTasks (s : State) (ctxs : List Nat) (code : Nat) (unit : Option Nat := none) : State :=
  ctxs.foldl (fun s c => s.abortTask c code unit) s

/-- The contexts whose open nodes run on a core. -/
def State.coreTasks (s : State) (u : Nat) : List Nat := setUnion [] (((s.core u).nodes.filter (!·.locked)).map (·.ctx))

/-- The contexts whose tasks run in a cluster. -/
def State.clusterTasks (s : State) (c : Nat) : List Nat := (s.amt.tasks.filter (·.cluster = c)).map (·.ctx)

/-- The rings, scrubber and wipes of one memory forgotten with its contents. -/
def State.forgetArray (s : State) (inCmem : Bool) (owner : Nat) : State :=
  { s with fabric := { s.fabric with
      consumers := s.fabric.consumers.filter fun c => !(c.ring.inCmem = inCmem && c.ring.owner = owner)
      poisonedRings := s.fabric.poisonedRings.filter fun r => !(r.inCmem = inCmem && r.owner = owner)
      wiping := s.fabric.wiping.filter fun g => !(g.inCmem = inCmem && g.owner = owner)
      scrubbers := s.fabric.scrubbers.filter fun x => !(x.inCmem = inCmem && x.owner = owner) } }

/-- An image belongs to one of these pages. -/
def ImageKey.onPages (k : ImageKey) (l : List Nat) : Bool :=
  match k with
  | .engine p _ _ => p ∈ l
  | .stream _ | .ife _ _ | .node _ _ => false

/-- An image is one of the front end's. -/
def ImageKey.isIfe (k : ImageKey) : Bool :=
  match k with
  | .ife _ _ => true
  | .engine _ _ _ | .stream _ | .node _ _ => false

/-- Images of some keys forgotten. -/
def State.forgetImages (s : State) (f : ImageKey → Bool) : State :=
  { s with vision := { s.vision with
      rows := s.vision.rows.filter fun r => !f r.key
      complete := s.vision.complete.filter fun e => !f e.1 } }

/-- What engines on some pages decided and lost for their frames forgotten. -/
def State.forgetWork (s : State) (pages : List Nat) : State :=
  { s with vision := { s.vision with
      inputs := s.vision.inputs.filter fun i => !(i.page ∈ pages)
      lostRows := s.vision.lostRows.filter fun i => !(i.page ∈ pages) } }

/-- A core's contents lost: running nodes, streams, scratchpad or vision line memories. -/
def State.coreLost (s : State) (u : Nat) : State :=
  let lose (r : NodeRun) : NodeRun := if r.unit = u ∧ !r.flagged then { r with lost := true } else r
  let s1 := ((s.abortTasks (s.coreTasks u) 0x3050 (some u)).cutCapture u).setCore u []
  let s2 := if u % 4 = 3 then
      let pages := [Page.sge (u / 4), .ofe (u / 4), .fpe (u / 4), .wpe (u / 4), .pye (u / 4)].map (·.num)
      let t := s1.forgetImages fun k => k.onPages pages
      t.forgetWork pages
    else (s1.forgetArray false u).wipe (spmBase u) 0x200000
  { s2 with
    amt := { s2.amt with runs := s2.amt.runs.map lose }
    fabric := { s2.fabric with channels := s2.fabric.channels.map fun c => if c.unit = u then Channel.fresh u c.number else c } }

/-- A cluster's contents lost: its controller and shared memory. -/
def State.clusterLost (s : State) (c : Nat) : State :=
  ((((s.abortTasks (s.clusterTasks c) 0x3050).setClu c Cluster.fresh).forgetArray true c).wipe (cmemBase c) 0x400000)

/-- The ports of a camera domain. -/
def camPorts (d : Nat) : List Nat := (List.range 12).filter (camDomain · = d)

/-- A camera port's logic emptied: queued and outstanding writes discarded; its confirmed settings are not known any
more. -/
def CamPort.emptied (p : CamPort) : CamPort := { p with queue := [], resend := [], outstanding := none, sentBeat := none }

/-- Camera ports that lose their domain: lock gone, writes discarded (R63). -/
def State.camsLost (s : State) (d : Nat) : State :=
  (camPorts d).foldl (fun s n => (s.wr .cpx CPP.LOCK 0 n).setCam n (s.cam n).emptied) s

/-- The graph sets, the Maquette and open work gone (R63: with PD37 or an AMT reset); tasks abort. -/
def State.setsGone (s : State) : State :=
  let s1 := s.abortTasks (s.amt.tasks.map (·.ctx)) 0x3050
  let unlock (c : Cluster) : Cluster := { c with flags := [], counters := c.counters.filter fun e => !(e.1 ∈ c.lockedCounters)
                                                 lockedCounters := [], lockedFlags := [] }
  { s1 with
    amt := { AmtState.fresh with sets := s1.amt.sets }
    link := { s1.link with intake := [] }
    clusters := s1.clusters.map unlock
    fabric := { s1.fabric with
      cores := s1.fabric.cores.map fun c => { c with nodes := c.nodes.filter (!·.locked) }
      channels := s1.fabric.channels.map fun c => if c.node.isSome then Channel.fresh c.unit c.number else c
      bod := s1.fabric.bod.filter fun e => !e.2.testBit 8 }
    vision := { s1.vision with
      streams := (List.range 32).map StreamRun.fresh
      rows := s1.vision.rows.filter fun r => match r.key with | .stream _ => false | _ => true } }

/-- PD37's contents lost: the Armature, translations, the directory, the log buffer, stream set-up. -/
def State.centralLost (s : State) : State :=
  let s1 := s.setsGone.bodClear
  { s1 with fabric := { s1.fabric with tlb := [], outPages := [], capture := none, logBuffer := [], logPos := 0, combine := [] } }

/-- A GDDR6 group's contents lost. -/
def State.groupLost (s : State) (g : Nat) : State :=
  let keep (q : Nat) : Bool := q / 2 ^ 27 ≠ g
  let s1 := s.wipe (g * 2 ^ 33) (2 ^ 33)
  { s1 with fabric := { s1.fabric with
      badLines := s1.fabric.badLines.filter keep
      weakLines := s1.fabric.weakLines.filter keep
      outPages := s1.fabric.outPages.filter fun p => p.page / 2 ^ 17 ≠ g
      patrol := s1.fabric.patrol.map fun p => if p.ch / 8 = g then { p with q := 0 } else p
      eccOn := s1.fabric.eccOn.set g true } }

/-- The front end's contents lost. -/
def State.ifeLost (s : State) : State :=
  let s1 := (s.forgetImages ImageKey.isIfe).forgetWork [Page.ife.num]
  { s1 with vision := { s1.vision with ife := (List.range 8).map fun _ => IfeCtx.fresh, stats := [] } }

/-- The MGC's running commands lost with PD38; entries handed to the log are still programmed. -/
def State.mgcLost (s : State) : State :=
  { s with mgc := { s.mgc with storeCmd := none, attest := none, audCopy := none, checkpointDue := false, change := none } }

/-- HL0 holds no block lock any more (R49). -/
def State.laneLost (s : State) (port : Nat) : State :=
  if port = 0 then { s with clock := { s.clock with hl0Locked := false } } else s

/-- What a domain loses as it goes off. -/
def State.domainLost (s : State) (d : Nat) : State :=
  if d < 24 then s.coreLost d
  else if d < 30 then s.clusterLost (d - 24)
  else if d = 30 then s.ifeLost
  else if d < 33 then s.camsLost d
  else if d < 35 then ((s.linkDown (d - 33) 0).setPort (d - 33) HlPort.fresh).laneLost (d - 33)
  else if d < 37 then s.groupLost (d - 35)
  else if d = 37 then let t := s.centralLost; { t with time := { t.time with clkARunning := false } }
  else s.mgcLost

/-- The pages of a domain. -/
def domainPages (d : Nat) : List Page := allPages.filter (·.domain = some d)

/-- A page at its after-reset values (R63); a commit pending on it is discarded with code 0x04 (R467). -/
def State.resetPage (s : State) (p : Page) : State :=
  let s1 := s.clearPage p
  if s.committing p then (s1.wr p HDR.REJECTED 1).wr p HDR.REJECT_CODE 4 else s1

/-- The pages of a domain at their after-reset values. -/
def State.clearDomain (s : State) (d : Nat) : State :=
  let ps := domainPages d
  let s1 := ps.foldl (fun s p => s.resetPage p) s
  { s1 with resets := s1.resets.filter fun r => !(ps.any (·.num = r.page)) }

/-- One domain off (R43), whatever runs there. -/
def State.powerOff (s : State) (d : Nat) : State :=
  let s1 := if s.domainOff d then s else (s.domainLost d).clearDomain d
  let s2 := s1.stopTests d
  let s3 := s2.setDomain d .off
  { s3 with power := { s3.power with
      queue := s3.power.queue.filter (· ≠ d)
      heldInReset := s3.power.heldInReset.filter (· ≠ d)
      idleSince := s3.power.idleSince.filter (·.1 ≠ d) } }

/-- Domains off, children first (R43). -/
def State.powerOffAll (s : State) (l : List Nat) : State := (offOrder.filter (· ∈ l)).foldl (fun s d => s.powerOff d) s

/-- A domain off with every domain under it. -/
def State.powerOffTree (s : State) (d : Nat) : State := s.powerOffAll (d :: (List.range 39).filter (under d))

/-- Domains held off until a warm reset or power-on (R44, R474). -/
def State.holdOff (s : State) (l : List Nat) : State :=
  { s with power := { s.power with heldOff := setUnion s.power.heldOff l } }

/-! ### Off-requests (R44) -/

/-- Open work runs in a domain. -/
def State.domainBusy (s : State) (d : Nat) : Bool :=
  if d < 24 then !(s.coreTasks d).isEmpty
  else if d < 30 then !(s.clusterTasks (d - 24)).isEmpty
  else if d = 37 then !s.amt.tasks.isEmpty else false

/-- The page whose block stands for a domain in an idle request (R71, R72). -/
def domainBlock (d : Nat) : Option Page :=
  if d < 24 then some (if d % 4 = 3 then .vis (d / 4) else .tc d)
  else if d < 30 then some (.clu (d - 24)) else if d = 37 then some .amt else none

/-- A domain that is not requested goes off once its children are off (R43): at once, or where open work runs by the idle
request and handshake of its block (R44). -/
def State.beginOff (s : State) (d : Nat) : State :=
  if (List.range 39).any fun c => domParent c = some d && s.domainUp c then s
  else match domainBlock d with
    | some p =>
      if s.domainBusy d then
        if s.resets.any (·.page = p.num) then s
        else
          let r : BlkReset := { page := p.num, beat := s.time.beatNo, role := 4, forced := false, clocks := 0, done := false, off := true }
          ({ s with resets := s.resets ++ [r] } : State).wr p HDR.IDLE_REQ 1
      else s.powerOff d
    | none => s.powerOff d

/-- An off-request (R43, R44): refused in locked use. -/
def State.requestOff (s : State) (d : Nat) : State :=
  let s1 := s.setRequest d false
  if !s.domainReady 38 then s1
  else if d ∈ s.lockedDomains then s.showRefused d 2
  else
    let s2 : State := { s1 with power := { s1.power with queue := s1.power.queue.filter (· ≠ d) } }
    if s.domainOff d then s2 else s2.beginOff d

/-- Domains that are on and no longer requested: off-requests that waited for their children (R43). -/
def State.settleOff (s : State) : State :=
  offOrder.foldl (fun s d =>
    if d ≠ 38 && s.domainReady d && !s.requested d && !(d ∈ s.lockedDomains) && !(d ∈ s.power.heldInReset) then s.beginOff d
    else s) s

/-- A write of ON_REQ (PDC page): bit 6 of the second word ignores writes and reads 1; before PD38 is ready the values
are only held (R58). -/
def onReqAct (s : State) (second : Bool) (new : Nat) : State :=
  let base := if second then 32 else 0
  let n := if second then 6 else 32
  let all := (List.range n).map (· + base)
  let on := all.filter fun d => new.testBit (d - base) && !s.requested d
  let off := all.filter fun d => !new.testBit (d - base) && s.requested d
  (offOrder.filter (· ∈ off)).foldl (fun s d => s.requestOff d) (s.requestAll on)

/-! ### Options and readiness (R58, R67) -/

/-- Entries of one register file laid over another. -/
def layRegs (a : RegFile) (b : RegFile) : RegFile := b.foldl (fun r e => regSet noShadow e.1 e.2 r) a

/-- A page's option values laid over its after-reset values (R58, R63). -/
def State.loadPage (s : State) (p : Page) : State :=
  { s with
    regs := layRegs s.regs (s.power.optRegs.filter fun e => inPage p e.1)
    shadow := layRegs s.shadow (s.power.optShadow.filter fun e => inPage p e.1) }

/-- The instances of a domain begin their intervals (R426). -/
def State.startDomainTests (s : State) (d : Nat) : State :=
  (allInstances.filter (instDomain · = some d)).foldl (fun s i => s.startIntervals i) s

/-- CLK_A's reference as the strap sample in force selects it (R48, R49): each time PD37 becomes ready. The phase of the
beat timer differs from start to start (R383): a free value. -/
def State.startPll (s : State) : State :=
  let m := s.rd .clk CLK.STRAP_CLKM
  let x := s.draw
  let s1 := ((x.2.wr .clk CLK.ACTIVE_SRC (if m = 1 then 1 else 0)).wr .clk CLK.HOLDOVER 0).wr .dig DIG.ALIGN_PHASE (x.1 % 64)
  { s1 with
    clock := { s1.clock with firstMoveDone := false }
    time := { s1.time with clkARunning := true } }

/-- Lit port logic (R76, R103): a host link port waits for light; a camera port's receiver starts without lock. -/
def State.lightPorts (s : State) (d : Nat) : State :=
  if d = 33 ∨ d = 34 then
    ((s.setPort (d - 33) HlPort.fresh).linkState (d - 33) 1).laneLost (d - 33)
  else s

/-- A domain's logic begins: its pages with their options, its tests, its ports. -/
def State.startDomain (s : State) (d : Nat) : State :=
  let s1 := (domainPages d).foldl (fun s p => s.loadPage p) s
  let s2 := s1.startDomainTests d
  let s3 := s2.lightPorts d
  if d = 37 then s3.startPll.showAbsent
  else if d < 24 && (s3.rd .rsp RSP.READMIT_PEND).testBit d && s3.rd .rstc RSTC.WARM_COUNT = 0 then (unitInst d).foldl (fun s i => s.startMode i 3) s3
  else s3

/-- PD31–PD34 leave reset once PD37 is ready in a warm reset (R59). -/
def State.leaveReset (s : State) : State :=
  let l := s.power.heldInReset
  l.foldl (fun s d => s.startDomain d) { s with power := { s.power with heldInReset := [] } }

/-- The LCS and MGC pages show what the store holds (R455, R456). -/
def State.showStore (s : State) : State :=
  let st := s.mgc.store
  let s1 := ((s.wr .lcs LCS.STATE s.mgc.lifeCycle).wr2 .lcs LCS.SERVICE_SEQ_LO LCS.SERVICE_SEQ_HI st.serviceSeq).wr .mgc MGC.FW_VERSION s.mgc.fwVersion
  let s2 := (s1.wr .mgc MGC.FW_FLOOR st.keyBlock.fwFloor).wr2 .mgc MGC.AUD_SEQ_LO MGC.AUD_SEQ_HI (st.auditNext - 1)
  (List.range 8).foldl (fun s i => s.wr .mgc MGC.ID_DIGEST (field st.idDigest (4 * i) 4) 0 i) s2

/-- The option digest shown (OPL page). -/
def State.optDigest (s : State) : List Byte := (List.range 8).flatMap fun i => leBytes 4 (s.rd .opl OPL.OPT_DIGEST 0 i)

/-- Every instance that is powered begins its interval anew (R426). -/
def State.startAllIntervals (s : State) : State :=
  (allInstances.filter fun i => s.instOn i).foldl (fun s i => s.startIntervals i) s

/-- Bring-up, or sleep exit, is complete when every requested domain is ready (R47, R58): a warm reset then ends (R60). -/
def State.checkBringup (s : State) : State :=
  let busy : Bool := s.power.domains.any fun d => match d with | .ramping _ => true | _ => false
  if busy || !s.power.queue.isEmpty || !s.domainReady 38 || !s.power.heldInReset.isEmpty then s
  else if s.power.sleepExit then
    ({ s with power := { s.power with sleepExit := false, sleepDomains := [], wakeAt := none, sleepPos := none } }).wr .pdc PDC.IN_SLEEP 0
      |>.startAllIntervals
  else if s.power.optionsDone && s.rd .rstc RSTC.BRINGUP_DONE = 0 then
    let s1 := (s.wr .rstc RSTC.BRINGUP_BEATS (min (s.time.beatNo - s.power.bringupFrom) 0xFFFFFF)).wr .rstc RSTC.BRINGUP_DONE 1
    let s2 := s1.startAllIntervals
    { s2 with power := { s2.power with warm := none } }
  else s

/-- What the MGC requests when PD38 is ready (R47, R56–R58, R64): in link boot PD37 and the ports; at sleep exit what was on;
else what the options and AUTO mode name; in SCRAPPED both host links as well (R447). -/
def State.mgcRequests (s : State) : State :=
  if s.power.linkBoot then
    let m := s.rd .rstc RSTC.STRAP_BOOT
    s.requestAll (37 :: if m = 2 then [33] else if m = 3 then [34] else [33, 34])
  else if s.power.sleepExit then s.requestAll (s.power.sleepDomains.filter fun d => d ≠ 38 && !(24 > d && s.unitMap.testBit d))
  else s.requestAll (s.requestedList ++ if s.mgc.store.scrapped then [33, 34] else [])

/-- The cold start entry of the audit log (R449): firmware version, boot mode, option digest. -/
def State.auditStart (s : State) (kind : Nat) : State :=
  s.plinthAudit kind 4 0x80 0 (leBytes 4 s.mgc.fwVersion ++ leBytes 1 (s.rd .rstc RSTC.STRAP_BOOT) ++ zeros 3 ++ s.optDigest.take 28)

/-- Retirement counts as the RSP page shows them, two bits each, saturating (R433). -/
def State.showRetireCounts (s : State) : State :=
  let c (u : Nat) : Nat := min 3 (lookupD 0 u s.mgc.store.retireCounts)
  let word (first n : Nat) : Nat := ((List.range n).map fun i => c (first + i) * 4 ^ i).sum
  (s.wr .rsp RSP.RETIRE_CNT0 (word 0 16)).wr .rsp RSP.RETIRE_CNT1 (word 16 8)

/-- At a cold start the MGC judges the units retired before (R430): out at READMIT_MAX, else a READMIT test. -/
def State.judgeUnits (s : State) : State :=
  let limit := s.rd .rsp RSP.READMIT_MAX
  ((List.range 24).foldl (fun s u =>
    let n := lookupD 0 u s.mgc.store.retireCounts
    if n = 0 ∨ s.disabled u then s
    else if limit ≤ n then (s.unitBit .rsp RSP.RETIRED u true).unitFault .rsp 0x7012 u
    else s.unitBit .rsp RSP.READMIT_PEND u true) s).showRetireCounts

/-- The MGC starts with its options applied: the audit log's newest entry is checked (R453); after a cold start its entry is
appended and the units are judged (R430, R449). -/
def State.startFirmware (s : State) : State :=
  let s1 := if s.mgc.store.auditTorn then (s.count .mgc MGC.CNT_AUD_TORN).fault .mgc 0x8040 else s
  if s.power.coldPending then
    let s2 : State := { s1 with power := { s1.power with coldPending := false } }
    (s2.auditStart 1).judgeUnits
  else s1

/-- PD38 may be ready (R56, R58): firmware verified and options finished, or boot code running. A FACTORY layer that
fails keeps it from that (R70). -/
def State.mgcMayStart (s : State) : Bool :=
  s.power.linkBoot || (s.power.firmwareChecked && s.power.optionsDone && !s.power.factoryInvalid)

/-- A domain becomes ready (R42, R58). -/
def State.becomeReady (s : State) (d : Nat) : State :=
  let s1 := (s.startDomain d).setDomain d .ready
  let s2 := if d = 37 then s1.leaveReset else s1
  let s3 := if d = 38 then
      let t := s2.showStore
      (if t.power.linkBoot then t else t.startFirmware).mgcRequests
    else s2
  s3.checkBringup

end Sys2Proof.Machine
end

