-- ==== Sys2Proof/Machine/Armature.lean ====
section
/-! DEFINITION. The Armature's commands and boundaries: load, start, stop, swap, discard (R248–R253), the move off a retired
core (R254–R256). -/

namespace Sys2Proof.Machine

/-! ### Refusals (R248–R251, R428) -/

/-- LAST_REFUSAL and REFUSAL_DETAIL. -/
def State.noteRefusal (s : State) (code detail : Nat) : State :=
  (s.wr .amt AMT.LAST_REFUSAL code).wr .amt AMT.REFUSAL_DETAIL detail

/-- A block that cannot be retired has failed its test (R428): no load, start or swap. -/
def State.blockFailed (s : State) : Bool :=
  s.rd .rsp RSP.FAILED_MC ≠ 0 || s.rd .rsp RSP.FAILED_IFE = 1 || s.rd .rsp RSP.FAILED_CEN = 1

/-- A refusal for the state (R249): code 0x17. -/
def stateRefused : Option (Nat × Nat) := some (0x17, refusalDetail 0xFF 0xFFFF)

/-- A load is refused (R248, R253, R428); a held-idle Armature takes none (R463). -/
def State.loadRefused (s : State) : Option (Nat × Nat) :=
  if s.rd .amt HDR.EN = 0 ∨ s.rd .amt AMT.MAQ_STATE ≠ 0 ∨ s.amt.load.isSome ∨ !(s.lifeCycle ∈ [2, 3, 4]) ∨ s.blockFailed then stateRefused else none

/-- The Maquette's set has no usable entry (R250). -/
def State.entryRefused (s : State) (p : Package) : Option (Nat × Nat) :=
  if (s.chooseEntry p).isNone then some (5, refusalDetail p.placementPos 0xFFFF) else none

/-- START is refused (R250). -/
def State.startRefused (s : State) : Option (Nat × Nat) :=
  if s.rd .amt AMT.MAQ_STATE ≠ 2 ∨ s.rd .amt AMT.RUN_STATE ≠ 0 ∨ s.amt.op.isSome ∨ s.blockFailed then stateRefused
  else s.amt.maquette.bind fun m => s.entryRefused m.1

/-- STOP is refused: no set runs, or its end is already fixed. -/
def State.stopRefused (s : State) : Option (Nat × Nat) :=
  let ok : Bool := match s.amt.running with
    | some r => !r.released && r.lastAdmit.isNone
    | none => false
  match s.amt.op with
  | some (.stop _) => stateRefused
  | some (.start _) => stateRefused
  | some (.swap _ _) | none => if ok then none else stateRefused

/-- The lanes of the Maquette's set in an entry meet those of the running set (R252). -/
def State.lanesClash (s : State) (p : Package) (e : Nat) : Bool :=
  match s.amt.running with
  | some r => (s.trial [] p e).swapClash r
  | none => false

/-- SWAP is refused (R251–R253). -/
def State.swapRefused (s : State) : Option (Nat × Nat) :=
  if s.rd .amt AMT.MAQ_STATE ≠ 2 ∨ s.rd .amt AMT.RUN_STATE ≠ 2 ∨ s.amt.op.isSome ∨ s.blockFailed then stateRefused
  else s.amt.maquette.bind fun m =>
    match s.chooseEntry m.1 with
    | none => s.entryRefused m.1
    | some e => if s.lanesClash m.1 e then some (0x14, refusalDetail m.1.placementPos 0xFFFF) else none

/-- DISCARD is refused: the Maquette holds no set, or its set is being started or swapped in. -/
def State.discardRefused (s : State) : Option (Nat × Nat) :=
  match s.amt.op with
  | some (.start _) | some (.swap _ _) => stateRefused
  | some (.stop _) | none => if s.rd .amt AMT.MAQ_STATE = 2 then none else stateRefused

/-- What a value of OP_CMD is refused for (AMT page). -/
def State.opRefused (s : State) (v : Nat) : Option (Nat × Nat) :=
  if v = 1 then s.loadRefused else if v = 2 then s.startRefused else if v = 3 then s.stopRefused
  else if v = 4 then s.swapRefused else if v = 5 then s.discardRefused else stateRefused

/-- What a value of INST_CMD is refused for. -/
def State.instRefused (s : State) (v : Nat) : Option (Nat × Nat) := if v = 1 then s.loadRefused else stateRefused

/-- The audit entry of a graph command (R449; log 11 for its layout): GSET_ID, refusal code. -/
def State.auditOp (s : State) (role port status gset code : Nat) : State :=
  s.audit 0x40 role port status (leBytes 2 gset ++ leBytes 1 code)

/-- The GSET_ID that a graph command concerns. -/
def State.opGset (s : State) (stop : Bool) : Nat :=
  match stop, s.amt.running, s.amt.maquette with
  | true, some r, _ => r.pkg.gset
  | true, none, _ => 0
  | false, _, some m => m.1.gset
  | false, _, none => 0

/-- A refusal shown and audited; none: nothing. -/
def State.refuseOp (s : State) (r : Option (Nat × Nat)) (stop : Bool) (role port : Nat) : Nat × State :=
  match r with
  | some (c, d) => (0x0B, (s.noteRefusal c d).auditOp role port 0x0B (s.opGset stop) c)
  | none => (0, s)

/-- What a write of OP_CMD answers. -/
def opCheck (s : State) (v role port : Nat) : Nat × State := s.refuseOp (s.opRefused v) (v = 3) role port

/-- What a write of INST_CMD answers. -/
def instCheck (s : State) (v role port : Nat) : Nat × State := s.refuseOp (s.instRefused v) false role port

/-! ### Loading -/

/-- A load begins (R248): what it reads, and who asked. -/
def State.beginLoad (s : State) (bytes : List Byte) (fromSlot : Bool) (role port : Nat) : State :=
  ({ s with amt := { s.amt with load := some ⟨bytes, fromSlot, port, role⟩ } }).wr .amt AMT.MAQ_STATE 1

/-- The package at an address in GDDR6: as many bytes as its header names; nothing where they do not lie in open memory of
one group. -/
def State.packageAt (s : State) (a : Nat) : List Byte :=
  if a % 64 ≠ 0 ∨ !s.openGddr a 64 then []
  else
    let n := pkgLen (s.load a 64) + pkgSignatures
    if 2 ^ 26 < n ∨ !s.openGddr a n then s.load a 64 else s.load a n

/-- A LOAD accepted. -/
def loadAct (s : State) (role port : Nat) : State :=
  s.beginLoad (lookupD [] (s.rd .amt AMT.LOAD_SLOT) s.mgc.store.graphs) true role port

/-- A LOAD_ADDR accepted. -/
def loadAddrAct (s : State) (role port : Nat) : State :=
  s.beginLoad (s.packageAt (s.rd2 .amt AMT.LOAD_ADDR_LO AMT.LOAD_ADDR_HI)) false role port

/-- In AUTO mode the device requests what a package names (R44, R248): the domains of every core of its entries. -/
def State.requestPackage (s : State) (p : Package) : State :=
  if s.rd .pdc PDC.AUTO_MODE = 1 then
    s.requestAll (s.packageDomains p ((List.range 24).filter fun u => p.sec.placements.any (·.names u)))
  else s

/-- A set stands loaded in the Maquette. -/
def State.fillMaquette (s : State) (b : List Byte) (p : Package) (e : Nat) : State :=
  let s1 := { s with amt := { s.amt with maquette := some (p, e) } }
  let s2 := (s1.wr .amt AMT.MAQ_STATE 2).wr .amt AMT.GSET_MAQ p.gset
  ((s2.fillWindows b p.sec.windows).lockPages s []).requestPackage p

/-- LOAD_END (R248, R249). -/
def execLoadEnd (s : State) : Result :=
  .next (match s.amt.load with
    | none => s
    | some l =>
      let s1 : State := { s with amt := { s.amt with load := none } }
      match s1.loadFail l.bytes with
      | some (c, sec, node) =>
        let s2 := ((s1.wr .amt AMT.MAQ_STATE 0).noteRefusal c (refusalDetail sec node)).raise .amt 1
        s2.auditOp l.role l.port 0x0B (field l.bytes 6 2) c
      | none =>
        let p := parsePackage l.bytes
        ((s1.fillMaquette l.bytes p ((s1.chooseEntry p).getD 0)).raise .amt 0).auditOp l.role l.port 0 p.gset 0)

/-! ### What a running set holds -/

/-- The entry under which a strip runs (R254). -/
def RunSet.entryFor (r : RunSet) (x : Strip) : Nat :=
  match r.oldEntry with
  | some (e, b) => if x.admitted < b then e else r.entry
  | none => r.entry

/-- A node has still to flag for a strip: it is placed, on a unit that is there, and its run is neither flagged nor
lost; a record write not when its producer is lost. -/
def State.owes (s : State) (r : RunSet) (d : NodeDesc) (x : Strip) : Bool :=
  let ran (i : Nat) (lost : Bool) : Bool := s.amt.runs.any fun n =>
    n.gset = r.key && n.node = i && n.strip = x.serial && (if lost then n.lost else n.flagged || n.lost)
  let on (i : Nat) : Bool :=
    let u := r.pkg.unitOf (r.entryFor x) i
    u ≠ 0xFF && !(u < 24 && (s.retired u || !s.domainReady u))
  on d.index && !(ran d.index false)
    && (match d.cls, d.anchor with | .recordWrite, .node j => (on j || ran j false) && !(ran j true) | _, _ => true)

/-- Some node of a set has still to flag for a strip that satisfies `f`. -/
def State.setBusy (s : State) (r : RunSet) (f : Strip → Bool) : Bool :=
  r.pkg.nodes.any fun d => (s.anchorStrips r d.index).any fun x => f x && s.owes r d x

/-- The flags a set declares, by cluster. -/
def Package.flagsOn (p : Package) (c : Nat) : List Nat :=
  ((p.sec.flags.filter (·.cluster = c)).map (·.flag)).eraseDups

/-- The entries of a set in use. -/
def RunSet.entries (r : RunSet) : List Nat := r.entry :: (match r.oldEntry with | some (e, _) => [e] | none => [])

/-- The counters that a set declares in a cluster (R244). -/
def RunSet.countersOn (r : RunSet) (c : Nat) : List Nat :=
  (((r.entries.filterMap r.pkg.entry?).flatMap (·.counters)).filter (·.1 = c)).map (·.2)

/-- The flags and counters that sets hold in each cluster (R242, R244), kept in step with the sets there are. -/
def State.relock (s : State) : State :=
  { s with clusters := (s.clusters.zip (List.range 6)).map fun x =>
      let fs := s.liveSets.foldl (fun l r => setUnion l (r.pkg.flagsOn x.2)) []
      let cs := s.liveSets.foldl (fun l r => setUnion l (r.countersOn x.2)) []
      { x.1 with
        lockedFlags := fs, lockedCounters := cs
        flags := x.1.flags.filter fun e => !(e.1 ∈ x.1.lockedFlags) || e.1 ∈ fs
        counters := x.1.counters.filter fun e => !(e.1 ∈ x.1.lockedCounters) || e.1 ∈ cs } }

/-- Cores and segments that a placement held and no held placement holds any more: wiped before open use (R346); its rings
reset (R344). -/
def State.openPool (s : State) (q : Placement) : State :=
  let cores := q.cores.filter fun u => u % 4 ≠ 3 && !s.lockedUnit u
  let segs := q.cmemSegs.filter fun x => !s.lockedCmem x.1 x.2
  let all := cores.flatMap (fun u => (List.range 32).map (WipeSeg.mk false u ·)) ++ segs.map fun x => WipeSeg.mk true x.1 x.2
  let s1 : State := { s with fabric := { s.fabric with wiping := setUnion s.fabric.wiping all } }
  s1.dropRings (q.rings.map fun (x : Bool × Nat × Nat) => RingRef.mk x.1 x.2.1 x.2.2)

/-- The channels of a set released, but for those of another (R253). -/
def State.freeChannels (s : State) (r : RunSet) (other : List RunSet) : State :=
  let of (r : RunSet) : List (Nat × Nat) := r.entries.flatMap fun e => r.pkg.sec.channels.map fun c =>
    (if r.pkg.unitOf e c.node < 24 then r.pkg.unitOf e c.node else c.unit, c.number)
  ((of r).filter fun x => !(other.any fun o => x ∈ of o)).foldl
    (fun s x => (s.setChan (Channel.fresh x.1 x.2)).enableCtx (.str x.1) x.2 0) s

/-- The contexts and stream entries of a set released, but for those of another. -/
def State.freeContexts (s : State) (r : RunSet) (other : List RunSet) : State :=
  let of (r : RunSet) : List (Page × Nat) := r.entries.flatMap fun e => (r.pkg.settings e).map fun x => (x.1, x.2.1)
  let s1 := ((of r).filter fun x => !(other.any fun o => x ∈ of o)).foldl (fun s x => s.enableCtx x.1 x.2 0) s
  (r.pkg.sec.streams.filter fun d => !(other.any fun o => o.pkg.sec.streams.any (·.entry = d.entry))).foldl
    (fun s d => s.enableCtx .cpx d.entry 0) s1

/-- The directory entries and regions of a set released, but for those of another (R320). -/
def State.freeBod (s : State) (r : RunSet) (other : List RunSet) : State :=
  let b := r.pkg.sec.bod
  let s1 := (b.entries.filter fun e => !(other.any fun o => o.pkg.sec.bod.entries.any (·.1 = e.1))).foldl
    (fun s e => s.bodStore e.1 0) s
  (b.regions.filter fun e => !(other.any fun o => o.pkg.sec.bod.regions.any (·.1 = e.1))).foldl
    (fun s e => (s.wr .bod BODR.EN 0 e.1).wr .bod BODR.LOCKED 0 e.1) s1

/-- A set whose last flag has been set lets go of what it held (R250, R253); it stays for its last records. -/
def State.letGo (s : State) (r : RunSet) : State :=
  let gone (x : RunSet) : RunSet := if x.key = r.key then { x with released := true } else x
  let s1 := { s with amt := { s.amt with running := s.amt.running.map gone, draining := s.amt.draining.map gone } }
  let other := s1.liveSets
  let s2 := (((s1.freeChannels r other).freeContexts r other).freeBod r other).relock
  (r.entries.filterMap r.pkg.entry?).foldl (fun s q => s.openPool q) (s2.leaveSetRings r.key)

/-- The running set, stopped, has flagged everything (R250). -/
def State.settleRunning (s : State) : State :=
  match s.amt.running with
  | some r =>
    if r.released || r.lastAdmit.isNone || s.setBusy r (fun _ => true) then s
    else (((s.letGo r).wr .amt AMT.RUN_STATE 0).wr .amt AMT.GSET_RUN 0).wr .amt AMT.PLACEMENT_IDX 0
  | none => s

/-- The old set of a swap has flagged everything (R253). -/
def State.settleDraining (s : State) : State :=
  (s.amt.draining.filter (!·.released)).foldl (fun s r =>
    if s.setBusy r (fun _ => true) then s else (s.letGo r).wr .amt AMT.MAQ_STATE 0) s

/-- The entry before a fallback, once no strip runs under it (R254). -/
def State.settleEntry (s : State) : State :=
  match s.amt.running with
  | some r => match r.oldEntry with
    | some (e, b) =>
      if s.setBusy r (fun x => decide (x.admitted < b)) then s
      else
        let s1 := { s with amt := { s.amt with running := some { r with oldEntry := none } } }
        match r.pkg.entry? e with
        | some q => s1.relock.openPool q
        | none => s1
    | none => s
  | none => s

/-- Sets let go of what they no longer need. -/
def State.settleSets (s : State) : State := s.settleRunning.settleDraining.settleEntry

/-- A set has its last record behind it, and the record after that, which may carry its values (R253); it holds nothing. -/
def RunSet.isOver (r : RunSet) (k : Nat) : Bool :=
  r.released && (match r.lastAdmit with | some e => e + r.pkg.latency < k | none => false)

/-- Sets that are over are gone from the state with their strips and runs, at a beat boundary. -/
def State.forgetSets (s : State) : State :=
  let k := s.time.beatNo
  let past := (s.amt.running.toList ++ s.amt.draining).filter (·.isOver k)
  let keys := past.map (·.key)
  if past.isEmpty then s
  else
    { s with
      amt := { s.amt with
        running := s.amt.running.filter (!·.isOver k), draining := s.amt.draining.filter (!·.isOver k)
        strips := s.amt.strips.filter fun x => !(x.gset ∈ keys)
        runs := s.amt.runs.filter fun x => !(x.gset ∈ keys)
        runCounts := s.amt.runCounts.filter fun x => !(x.1.1 ∈ keys) }
      plinth := { s.plinth with writes := s.plinth.writes.filter fun w => !(w.set ∈ keys) }
      vision := { s.vision with
        rows := s.vision.rows.filter fun r => match r.key with | .node g _ => !(g ∈ keys) | .stream _ | .ife _ _ | .engine _ _ _ => true } }

/-! ### Beginning to run (R250, R251) -/

/-- The run identity (R385). -/
def State.formRunId (s : State) (p : Package) : State :=
  let d := sha256 (p.bodyDigest ++ leBytes 4 s.mgc.fwVersion ++ leBytes 4 s.unitMap ++ s.optDigest)
  (List.range 8).foldl (fun s i => s.wr .dig DIG.RUN_ID (field d (4 * i) 4) 0 i) s

/-- Open tasks that use a core the set takes, or a counter it declares, abort (R255; at a start or swap log 29). -/
def State.takeCores (s : State) (cores : List Nat) (counters : List (Nat × Nat)) : State :=
  let hit (t : Task) : Bool := t.nodes.any (fun d => decide (4 * t.cluster + d.coreIndex ∈ cores))
    || t.held.any fun n => decide ((t.cluster, n) ∈ counters)
  (s.amt.tasks.filter hit).foldl (fun s t =>
    if (s.task? t.ctx).isSome then (s.faultRec .amt 0x3021 (faultMid t.ctx 0xFF 0xFFFF) [] false).abortTask t.ctx 0x3021
    else s) s

/-- The camera lists of a set put into their ports' queues (R120, R250). -/
def State.sendLists (s : State) (p : Package) : State :=
  p.sec.camcfg.foldl (fun s c =>
    let l := c.2.map fun b => (⟨b, nearestIndex (s.portFrame c.1) (field b 14 2), true⟩ : TunnelDesc)
    s.setCam c.1 { s.cam c.1 with configList := l, queue := (s.cam c.1).queue ++ l }) s

/-- No write of a set's camera lists waits any more: each has been acknowledged, or has failed for good (log 30). -/
def State.listsAcked (s : State) (p : Package) : Bool :=
  p.sec.camcfg.all fun c =>
    let x := s.cam c.1
    !(x.queue.any (·.config)) && !(x.resend.any (·.config)) && !(match x.outstanding with | some f => f.desc.config | none => false)

/-- A stream started (R10, R114, R119). -/
def State.startStream (s : State) (d : StreamDesc) (b0 : Nat) : State :=
  let n := s.cps CPS.PORT d.entry
  let s1 := s.setRun d.entry { StreamRun.fresh d.entry with active := true, b0 := b0, period := d.period }
  let s2 := ((s1.forgetImages fun k => decide (k = .stream d.entry)).wr .cpx CPP.TRIG_GROUP d.trigGroup n).wr .cpx CPP.TRIG_PERIOD d.period n
  let s3 := if (s2.run d.entry).dueAt s2.time.beatNo && b0 = s2.time.beatNo then s2.sendTrigger n b0 else s2
  if s3.camLos n then s3.loseFraming n 0x2101 b0
  else if s3.rd .cpx CPP.LOCK n = 0 then s3.loseFraming n 0x2102 b0 else s3

/-- A stream of a set that stops (R114): its triggers end. -/
def State.stopStream (s : State) (e : Nat) : State :=
  (s.setRun e { s.run e with active := false }).wr .cpx CPP.TRIG_PERIOD 0 (s.cps CPS.PORT e)

/-- A port's trigger sequence: its port, P, TRIG_GROUP, B0. -/
def State.sequences (s : State) (r : RunSet) : List (Nat × Nat × Nat × Nat) :=
  r.pkg.sec.streams.map fun d => (s.cps CPS.PORT d.entry, d.period, d.trigGroup, lookupD 0 d.entry r.starts)

/-- B0 of a stream of a new set: the old one where its port's triggers continue (R114), else `base` plus its offset. -/
def State.newB0 (s : State) (seqs : List (Nat × Nat × Nat × Nat)) (d : StreamDesc) (base : Nat) : Nat × Bool :=
  match seqs.find? fun q => q.1 = s.cps CPS.PORT d.entry ∧ q.2.1 = d.period ∧ q.2.2.1 = d.trigGroup with
  | some q => (q.2.2.2, true)
  | none => (base + d.offset, false)

/-- Images of an engine or front end context, and what was decided for its frames, forgotten. -/
def State.freshContext (s : State) (p : Page) (k : Nat) : State :=
  let s1 := s.forgetImages fun
    | .engine g c _ => g = p.num && c = k
    | .ife c _ => p = .ife && c = k
    | .stream _ | .node _ _ => false
  let s2 : State := { s1 with vision := { s1.vision with
    inputs := s1.vision.inputs.filter fun i => !(i.page = p.num ∧ i.ctx % 16 = k)
    lostRows := s1.vision.lostRows.filter fun i => !(i.page = p.num ∧ i.ctx = k) } }
  if p = .ife then s2.setIfe k IfeCtx.fresh else s2

/-- The contexts of a set's nodes begin anew, those of graphs that continue apart (R252). -/
def State.freshContexts (s : State) (p : Package) (e : Nat) (going : List GraphDesc) : State :=
  (p.nodes.filter fun d => !going.any (·.holds d.index)).foldl (fun s d =>
    match d.ctxOn (p.unitOf e d.index / 4) with
    | some x => s.freshContext x.1 x.2
    | none => s) s

/-- The graphs of a set that continue from another, each with the other's (R252). -/
def State.goingOn (s : State) (p : Package) (e : Nat) (r : RunSet) : List (GraphDesc × GraphDesc) :=
  let t : Trial := ⟨[], p, e, s⟩
  let o : Trial := ⟨[], r.pkg, r.entry, s⟩
  match p.entry? e, r.pkg.entry? r.entry with
  | some q, some qr => p.sec.graphs.filterMap fun g => (r.pkg.sec.graphs.find? (sameGraph t o q qr g)).map (g, ·)
  | _, _ => []

/-- Runs that the nodes of continuing graphs have behind them (R299). -/
def State.stepsKept (s : State) (r : RunSet) (going : List (GraphDesc × GraphDesc)) : List (Nat × Nat) :=
  going.flatMap fun g => (List.range g.1.nodeCount).map fun k =>
    (g.1.firstNode + k, lookupD 0 (g.2.firstNode + k) r.steps + (s.anchorStrips r (g.2.firstNode + k)).length)

/-- The Maquette's set becomes the running set: `since` its first reported beat, `base` the first beat its own triggers
count from; `old` the set it takes over from. -/
def State.runMaquette (s : State) (p : Package) (e since base : Nat) (old : Option RunSet) : State :=
  let seqs := match old with | some r => s.sequences r | none => []
  let going := match old with | some r => s.goingOn p e r | none => []
  let held := s.liveSets.flatMap fun r => (r.entries.filterMap r.pkg.entry?).flatMap (·.cores)
  let q := p.entry? e
  let cores := (match q with | some q => q.cores | none => []).filter fun u => !(u ∈ held)
  let s1 := (s.takeCores cores (match q with | some q => q.counters | none => [])).writeSet p e
  let b0s := p.sec.streams.map fun d => (d, s1.newB0 seqs d base)
  let r : RunSet := { key := s.amt.sets + 1, pkg := p, entry := e, since := since, lastAdmit := none, oldEntry := none
                      swapFrom := old.map (·.key)
                      starts := b0s.map fun x => (x.1.entry, x.2.1)
                      steps := (match old with | some o => s.stepsKept o going | none => []), released := false }
  let s2 : State := match old with
    | some o => (o.pkg.sec.streams.filter fun (d : StreamDesc) => !(p.sec.streams.any fun x => x.entry = d.entry)).foldl
        (fun (s : State) (d : StreamDesc) => s.stopStream d.entry) s1
    | none => s1
  let s3 : State := { s2 with amt := { s2.amt with
    running := some r, maquette := none, op := none, sets := s.amt.sets + 1 } }
  let s4 := b0s.foldl (fun s x =>
    if x.2.2 && (s.run x.1.entry).active && (s.run x.1.entry).b0 = x.2.1 then s else s.startStream x.1 x.2.1) s3
  let s5 := ((s4.freshContexts p e (going.map (·.1))).relock).formRunId p
  let s6 := ((s5.wr .amt AMT.GSET_RUN p.gset).wr .amt AMT.GSET_MAQ 0).wr .amt AMT.PLACEMENT_IDX e
  let inits := (p.sec.counterInit.filter fun x => !going.any (·.1.holds x.1)).foldl (fun s x =>
    s.setClu x.2.1 { s.clu x.2.1 with counters := assocSet x.2.2.1 x.2.2.2 (s.clu x.2.1).counters }) s6
  ((inits.wr .amt AMT.RUN_STATE 2).lockPages s (p.pages e)).requestPackage p

/-- START accepted (R250): the entry chosen, settings written, camera lists sent. -/
def startAct (s : State) : State :=
  match s.amt.maquette with
  | none => s
  | some (p, _) =>
    let e := (s.chooseEntry p).getD 0
    let s1 := { s with amt := { s.amt with
      maquette := some (p, e), op := some (.start (s.rd2 .amt AMT.AT_BEAT_LO AMT.AT_BEAT_HI)) } }
    (((s1.writeSet p e).lockPages s (p.pages e)).sendLists p).wr .amt AMT.RUN_STATE 1

/-- A pending start or swap given up with a refusal code (R250, R251): the Maquette stays LOADED. -/
def State.dropOp (s : State) (code detail runState : Nat) : State :=
  (({ s with amt := { s.amt with op := none } }).noteRefusal code detail).wr .amt AMT.RUN_STATE runState

/-- ADMIT_BEGIN (R250): at a boundary at or after AT_BEAT with every list acknowledged. -/
def execAdmitBegin (s : State) : Result :=
  let k := s.time.beatNo
  .next (match s.amt.op, s.amt.maquette with
    | some (.start b), some (p, _) =>
      if k < b ∨ s.time.phase ≠ .early ∨ !s.listsAcked p then s
      else match s.chooseEntry p with
        | none => s.dropOp 5 (refusalDetail p.placementPos 0xFFFF) 0
        | some e =>
          let past := s.amt.running.filter fun r => !r.isOver k
          let s1 : State := { s with amt := { s.amt with draining := s.amt.draining ++ past.toList, running := none } }
          ((s1.runMaquette p e k k none).wr .amt AMT.MAQ_STATE 0).raise .amt 2
    | _, _ => s)

/-! ### Stop, swap, discard -/

/-- STOP accepted (R250, R253): a pending swap is abandoned. -/
def stopAct (s : State) : State :=
  ({ s with amt := { s.amt with op := some (.stop (s.rd2 .amt AMT.AT_BEAT_LO AMT.AT_BEAT_HI)) } }).wr .amt AMT.RUN_STATE 2

/-- STOP_EFFECT (R250): at beat e admission ends with the strips of that boundary. -/
def execStopEffect (s : State) : Result :=
  let k := s.time.beatNo
  .next (match s.amt.op, s.amt.running with
    | some (.stop b), some r =>
      if k < b ∨ s.time.phase ≠ .early then s
      else
        let s1 : State := { s with amt := { s.amt with op := none, running := some { r with lastAdmit := some k } } }
        let s2 := r.pkg.sec.streams.foldl (fun (s : State) (d : StreamDesc) => s.stopStream d.entry) s1
        ((s2.wr .amt AMT.RUN_STATE 4).raise .amt 4).settleRunning
    | _, _ => s)

/-- SWAP accepted (R251): the entry chosen again, the camera lists sent. -/
def swapAct (s : State) : State :=
  match s.amt.maquette with
  | none => s
  | some (p, _) =>
    let e := (s.chooseEntry p).getD 0
    let s1 := { s with amt := { s.amt with
      maquette := some (p, e), op := some (.swap s.time.beatNo (s.rd2 .amt AMT.AT_BEAT_LO AMT.AT_BEAT_HI)) } }
    (s1.sendLists p).wr .amt AMT.RUN_STATE 3

/-- A stream has a frame open at boundary `w`, or a strip partly acquired (R251): one of its triggers lies before `w` and the
deadline of the last row it brings after. -/
def State.frameOpen (s : State) (r : StreamRun) (w : Nat) : Bool :=
  if !r.active || r.period = 0 || w ≤ r.b0 then false
  else
    let n := (w - 1 - r.b0) / r.period
    if s.cps CPS.LINESCAN r.entry = 1 then
      (n + 1) % s.stripHeight r.entry ≠ 0 || w < s.rowDue r n 0
    else decide (w < s.rowDue r n (s.frameRows r.entry - 1))

/-- Boundary `w` is clean for a running set and the set in the Maquette (R251). -/
def State.clean (s : State) (r : RunSet) (p : Package) (w : Nat) : Bool :=
  (r.pkg.sec.streams ++ p.sec.streams).all fun d => !s.frameOpen (s.run d.entry) w

/-- The swap takes place at boundary `w` (R251). -/
def State.swapsAt (s : State) (w : Nat) : Bool :=
  match s.amt.op, s.amt.maquette, s.amt.running with
  | some (.swap _ b), some (p, _), some r => b ≤ w && s.listsAcked p && s.clean r p w
  | _, _, _ => false

/-- CLEAN_BOUNDARY (R251–R253): the old set drains, the Maquette's set runs. -/
def execCleanBoundary (s : State) : Result :=
  let w := s.time.beatNo
  .next (match s.amt.maquette, s.amt.running with
    | some (p, _), some r =>
      if !s.swapsAt w ∨ s.time.phase ≠ .early then s
      else match s.chooseEntry p with
        | none => s.dropOp 5 (refusalDetail p.placementPos 0xFFFF) 2
        | some e =>
          let old := { r with lastAdmit := some w }
          let s1 : State := { s with amt := { s.amt with draining := s.amt.draining ++ [old], running := none } }
          let s2 := (s1.runMaquette p e w (w + 1) (some old)).wr .amt AMT.MAQ_STATE 3
          ((s2.wr2 .amt AMT.LAST_SWAP_BEAT_LO AMT.LAST_SWAP_BEAT_HI w).raise .amt 3).settleDraining
    | _, _ => s)

/-- SWAP_WAIT_EXPIRE (R251): code 0x18, and the set keeps running. -/
def execSwapWaitExpire (s : State) : Result :=
  .next (match s.amt.op with
    | some (.swap c _) =>
      if c + s.rd .amt AMT.SWAP_WAIT ≤ s.time.beatNo then s.dropOp 0x18 (refusalDetail 0xFF 0xFFFF) 2 else s
    | some (.start _) | some (.stop _) | none => s)

/-- DISCARD accepted (R249): the Maquette is empty. -/
def discardAct (s : State) : State :=
  (({ s with amt := { s.amt with maquette := none } }).wr .amt AMT.MAQ_STATE 0).wr .amt AMT.GSET_MAQ 0

/-- What a value of OP_CMD does, once accepted; the load's audit entry comes at its end. -/
def opAct (s : State) (v role port : Nat) : State :=
  if v = 1 then loadAct s role port
  else
    let g := s.opGset (v = 3)
    let s1 := if v = 2 then startAct s else if v = 3 then stopAct s else if v = 4 then swapAct s
      else if v = 5 then discardAct s else s
    s1.auditOp role port 0 g 0

/-! ### Moving off a retired core (R254, R255) -/

/-- FALLBACK_ABORT (R255): at boundary d + 1 open work on the cores of the entry to come ends, and their scratchpads are
wiped. -/
def execFallbackAbort (s : State) : Result :=
  .next (match s.amt.retiring, s.amt.running with
    | some m, some r =>
      if m.aborted ∨ s.time.beatNo < m.d + 1 ∨ r.released then s
      else
        let e := s.chooseEntry r.pkg
        let now : List Nat := match r.pkg.entry? r.entry with | some q => q.cores | none => []
        let next : Option Placement := e.bind r.pkg.entry?
        let cores := (match next with | some q => q.cores | none => []).filter fun u => !(u ∈ now)
        let s1 := s.takeCores cores (match next with | some q => q.counters | none => [])
        let s2 := (cores.filter (· % 4 ≠ 3)).foldl (fun s u => (s.forgetArray false u).wipe (spmBase u) 0x200000) s1
        let s3 := s2.dropCapture cores
        { s3 with amt := { s3.amt with retiring := some { m with aborted := true, entry := e } } }
    | _, _ => s)

/-- The running set moves to an entry at boundary `b` (R254). -/
def State.moveTo (s : State) (r : RunSet) (e b : Nat) : State :=
  let r1 := { r with entry := e, oldEntry := some (r.entry, b) }
  let s1 := { s with amt := { s.amt with running := some r1, retiring := none } }
  let s2 := ((s1.writeContexts r.pkg e).writeChannels r.pkg e).relock
  let s3 := (s2.lockPages s (r.pkg.pages e)).wr .amt AMT.PLACEMENT_IDX e
  (s3.fault .amt 0x3020).raise .amt 5

/-- FALLBACK_ENTERED (R254, R256): at boundary s the set moves to the first usable entry; without one the device enters safe
state. -/
def execFallbackEntered (s : State) : Result :=
  .next (match s.amt.retiring with
    | none => s
    | some m =>
      if s.time.beatNo < m.s ∨ s.time.phase ≠ .early then s
      else
        let s1 : State := { s with amt := { s.amt with retiring := none } }
        match s.amt.running with
        | none => s1
        | some r =>
          if r.released then s1
          else match s.chooseEntry r.pkg with
            | none => s1.addCause 6 0xFF s1.inUseUnits
            | some e => if e = r.entry then s1 else s1.moveTo r e s.time.beatNo)

end Sys2Proof.Machine
end

