-- ==== Sys2Proof/Machine/Nodes.lean ====
section
/-! DEFINITION. Strips admitted (R8, R116, R119, R120) and the nodes of a locked set at their clocks (R231, R237,
R242–R244, R263, R386–R391). -/

namespace Sys2Proof.Machine

/-! ### Admission -/

/-- The rows of strip `i` of frame `n`, or of line strip `i`: each by trigger or frame and row. -/
def State.rowsOf (s : State) (e n i : Nat) : List (Nat × Nat) :=
  let h := s.stripHeight e
  if s.cps CPS.LINESCAN e = 1 then s.stripRows e h (i * h) 0 else s.stripRows e h n (i * h)

/-- A strip all of whose rows are settled: its acquisition beat and row mask (R8, R116). -/
def StreamRun.settled (r : StreamRun) (xs : List (Nat × Nat)) : Option (Nat × Nat) :=
  let seen := xs.map fun x => (r.frame x.1).seen x.2
  if seen.any Option.isNone then none
  else
    let l := seen.filterMap id
    some ((l.map (·.beat)).foldl max 0, ofBits 64 fun i => match l[i]? with | some y => y.got | none => false)

/-- A strip about to be admitted: frame, index in it, whether it is the frame's last, acquisition beat, mask, rows. -/
structure Ready where
  frame : Nat
  index : Nat
  last : Bool
  acq : Nat
  mask : Nat
  rows : Nat

/-- The strips of a stream that are due at boundary `k` and not yet admitted; in line-scan `admitted` stands in the frame of
a strip's first trigger. -/
def State.readyStrips (s : State) (r : StreamRun) (k : Nat) : List Ready :=
  let h := s.stripHeight r.entry
  let line : Bool := s.cps CPS.LINESCAN r.entry = 1
  let count := if line then 1 else ceilDiv (s.frameRows r.entry) h
  let frames := if line then r.frames.filter (·.n % h = 0) else r.frames
  frames.flatMap fun f => (List.range count).filterMap fun j =>
    let i := if line then f.n / h else j
    let xs := s.rowsOf r.entry f.n i
    match (if i ∈ f.admitted then none else r.settled xs) with
    | some (a, m) => if a + 1 ≤ k then some ⟨if line then i else f.n, if line then 0 else i, line || j + 1 = count, a, m, xs.length⟩ else none
    | none => none

/-- Framing lost ends with a strip that has every row, once light and lock are there (R120). -/
def State.endLost (s : State) (n : Nat) (x : Ready) : State :=
  match (s.cam n).lost with
  | some l =>
    if l.since ≤ x.acq && x.mask = 2 ^ x.rows - 1 && !s.camLos n && s.rd .cpx CPP.LOCK n = 1 then
      (s.setCam n { s.cam n with lost := none, spans := (s.cam n).spans ++ [(l.since, x.acq)] }).showLost n false
    else s
  | none => s

/-- The flow field of a front end context (R137): OFE page number and context. -/
def RunSet.flowOf (r : RunSet) (c : Nat) : Option (Nat × Nat) := (r.pkg.sec.flowFor.find? (·.1 = c)).map (·.2)

/-- What is checked before the first strip of a frame is admitted (R138, R162, R179, R182). -/
def State.frameChecks (s : State) (r : RunSet) (e n : Nat) : State :=
  (r.pkg.nodes.filter fun d => r.pkg.root d.index = some e).foldl (fun s d =>
    let u := r.pkg.unitOf r.entry d.index
    if d.cls = .ife then s.motionCheck d.engineCtx n (r.flowOf d.engineCtx) true
    else if u < 24 then s.engineCheck (.set r.key d.index) d (u / 4) n true else s) s

/-- One strip admitted at boundary `k`; `set` admits it when it has one. -/
def State.admitOne (s : State) (set : Option RunSet) (e k : Nat) (x : Ready) : State :=
  let r := s.run e
  let h := s.stripHeight e
  let fn := if s.cps CPS.LINESCAN e = 1 then x.frame * h else x.frame
  let f := r.frame fn
  let f1 := { f with admitted := f.admitted ++ [if s.cps CPS.LINESCAN e = 1 then x.frame else x.index] }
  let s0 := (s.endLost (s.cps CPS.PORT e) x).setRun e { r.setFrame f1 with serial := r.serial + 1 }
  match set with
  | none => s0
  | some t =>
    let s1 := if x.index = 0 then s0.frameChecks t e x.frame else s0
    let y : Strip := { gset := t.key, stream := e, frame := x.frame, index := x.index, serial := r.serial, acq := x.acq
                       admitted := k, mask := x.mask, lastOfFrame := x.last }
    { s1 with amt := { s1.amt with strips := s1.amt.strips ++ [y] } }

/-- The set that admits a stream's strips at this boundary: the running one until its end is fixed. -/
def State.admitting (s : State) (e : Nat) : Option RunSet :=
  s.amt.running.filter fun r => !r.released && r.lastAdmit.isNone && r.pkg.sec.streams.any (·.entry = e)

/-- Strips admitted at the boundary of beat `k` (R8). -/
def State.admitStrips (s : State) (k : Nat) : State :=
  (s.vision.streams.filter (·.active)).foldl (fun s r =>
    (s.readyStrips (s.run r.entry) k).foldl (fun s x => s.admitOne (s.admitting r.entry) r.entry k x) s) s

/-- ROW_DEADLINE (R116), at or after the boundary of the row's deadline. The row counts as arriving in the beat before, so a
strip that it settles is still admitted at that boundary (log 43). -/
def execRowDeadline (stream : Fin 32) (frame row : Nat) (s : State) : Result :=
  let r := s.run stream
  .next (if r.active && s.cps CPS.TRIGGERED stream = 1 && row < s.frameRows stream
      && s.rowDue r frame row ≤ s.time.beatNo && ((r.frame frame).seen row).isNone then
    let t := s.missRow r frame row
    if t.time.phase = .early then t.admitStrips t.time.beatNo else t
  else s)

/-! ### What a run works on -/

/-- The strip a node works on for an anchor strip (R229, R234): `step` strips on in the stream, among those the set admitted,
or before them among those of the set it took over from. -/
def State.worked (s : State) (r : RunSet) (x : Strip) (step : Int) : Option Strip :=
  let q := (x.serial : Int) + step
  let mine := s.amt.strips.filter fun y => y.gset = r.key ∧ y.stream = x.stream
  if q < 0 then none
  else match mine.find? (·.serial = q.toNat) with
    | some y => some y
    | none =>
      if mine.all fun y => decide (q.toNat < y.serial) then
        s.amt.strips.reverse.find? fun y => y.stream = x.stream ∧ y.serial = q.toNat
      else none

/-- The oldest acquisition beat on which a node's result for strip number `q` depends (R237): back through what the package
declares, node by node and step by step, to strips of a driving stream (input 0x8000 + n). -/
def State.oldest (s : State) (r : RunSet) (x : Strip) : Nat → Nat → Int → Option Nat
  | 0, _, _ => none
  | n + 1, i, q =>
    let acq (e : Nat) (q : Int) : Option Nat :=
      (s.amt.strips.find? fun y => y.stream = e ∧ (y.serial : Int) = q ∧ y.acq ≤ x.acq).map (·.acq)
    let ins := r.pkg.sec.deps.filter (·.1 = i)
    let one (d : Nat × Nat × Int) : Option Nat :=
      if 0x8000 ≤ d.2.1 then
        acq ((((r.pkg.graphOf i).bind fun g => g.2.streams[d.2.1 - 0x8000]?)).getD x.stream) (q + d.2.2)
      else s.oldest r x n d.2.1 (q + d.2.2)
    if ins.isEmpty then acq x.stream q else minNat? (ins.filterMap one)

/-- A_OLD of a node's run for an anchor strip (R237). -/
def State.acqOldOf (s : State) (r : RunSet) (d : NodeDesc) (x : Strip) : Nat :=
  min x.acq ((s.oldest r x 64 d.index ((x.serial : Int) + d.step)).getD x.acq)

/-- The index of an anchor strip among those that the set has admitted for a node's anchor: J (R299, R386); a graph that
continues through a swap counts on. -/
def State.runIndex (s : State) (r : RunSet) (i : Nat) (x : Strip) : Nat :=
  lookupD 0 i r.steps + ((s.anchorStrips r i).filter fun y => y.serial < x.serial).length

/-- The lesser of two poison reasons. -/
def worse (a b : Option Nat) : Option Nat :=
  match a, b with
  | some x, some y => some (min x y)
  | some x, none => some x
  | none, y => y

/-! ### Strip flags (R242, R243) -/

/-- The cluster of an input flag: a core's own; a node without unit reads the flag where its producer sets it. -/
def Package.flagCluster (p : Package) (u f : Nat) : Nat :=
  if u < 24 then u / 4 else ((p.sec.flags.find? (·.flag = f)).map (·.cluster)).getD 0

/-- The input flags of a node in an entry: cluster and number. -/
def Package.inputs (p : Package) (e : Nat) (d : NodeDesc) : List (Nat × Nat) :=
  (List.range d.inCount).map fun i => (p.flagCluster (p.unitOf e d.index) (d.inFlag + i), d.inFlag + i)

/-- STRIP of the strip that a node works on. -/
def stripByte (x : Strip) (d : NodeDesc) : Nat := ofInt 8 ((x.serial : Int) + d.step)

/-- A flag of a cluster. -/
def State.flag? (s : State) (c f : Nat) : Option StripFlag :=
  match ((s.clu c).flags.find? (·.1 = f)).map (·.2) with
  | some g => if g.full then some g else none
  | none => none

/-- A flag's fault (R243): its record, counted on the cluster's page. -/
def State.flagFault (s : State) (c code u node : Nat) : State :=
  ((s.faultRec (.clu c) code (faultMid 0xFF u node) [] false).count (.clu c) CLU.CNT_FLAG_FAULT).raise (.clu c) 0

/-- The input flags of a node checked at its start clock (R243): answers the poison they bring. -/
def State.checkFlags (s : State) (p : Package) (e : Nat) (d : NodeDesc) (x : Strip) : State × Option Nat :=
  (p.inputs e d).foldl (fun (a : State × Option Nat) (c : Nat × Nat) =>
    match a.1.flag? c.1 c.2 with
    | some g =>
      if g.strip ≠ stripByte x d then (a.1.flagFault c.1 0x3001 (p.unitOf e d.index) d.index, worse a.2 (some 0x21))
      else (a.1, if g.poison then worse a.2 (some g.reason) else a.2)
    | none => (a.1.flagFault c.1 0x3001 (p.unitOf e d.index) d.index, worse a.2 (some 0x21))) (s, none)

/-- The counters of a node checked and set to their initial values again (R244, log 23). -/
def State.checkCounters (s : State) (p : Package) (u : Nat) (d : NodeDesc) : State × Option Nat :=
  (p.sec.counterInit.filter (·.1 = d.index)).foldl (fun (a : State × Option Nat) (x : Nat × Nat × Nat × Nat) =>
    let bad : Bool := (a.1.clu x.2.1).counter x.2.2.1 ≠ 0
    let s1 := if bad then a.1.counterFault x.2.1 0x3003 0xFF u d.index else a.1
    let k := s1.clu x.2.1
    (s1.setClu x.2.1 { k with counters := assocSet x.2.2.1 x.2.2.2 k.counters }, if bad then worse a.2 (some 0x21) else a.2))
    (s, none)

/-- A reader has completed: READERS one lower, FULL clear at zero (R242). -/
def State.readFlag (s : State) (c f : Nat) : State :=
  match s.flag? c f with
  | none => s
  | some g =>
    let k := s.clu c
    let g1 := { g with readers := g.readers - 1, full := 1 < g.readers }
    s.setClu c { k with flags := assocSet f g1 k.flags }

/-- The input flags of a node read. -/
def State.readFlags (s : State) (p : Package) (e : Nat) (d : NodeDesc) : State :=
  (p.inputs e d).foldl (fun s c => s.readFlag c.1 c.2) s

/-- Successors decremented (R244): a counter already at zero poisons the outputs. -/
def State.readySuccessors (s : State) (p : Package) (u : Nat) (d : NodeDesc) : State × Option Nat :=
  (p.sec.successors.filter (·.1 = d.index)).foldl (fun (a : State × Option Nat) (x : Nat × Nat × Nat) =>
    let r := a.1.decCounter x.2.1 x.2.2
    if r.2 then (r.1.counterFault x.2.1 0x3004 0xFF u d.index, worse a.2 (some 0x21)) else (r.1, a.2)) (s, none)

/-- An output flag set (R242); still full, the old contents stay (R243). -/
def State.setFlag (s : State) (u : Nat) (x : FlagDecl) (g : StripFlag) : State × Option Nat :=
  match s.flag? x.cluster x.flag with
  | some _ => (s.flagFault x.cluster 0x3002 u x.node, some 0x21)
  | none =>
    let k := s.clu x.cluster
    (s.setClu x.cluster { k with flags := assocSet x.flag g k.flags }, none)

/-- Every output flag of a node. -/
def State.setFlags (s : State) (p : Package) (u : Nat) (d : NodeDesc) (x : Strip) (poison : Option Nat) (acqOld : Nat) :
    State × Option Nat :=
  (p.sec.flags.filter (·.node = d.index)).foldl (fun (a : State × Option Nat) (f : FlagDecl) =>
    let g : StripFlag := ⟨stripByte x d, f.readers % 16, true, poison.isSome, poison.getD 0, acqOld⟩
    let r := a.1.setFlag u f g
    (r.1, worse a.2 r.2)) (s, none)

/-! ### Start clocks -/

/-- The set, node and strip that a clock of a node belongs to: the older set first, a run that has begun or not. -/
def State.runOf (s : State) (node strip : Nat) (begun : Bool) : Option (RunSet × NodeDesc × Strip) :=
  ((s.amt.draining ++ s.amt.running.toList).filter (!·.released)).findSome? fun r =>
    (r.pkg.node? node).bind fun d => ((s.anchorStrips r node).find? (·.serial = strip)).bind fun x =>
      let n := s.amt.runs.find? fun n => n.gset = r.key ∧ n.node = node ∧ n.strip = strip
      match n with
      | some n => if begun && !n.flagged && !n.lost then some (r, d, x) else none
      | none => if begun then none else some (r, d, x)

/-- A run entered. -/
def State.addRun (s : State) (n : NodeRun) : State := { s with amt := { s.amt with runs := n :: s.amt.runs } }

/-- A run changed. -/
def State.setRunOf (s : State) (n : NodeRun) : State :=
  { s with amt := { s.amt with runs := s.amt.runs.map fun x =>
      if x.gset = n.gset ∧ x.node = n.node ∧ x.strip = n.strip then n else x } }

/-- The run of a node for a strip. -/
def State.findRun (s : State) (key node strip : Nat) : Option NodeRun :=
  s.amt.runs.find? fun n => n.gset = key ∧ n.node = node ∧ n.strip = strip

/-- A tensor node takes a place on its core. -/
def State.placeCore (s : State) (u key node strip j : Nat) (poison : Option Nat) : State :=
  let used := (s.core u).nodes.map (·.slot)
  let slot := ((List.range 64).find? fun k => !(k ∈ used)).getD 0
  let n : CoreNode :=
    { slot := slot, locked := true, gset := key, ctx := 0xFF, node := node, strip := strip, cmd := 0, busy := false
      stage := none, finished := false, reran := false, needsRerun := false, dead := false, waiting := none
      waitSince := 0, poison := poison, noRerun := false, combined := false, digest := Digest.start j }
  s.setCore u ((s.core u).nodes ++ [n])

/-- The lists of a node armed at its start clock (R370, R372). -/
def State.armNode (s : State) (r : RunSet) (d : NodeDesc) (u : Nat) : State :=
  (r.pkg.sec.channels.filter (·.node = d.index)).foldl (fun s c =>
    s.armList (if u < 24 then u else c.unit) c.number ⟨c.addr, c.count⟩) s

/-- A unit that a node needs is gone: its run is lost (R254). -/
def State.unitGone (s : State) (u : Nat) : Bool := u < 24 && (s.retired u || !s.domainReady u)

/-- A locked run begins (R231, R243, R244). -/
def State.startRun (s : State) (r : RunSet) (d : NodeDesc) (x : Strip) : State :=
  let e := r.entryFor x
  let u := r.pkg.unitOf e d.index
  let j := s.runIndex r d.index x
  let n : NodeRun := { gset := r.key, node := d.index, strip := x.serial, unit := u, index := j, poison := none, rerun := false
                       acqNew := x.acq, acqOld := s.acqOldOf r d x, flagged := false, lost := false, digest := Digest.start j }
  if u = 0xFF then s
  else if s.unitGone u then s.addRun { n with lost := true }
  else
    let a := s.checkFlags r.pkg e d x
    let b := a.1.checkCounters r.pkg u d
    let n1 := { n with poison := worse a.2 b.2 }
    let s1 : State := { b.1 with amt := { b.1.amt with runCounts := assocSet (r.key, d.index) j b.1.amt.runCounts } }
    let s2 := ((s1.addRun n1).attachNode u d true (nodeConsumer true 0 r.key d.index)).armNode r d u
    if d.cls = .tensor ∧ u < 24 then s2.placeCore u r.key d.index x.serial j n1.poison else s2

/-- NODE_START_CLOCK (R231, R243): a locked node, a record write apart, begins for an anchor strip. -/
def execNodeStartClock (node strip : Nat) (s : State) : Result :=
  .next (match s.runOf node strip false with
    | some (r, d, x) => if d.cls = .recordWrite then s else s.startRun r d x
    | none => s)

/-! ### Flag clocks -/

/-- The fault record of an engine node unfinished at its flag clock (R173, R190, R202, R219, R226). -/
def missCode : NodeClass → Nat
  | .tensor => 0x3033
  | .sge => 0x3070
  | .ofe => 0x3080
  | .fpeDetect => 0x3090
  | .fpeMatch => 0x3091
  | .wpe => 0x30A0
  | .pye => 0x30B0
  | .ife => 0x3060
  | .recordWrite | .cameraControl => 0

/-- What a run has come to at its flag clock. -/
structure Flagged where
  poison : Option Nat
  digest : Digest
  rerun : Bool
  combined : Bool

/-- A tensor node at its flag clock (R263): one that has not finished is ended, with poisoned outputs. -/
def State.flagTensor (s : State) (r : RunSet) (d : NodeDesc) (x : Strip) (u : Nat) (n : NodeRun) : State × Flagged :=
  match (s.core u).nodes.find? fun c => c.locked && c.gset = r.key && c.node = d.index && c.strip = x.serial with
  | none => (s, ⟨worse n.poison (some 0x21), n.digest, false, false⟩)
  | some c =>
    let ok : Bool := c.finished && !c.dead && !c.needsRerun
    let s1 := s.freeSlot u c.slot
    let s2 := if ok then s1
      else ((s1.faultRec (.tc u) 0x3033 (faultMid 0xFF u d.index) [] false).count (.tc u) TC.CNT_CMD_FAULT).raise (.tc u) 1
    let frame := (s.worked r x d.step).map fun y => (y.frame, y.lastOfFrame)
    let s3 := match frame with
      | some (f, last) => if last || d.perFrame then s2.completeImage (.node r.key d.index) f else s2
      | none => s2
    (s3, ⟨worse (worse n.poison c.poison) (if ok then none else some 0x21), c.digest, c.reran, c.combined⟩)

/-- A vision engine or front end node at its flag clock: its strip becomes visible, or is missed. -/
def State.flagEngine (s : State) (r : RunSet) (d : NodeDesc) (x : Strip) (u : Nat) (n : NodeRun) (finished : Bool)
    (line : LineCheck) : State × Flagged :=
  let c := u / 4
  let y := s.worked r x (if d.perFrame then 0 else d.step)
  let page : Page := if d.cls = .ife then .ife else (d.page c).getD .ife
  if !finished then
    (s.faultRec page (missCode d.cls) (faultMid 0xFF u d.index) [] false,
     ⟨worse n.poison (some 0x21), n.digest, false, false⟩)
  else match y with
    | none => (s, ⟨n.poison, n.digest, false, false⟩)
    | some y =>
      let k := if d.perFrame then 0 else y.index
      let sh := if d.perFrame then s.engineHeight d c else s.stripHeight x.stream
      let l := s.lineCheck d c y.frame line
      let o := l.1.engineStrip (.set r.key d.index) d c y.frame k sh (y.lastOfFrame || d.perFrame) y.acq (r.flowOf d.engineCtx)
      let bad := (firstFault l.2 o.2).map fun _ => 0x20
      (o.1, ⟨worse n.poison bad, n.digest.add (o.1.newOutput s d c), false, false⟩)

/-- A camera control node at its flag clock (R121, R150; log 31): the pushes the package declares for it, and the tunnel
descriptor at its command address. -/
def State.flagControl (s : State) (r : RunSet) (d : NodeDesc) (n : NodeRun) : State × Flagged :=
  let ps := r.pkg.sec.pq.filter (·.node = d.index)
  let bad : Bool := ps.any fun x => s.poisonMap x.addr 1088 ≠ 0
  let s1 := ps.foldl (fun s x => s.graphPush x) s
  let b := s.load d.cmdAddr 16
  let s2 := if d.cmdAddr ≠ 0 && tunnelOk b then s1.pushTunnel b else s1
  (s2, ⟨worse n.poison (if bad then some 0x20 else none), n.digest.add b, false, false⟩)

/-- What the unit of a node does at its flag clock. -/
def State.flagUnit (s : State) (r : RunSet) (d : NodeDesc) (x : Strip) (n : NodeRun) (finished : Bool)
    (line : LineCheck) : State × Flagged :=
  match d.cls with
  | .tensor => s.flagTensor r d x n.unit n
  | .cameraControl => s.flagControl r d n
  | .sge | .ofe | .fpeDetect | .fpeMatch | .wpe | .pye | .ife => s.flagEngine r d x n.unit n finished line
  | .recordWrite => (s, ⟨n.poison, n.digest, false, false⟩)

/-- A locked run logged, where the package selects it (R389, R390). -/
def State.logLocked (s : State) (r : RunSet) (n : NodeRun) (f : Flagged) : State :=
  match r.pkg.logged.find? (·.1 = n.node) with
  | some (_, every) =>
    if every ≠ 0 ∧ n.index % every = 0 then
      s.logDigest { j := n.index, node := n.node, digest := f.digest, gset := r.pkg.gset
                    ctx := ((r.pkg.graphOf n.node).map (·.1)).getD 0
                    flags := b2n f.poison.isSome + 2 * b2n f.rerun + 4 * b2n f.combined, cookie := 0 }
    else s
  | none => s

/-- A poisoned locked node of a tensor core is a cause of capture (R347). -/
def State.capturePoison (s : State) (u node : Nat) (poison : Option Nat) : State :=
  if poison.isSome ∧ u < 24 ∧ u % 4 ≠ 3 then s.pmCause 2 u 0xFF node 0 else s

/-- A locked run at its flag clock (R242–R244, R263). -/
def State.flagRun (s : State) (r : RunSet) (d : NodeDesc) (x : Strip) (n : NodeRun) (finished : Bool)
    (line : LineCheck) : State :=
  if s.unitGone n.unit then s.setRunOf { n with lost := true }
  else
    let a := s.flagUnit r d x n finished line
    let t := if d.cls = .tensor then a.1.passSlots n.unit d true (nodeConsumer true 0 r.key d.index) (s.cmdsOf d) else a.1
    let b := (t.readFlags r.pkg (r.entryFor x) d).readySuccessors r.pkg n.unit d
    let p := worse a.2.poison b.2
    let c := b.1.setFlags r.pkg n.unit d x p n.acqOld
    let f : Flagged := { a.2 with poison := worse p c.2 }
    let s1 := c.1.setRunOf { n with flagged := true, poison := f.poison, rerun := f.rerun, digest := f.digest }
    ((s1.logLocked r n f).capturePoison n.unit d.index f.poison).settleSets

/-- NODE_FLAG_CLOCK (R231, R242, R243, R263): a locked run sets its output flags; `finished`: an engine's work is done;
`line`: what its line memory met. -/
def execNodeFlagClock (node strip : Nat) (finished : Bool) (line : LineCheck) (s : State) : Result :=
  .next (match s.runOf node strip true with
    | some (r, d, x) => match s.findRun r.key node strip with
      | some n => s.flagRun r d x n finished line
      | none => s
    | none => s)

/-! ### Record writes (R237, R391) -/

/-- The run a record write is anchored on: its producer's, or none for a stream; lost or missing where it cannot write. -/
def State.producerRun (s : State) (r : RunSet) (d : NodeDesc) (x : Strip) : Option (Option NodeRun) :=
  match d.anchor with
  | .stream _ => some none
  | .node j => ((s.findRun r.key j x.serial).filter fun n => n.flagged && !n.lost).map some

/-- One field written into the record buffer. -/
def State.writeRecordField (s : State) (r : RunSet) (n : NodeRun) (producer : Option NodeRun) (w : Nat × Nat × Bool × Nat) : State :=
  match r.pkg.sec.payload[w.2.1]? with
  | none => s
  | some pf =>
    let b := s.load w.2.2.2 pf.len
    let dg := match producer with | some q => q.digest | none => n.digest.add b
    let y : RecWrite := { set := r.key, field := w.2.1, alternate := w.2.2.1, acqNew := n.acqNew, acqOld := n.acqOld
                          poison := n.poison, value := leNat b, d1 := dg.d1, d2 := dg.d2 }
    { s with plinth := { s.plinth with writes := y :: s.plinth.writes } }

/-- A record write node at its clock. -/
def State.recordWrite (s : State) (r : RunSet) (d : NodeDesc) (x : Strip) : State :=
  let e := r.entryFor x
  if r.pkg.unitOf e d.index = 0xFF then s
  else match s.producerRun r d x with
    | none => s
    | some q =>
      let a := s.checkFlags r.pkg e d x
      let b := a.1.checkCounters r.pkg 0xFE d
      let j := s.runIndex r d.index x
      let ws := r.pkg.sec.recordWrites.filter (·.1 = d.index)
      let bytes := ws.flatMap fun w => match r.pkg.sec.payload[w.2.1]? with | some pf => s.load w.2.2.2 pf.len | none => []
      let n : NodeRun := { gset := r.key, node := d.index, strip := x.serial, unit := 0xFE, index := j
                           poison := worse (worse a.2 b.2) (q.bind (·.poison)), rerun := false, acqNew := x.acq
                           acqOld := s.acqOldOf r d x, flagged := true, lost := false, digest := Digest.start j }
      let s1 := ws.foldl (fun s w => s.writeRecordField r n q w) b.1
      let n1 := { n with digest := n.digest.add bytes }
      let s2 := (s1.readFlags r.pkg e d).readySuccessors r.pkg 0xFE d
      ((s2.1.addRun n1).logLocked r n1 ⟨n1.poison, n1.digest, false, false⟩).settleSets

/-- RECORD_WRITE (R237): a record write node whose producer is lost or has not flagged writes nothing. -/
def execRecordWrite (node strip : Nat) (s : State) : Result :=
  .next (match s.runOf node strip false with
    | some (r, d, x) => if d.cls = .recordWrite then s.recordWrite r d x else s
    | none => s)

end Sys2Proof.Machine
end

