-- ==== Sys2Proof/Machine/Plinth.lean ====
section
/-! DEFINITION. The Plinth at work: forming and sending records (R13–R23, R411, R414), the safety ports (R395–R397), safe
state cleared and inhibited (R412, R413). -/

namespace Sys2Proof.Machine

/-! ### The record -/

/-- Bytes laid over a list at an offset. -/
def layBytes (l : List Byte) (o : Nat) (b : List Byte) : List Byte := l.take o ++ b ++ l.drop (o + b.length)

/-- The 68 payload bytes (R13, R16, R405): values as computed, NO_VALUE where a pair withholds the field; a failed field's
bytes are free (log 16). -/
def State.payload (s : State) (r : RunSet) (k : Nat) (was : List PairState) (cs : List Choice) : List Byte :=
  ((r.pkg.sec.payload.zip cs).zip (List.range 32)).foldl (fun l x =>
    let pf := x.1.1
    let v : Nat := match s.withholder r was x.2, x.1.2 with
      | some c, _ => noValue c.type
      | none, .used w => w.value
      | none, .failed _ => Config.openValue 5 [k, x.2]
      | none, .noWrite => 0
    layBytes l (pf.off - 28) (leBytes pf.len v)) (zeros 68)

/-- DIGEST_FOLD (R391, R405): over the fields used and not withheld. -/
def State.digestFold (s : State) (r : RunSet) (was : List PairState) (cs : List Choice) : Nat :=
  let l := (cs.zip (List.range 32)).filterMap fun x =>
    match x.1 with
    | .used w => if (s.withholder r was x.2).isSome then none else some (x.2, w)
    | .failed _ | .noWrite => none
  if l.isEmpty then 0
  else crc64A (l.flatMap fun x => leBytes 1 x.1 ++ leBytes 8 x.2.d1 ++ leBytes 8 x.2.d2)

/-- The reason a SAFE record carries (R410): the lowest cause that is not gone, else 0x09. -/
def State.safeReason (s : State) : Nat × Nat :=
  let r := pickReason (s.plinth.causes.map fun c => (c.code, c.detail))
  if r.1 = 0 then (9, 0xFF) else r

/-- Cause 0x06 ends while the underlying verdict is not INVALID and a usable entry is in use, or no set runs (R410); the
targeted tests of its units then count. -/
def State.endBudget (s : State) (underlying : Nat) : State :=
  let entryOk : Bool := match s.inUse with | some p => s.usable p | none => true
  if underlying = 2 ∨ !entryOk ∨ !(s.plinth.causes.any fun c => c.code = 6 && !c.ended) then s
  else
    let us := (s.plinth.causes.filter (·.code = 6)).flatMap (·.units)
    (s.wantTargeted (us.flatMap unitInst)).endCauses 6 fun _ => true

/-- The interruption budget (R414). -/
def State.checkBudget (s : State) (underlying : Nat) : State :=
  let win := (s.plinth.history.take 63).filter id
  if underlying = 2 ∧ (8 ≤ s.rd .pln PLN.INV_RUN ∨ s.rd .pln PLN.INV_WIN_MAX < win.length + 1) then
    s.addCause 6 0xFF s.inUseUnits
  else s

/-- A record counted in the budget (R414). -/
def State.countInvalid (s : State) (invalid : Bool) : State :=
  let h := (invalid :: s.plinth.history).take 64
  let s1 := (s.wr .pln PLN.INV_RUN (if invalid then min 15 (s.rd .pln PLN.INV_RUN + 1) else 0)).wr .pln PLN.INV_WIN (h.filter id).length
  { s1 with plinth := { s1.plinth with history := h } }

/-- What the evaluation of a record found. -/
structure Evaluated where
  set : Option RunSet
  was : List PairState
  choices : List Choice
  conds : List (Nat × Nat)
  cmp : CmpSummary

/-- The device sleeps, or has not finished waking (R45, R47). -/
def State.asleep (s : State) : Bool := s.rd .pdc PDC.IN_SLEEP = 1 || s.power.sleepExit

/-- The evaluation of beat `k` (clocks 1800–1999): choices, comparator, age monitor, the conditions of every reason. -/
def State.evaluateRecord (s : State) (k : Nat) : State × Evaluated :=
  match s.reportSet k with
  | none =>
    let s1 := s.enterSet none false
    let c := if s.asleep then 0x12 else 0x10
    (s1, ⟨none, s1.plinth.pairs, [], (c, 0xFF) :: s1.commonConds k, CmpSummary.zero⟩)
  | some r =>
    let old := s.amt.draining.find? fun d => s.plinth.chosenSet = d.key && r.swapFrom = some d.key
    let swapped : Bool := old.isSome
    let s0 := match old with | some d => s.keepCarried d r | none => s
    let s1 := s0.enterSet (some r) swapped
    let ready : Bool := r.since + r.pkg.latency ≤ k
    let cs := if ready then s1.choices r k else []
    let was := s1.plinth.pairs
    let s2 := if ready then s1.runPairs r k cs
      else ((r.pkg.compare.pairs.zip (List.range 16)).foldl (fun s c => s.countGap c.2 c.1 []) s1, CmpSummary.zero)
    let m := s2.2
    let s3 := ((r.pkg.sec.payload.zip cs).zip (List.range 32)).foldl
      (fun s x => s.ageField k x.2 x.1.1 x.1.2 (s.withholder r was x.2).isSome) s2.1
    let res := if ready then resultConds k r.pkg.sec.payload cs else [(0x11, 0xFF)]
    let s4 := if res.any (·.1 = 0x24) then s3.count .agm AGM.CNT_LATE else s3
    let fail := (setBits 16 m.fail).map fun i => (0x23, i)
    let rate := ((List.range r.pkg.compare.pairs.length).filter fun i =>
      r.pkg.compare.kDeg ≤ (s4.pair i).count k r.pkg.compare.window).map fun i => (0x31, i)
    let cams := if ready then (s4.lostPorts r (k - r.pkg.latency)).map fun n => (0x25, n) else []
    let s5 := (s4.showPairs k r.pkg.compare.window)
    let before : Bool := was.any fun p => r.pkg.compare.kDeg ≤ p.count (k - 1) r.pkg.compare.window
    let s6 := if rate.isEmpty || before then s5 else s5.raise .ccp 1
    (s6, ⟨some r, was, cs, res ++ fail ++ rate ++ cams ++ s6.retireCond k ++ s6.reducedCond ++ s6.commonConds k, m⟩)

/-- The 120 bytes of a record before SEQ (R13). -/
def State.recordBody (s : State) (k : Nat) (e : Evaluated) (verdict : Nat) (reason : Nat × Nat) : List Byte :=
  let l := match e.set with | some r => r.pkg.latency | none => Config.openValue 3 [] % 257
  let t : Int := (aonPerBeat : Int) * ((k : Int) - (l : Int))
  let has (c : Nat) : Bool := e.conds.any (·.1 = c)
  let status := verdict + 16 * b2n (has 0x30 || has 0x31 || has 0x32) + 32 * b2n (has 0x24) + 64 * b2n (has 0x23)
    + 256 * reason.1 + 65536 * reason.2
  let shown : Bool := verdict = 1 || verdict = 2
  let counts := match e.set with
    | some r => (List.range 16).map fun i => (s.pair i).count k r.pkg.compare.window | none => []
  leBytes 8 k ++ leBytes 2 (match e.set with | some r => r.pkg.gset | none => 0) ++ leBytes 2 (recordAge k e.choices)
    ++ leBytes 4 status ++ leBytes 8 (s.positionAt t) ++ leBytes 4 (s.vtoAt t)
    ++ (match e.set with | some r => if shown then s.payload r k e.was e.choices else zeros 68 | none => zeros 68)
    ++ leBytes 2 e.cmp.active ++ leBytes 2 e.cmp.fail ++ leBytes 1 (counts.foldl max 0)
    ++ leBytes 1 (match e.set with | some r => r.pkg.compare.window | none => 16) ++ leBytes 1 e.cmp.worst ++ leBytes 1 0
    ++ leBytes 4 e.cmp.margin ++ leBytes 4 s.unitMap
    ++ leBytes 8 (match e.set with | some r => if shown then s.digestFold r e.was e.choices else 0 | none => 0)

/-- RECORD_LATCH (R238, R411): clock 1800 and the evaluation up to 1999. `halvesAgree`: the two Plinth halves formed the
same bytes. -/
def execRecordLatch (halvesAgree : Bool) (s : State) : Result :=
  let k := s.time.beatNo
  let due : Bool := match s.power.firstBeat with | some b => b ≤ k | none => false
  .next (if s.power.run ≠ .on ∨ s.time.phase ≠ .early ∨ !due then s
    else
      let s0 := if halvesAgree then s else (s.addCause 3 0xFF [] true true).startAnew .plinth 1
      let x := s0.evaluateRecord k
      let e := x.2
      let under := pickReason e.conds
      let s1 := (x.1.endBudget (verdictOf under.1)).checkBudget (verdictOf under.1)
      let reason := if s1.plinth.safe then s1.safeReason else under
      let verdict := verdictOf reason.1
      let s2 := (s1.countInvalid (verdict = 2)).wr .pln PLN.REASON reason.1
      let rec_ : LatchedRecord := { beat := k, body := s2.recordBody k e verdict reason }
      { s2 with
        plinth := { s2.plinth with latched := some rec_, chosen := e.choices }
        time := { s2.time with phase := .latched } })

/-- A record whole: SEQ and CRC after its 120 bytes (R13, R22, R23). -/
def LatchedRecord.bytes (r : LatchedRecord) (seq : BitVec 32) : List Byte :=
  let b := r.body ++ leBytes 4 seq.toNat
  b ++ leBytes 4 (crc32c b)

/-- A frame on both safety ports (R395). -/
def State.emitSl (s : State) (f : List Byte) : State := (s.emit (.sl 0 f)).emit (.sl 1 f)

/-- RECORD_EMIT (R11): clock 2000; the record leaves both safety ports. -/
def execRecordEmit (s : State) : Result :=
  .next (match s.plinth.latched with
    | none => s
    | some r =>
      if s.time.phase ≠ .latched then s
      else
        let b := r.bytes s.time.seq
        let s1 := s.emitSl (1 :: b)
        { s1 with
          plinth := { s1.plinth with latched := none, lastRecord := b }
          time := { s1.time with phase := .emitted, seq := s1.time.seq + 1, recordsSent := s1.time.recordsSent + 1 } })

/-! ### Frames of the uplink (R395, R396) -/

/-- A frame with its CRC. -/
def slFrame (type : Nat) (b : List Byte) : List Byte :=
  let f := leBytes 1 type ++ b
  f ++ leBytes 4 (crc32c f)

/-- CLK_A clocks of a frame of `n` bytes on the wire: blocks of 66 bits, 8 clocks each (PRESUMED from clause 49,
log 25). -/
def frameClocks (n : Nat) : Nat := 8 * (2 + (n - 7) / 8)

/-- A CLEAR_ACK frame. -/
def ClearAck.frame (a : ClearAck) : List Byte := slFrame 4 (leBytes 2 a.cmdSeq ++ leBytes 1 a.result ++ leBytes 8 a.beat)

/-- A SAFE_MARK frame. -/
def SafeMark.frame (m : SafeMark) : List Byte :=
  slFrame 3 (leBytes 8 m.beat ++ leBytes 1 m.reason ++ leBytes 1 m.detail ++ zeros 2)

/-- The frames of a list that fit in what is left of the window, back to back: how many, and the clocks they take. -/
def fitFrames (left : Nat) : List (List Byte) → Nat × Nat
  | [] => (0, left)
  | f :: r =>
    if left < frameClocks f.length then (0, 0)
    else
      let x := fitFrames (left - frameClocks f.length - 8) r
      (x.1 + 1, x.2)

/-- A record copy for a subscribed port (R98): at most 16 wait. -/
def State.copyRecord (s : State) (p : Nat) : State :=
  let x := s.port p
  if x.recSubs.isEmpty then s
  else
    let m : Msg := { mtype := 0x52, sid := 0, tag := 0, param := 0, addr := s.time.beatNo, body := s.plinth.lastRecord, ticket := none }
    if 16 ≤ x.recordQ.length then
      ((s.count (.hlk p) HLK.CNT_REC_DROP).setPort p { x with recordQ := x.recordQ.drop 1 ++ [m] }).pump p
    else (s.setPort p { x with recordQ := x.recordQ ++ [m] }).pump p

/-- FAULT_WINDOW (R396): clocks 2200 to 2499; acknowledgements, then up to four fault records; host copies of the record
are formed (R98). -/
def execFaultWindow (s : State) : Result :=
  .next (if s.time.phase ≠ .emitted ∨ s.time.windowDone then s
    else
      let acks := s.plinth.acks.map (·.frame)
      let a := fitFrames 300 acks
      let faults := (s.plinth.faultQ.take 4).map fun f => slFrame 2 f.bytes
      let b := if a.1 < acks.length then (0, 0) else fitFrames a.2 faults
      let s1 := (acks.take a.1 ++ faults.take b.1).foldl (fun s f => s.emitSl f) s
      let s2 : State := { s1 with
        plinth := { s1.plinth with acks := s1.plinth.acks.drop a.1, faultQ := s1.plinth.faultQ.drop b.1 }
        time := { s1.time with windowDone := true } }
      (s2.copyRecord 0).copyRecord 1)

/-- SAFE_MARK (R396): the oldest mark leaves, once a first record has. -/
def execSafeMark (s : State) : Result :=
  .next (match s.plinth.marks with
    | [] => s
    | m :: r =>
      if s.power.run ≠ .on ∨ s.time.recordsSent = 0 then s
      else ({ s with plinth := { s.plinth with marks := r } }).emitSl m.frame)

/-! ### The downlink (R397) -/

/-- A downlink frame that passes the checks of R397: its type and bytes. -/
def downFrame (f : List Byte) : Option (Nat × List Byte) :=
  let n := f.length
  let t := field f 0 1
  let len := if t = 0x11 ∨ t = 0x12 then 15 else if t = 0x13 then 8 else if t = 0x14 then 7 else 0
  if len = 0 ∨ n ≠ len ∨ field f (n - 4) 4 ≠ crc32c (f.take (n - 4)) ∨ (t = 0x13 ∧ 1 < field f 3 1) then none
  else some (t, f.take (n - 4))

/-- The latest frame used of a type, and a frame's place after it (R397). -/
def State.frameLater (s : State) (t seq : Nat) : Bool :=
  match s.plinth.used.find? (·.type = t) with
  | none => true
  | some u => let d := (seq + 65536 - u.seq) % 65536; 1 ≤ d ∧ d ≤ 32767

/-- A motion wake (R46, R47): the position has moved away from its value at sleep entry. -/
def State.motionWake (s : State) (pos : Int) : State :=
  if s.rd .pdc PDC.IN_SLEEP = 0 ∨ s.power.wakeAt.isSome ∨ s.rd .pdc PDC.WAKE_MOTION_EN = 0 then s
  else match s.power.sleepPos with
    | none => { s with power := { s.power with sleepPos := some pos } }
    | some p =>
      if s.rd .pdc PDC.WAKE_MOVE < (pos - p).natAbs then
        ({ s with power := { s.power with wakeAt := some (s.time.beatNo + 1) } }).wr .pdc PDC.LAST_WAKE 2
      else s

/-- An odometry message used (R20): one with the newest's arrival stamp replaces it. -/
def State.useOdo (s : State) (stamp seq : Nat) (pos : Int) : State :=
  let m : OdoMsg := ⟨stamp, pos, seq⟩
  let l := match s.plinth.odo with
    | b :: r => if b.stamp = stamp then m :: r else m :: b :: r
    | [] => [m]
  let s1 : State := { s with plinth := { s.plinth with odo := l } }
  let s2 := (s1.wr2 .pln PLN.ODO_POS_LO PLN.ODO_POS_HI (ofInt 64 pos)).wr .pln PLN.ODO_SEQ seq
  s2.motionWake pos

/-- A vehicle-time mark used (R21). -/
def State.useVt (s : State) (stamp time : Nat) : State :=
  ({ s with plinth := { s.plinth with vt := some (stamp, time) } }).wr2 .pln PLN.VT_LO PLN.VT_HI time

/-- An ODOMETRY or VTIME frame (R397): used when later than the last of its type; a copy of a used frame with other
content is a conflict. -/
def State.useFrame (s : State) (port stamp t : Nat) (b : List Byte) : State :=
  let seq := field b 1 2
  if s.frameLater t seq then
    let u : UsedFrame := ⟨t, seq, port, b⟩
    let s1 : State := { s with plinth := { s.plinth with used := (u :: s.plinth.used).take 65536 } }
    if t = 0x11 then s1.useOdo stamp seq (toInt 64 (field b 3 8)) else s1.useVt stamp (field b 3 8)
  else match s.plinth.used.find? fun u => u.type = t ∧ u.seq = seq with
    | some u => if u.port ≠ port ∧ u.content ≠ b then (s.count .pln PLN.CNT_MSG_CONFLICT).fault .pln 0x2203 else s
    | none => s

/-! ### Inhibit and clear (R410, R412, R413) -/

/-- Cause 0x08 follows the two inhibit sources (R410). -/
def State.followInhibit (s : State) : State :=
  if s.rd .pln PLN.INHIBIT = 1 ∨ s.rd .pln PLN.SL_INHIBIT = 1 then s.addCause 8 0xFF [] false
  else s.endCauses 8 fun _ => true

/-- The Plinth checker test has passed within its diagnostic interval (R412). -/
def State.checkerFresh (s : State) : Bool :=
  match (s.testOf .plinth 0xD).bind (·.passedAt) with
  | some b => s.time.beatNo ≤ b + s.rd .rsp RSP.DI_BEATS && s.rd .rsp RSP.FAILED_PLN = 0
  | none => false

/-- The result of a clear request (R412). -/
def State.clearCode (s : State) : Nat :=
  if !s.plinth.safe then 1 else if !s.plinth.causes.isEmpty then 2 else if s.checkerFresh then 0 else 3

/-- What an accepted clear does (R413). -/
def State.acceptClear (s : State) (detail : Nat) : State :=
  let free (p : PairState) : PairState := { p with oob := [], persist := 0, gap := 0, withheld := false }
  let s1 : State := { s with plinth := { s.plinth with safe := false, history := [], pairs := s.plinth.pairs.map free } }
  let s2 := ((((s1.wr .pln PLN.SAFE 0).wr .pln PLN.HELD 0).wr .pln PLN.INV_RUN 0).wr .pln PLN.INV_WIN 0).wr .pln PLN.SAFE_UNITS 0
  (s2.faultRec .pln 0x6041 0 [detail, 0, 0, 0] true).raise .pln 2

/-- A clear request decided (R412): its result shown and audited. -/
def State.decideClear (s : State) (actor port seq detail : Nat) : State :=
  let c := s.clearCode
  let s1 := (s.wr .pln PLN.CLEAR_RESULT c).plinthAudit 0x50 actor port c (leBytes 2 seq)
  if c = 0 then s1.acceptClear detail else s1.raise .pln 3

/-- A command frame is acted on: its CMD_SEQ differs from the last one's, or it is the first (R397). -/
def State.cmdNew (s : State) (seq : Nat) : Bool := !s.plinth.cmdSeen || s.rd .pln PLN.CMD_SEQ ≠ seq

/-- An INHIBIT or CLEAR frame (R397, R412). -/
def State.slCommand (s : State) (port t : Nat) (b : List Byte) : State :=
  let seq := field b 1 2
  if !s.cmdNew seq then s
  else
    let s1 := ({ s with plinth := { s.plinth with cmdSeen := true } }).wr .pln PLN.CMD_SEQ seq
    if t = 0x13 then
      ((s1.wr .pln PLN.SL_INHIBIT (field b 3 1)).plinthAudit 0x51 5 (2 + port) 0 (leBytes 2 seq ++ slice b 3 1)).followInhibit
    else
      let a : ClearAck := ⟨seq, s1.clearCode, s.time.beatNo⟩
      let s2 := s1.decideClear 5 (2 + port) seq (seq + 2 ^ 17 * port)
      { s2 with plinth := { s2.plinth with acks := s2.plinth.acks ++ [a] } }

/-- A downlink frame on a safety port (R397): none arrives while the port's receiver is dark. -/
def State.downlink (s : State) (port stamp : Nat) (f : List Byte) : State :=
  if !s.power.checkPassed ∨ (s.rd .pln PLN.SL_LOS).testBit port then s
  else match downFrame f with
    | none => s.count .pln (if port = 0 then PLN.CNT_SL0_CRC else PLN.CNT_SL1_CRC)
    | some (t, b) => if t ≤ 0x12 then s.useFrame port stamp t b else s.slCommand port t b

/-- ODOMETRY (R397): a frame that arrives in CLK_AON clock `aon` of the present beat. -/
def execOdometry (port : Fin 2) (aon : Nat) (frame : List Byte) (s : State) : Result :=
  .next (s.downlink port.val (aonPerBeat * s.time.beatNo + aon % aonPerBeat) frame)

/-- VTIME (R397). -/
def execVtime (port : Fin 2) (aon : Nat) (frame : List Byte) (s : State) : Result :=
  .next (s.downlink port.val (aonPerBeat * s.time.beatNo + aon % aonPerBeat) frame)

/-- INHIBIT (R397, R410). -/
def execInhibit (port : Fin 2) (frame : List Byte) (s : State) : Result :=
  .next (s.downlink port.val (aonPerBeat * s.time.beatNo) frame)

/-- CLEAR (R397, R412). -/
def execClear (port : Fin 2) (frame : List Byte) (s : State) : Result :=
  .next (s.downlink port.val (aonPerBeat * s.time.beatNo) frame)

/-- What a write of PLN.CLEAR does (R412). -/
def plnClearAct (s : State) (role port : Nat) : State := s.decideClear role port 0 (2 ^ 16)

/-- What a write of PLN.INHIBIT does (R410). -/
def plnInhibitAct (s : State) (role port value : Nat) : State :=
  ((s.wr .pln PLN.INHIBIT value).plinthAudit 0x51 role port 0 (leBytes 2 0 ++ leBytes 1 value)).followInhibit

end Sys2Proof.Machine
end

