-- ==== Sys2Proof/Machine/Supply.lean ====
section
/-! DEFINITION. Power-on and its loss (R41, R51–R53), supply and temperature (chapter 02), power-good (R44), the clock
reference (R48, R49), depot sleep (R45–R47), RESET_N and the warm reset (R59–R62). -/

namespace Sys2Proof.Machine

/-! ### Power-on (R51, R52) -/

/-- A device without power: its store alone is kept (R63); an entry that was being programmed leaves a torn slot (R453). -/
def State.withoutPower (s : State) (run : RunPhase) : State :=
  let st := s.mgc.store
  let t : Store := if s.mgc.toProgram.isEmpty then st else { st with auditTorn := true }
  { State.reset with
    pending := s.pending, draws := s.draws, wire := s.wire
    mgc := MgcState.fresh t
    power := { PowerState.fresh with run := run } }

/-- POWER_ON (R51): VIN has risen above 10.0 V. -/
def execPowerOn (s : State) : Result :=
  .next (if s.power.run = .unpowered ∨ s.power.run = .stopped false then s.withoutPower .starting else s)

/-- The straps sampled (R48, R55). -/
def State.sampleStraps (s : State) (boot clkm : Nat) : State :=
  let m := clkm % 4
  let s1 := ((s.wr .rstc RSTC.STRAP_BOOT boot).wr .clk CLK.STRAP_CLKM m).wr .clk CLK.STRAP_RSVD (b2n (m = 3))
  if m = 3 then s1.fault .clk 0x9002 else s1

/-- What FACTORY and the key block give AON at power-on (R63, R446, R472). -/
def State.loadFactory (s : State) : State :=
  let st := s.mgc.store
  let cert := st.factory.certificate
  let s1 := (s.wr .dev DEV.DISABLED st.factory.disabled.toNat).wr .dev DEV.VARIANT (field cert 22 1)
  let s2 := (List.range 4).foldl (fun s i => s.wr .dev DEV.SERIAL (field cert (4 + 4 * i) 4) 0 i) s1
  { s2 with mgc := { s2.mgc with lifeCycle := if st.scrapped then 6 else st.keyBlock.lifeCycle } }

/-- POWER_ON_RELEASE (R51, R52, R55): beat 0 begins. -/
def execPowerOnRelease (boot clkm : Nat) (resetHigh : Bool) (s : State) : Result :=
  .next (if s.power.run ≠ .starting then s
    else
      let st := s.mgc.store
      let s1 := (s.setStore { st with coldStarts := st.coldStarts + 1 }).loadFactory
      let s2 : State := { s1 with power := { s1.power with
        run := .cold, resetLow := !resetHigh, coldPending := true
        firstBeat := if resetHigh then some 250 else none } }
      s2.sampleStraps boot clkm)

/-- PLINTH_STARTUP_CHECK (R52): the halves have checked each other; a failure leaves the safety ports dark. -/
def execPlinthStartupCheck (ok : Bool) (s : State) : Result :=
  .next (if s.power.run ≠ .cold ∨ s.power.checkPassed then s
    else if ok then { s with power := { s.power with checkPassed := true } }
    else { s with power := { s.power with run := .failedCheck } })

/-- POWER_ON_DETECTOR_STOP: VIN below 9.0 V, the device stops and all light goes out. -/
def execPowerOnDetectorStop (s : State) : Result :=
  .next (if s.power.run = .unpowered then s else s.withoutPower (.stopped false))

/-- PD38 starts its ramp (R47, R52, R59, R64), unless it is held off (R44). -/
def State.startPd38 (s : State) : State :=
  if 38 ∈ s.power.heldOff ∨ s.domainUp 38 then s
  else
    let s1 := s.setDomain 38 (.ramping s.time.beatNo)
    { s1 with power := { s1.power with
      lastRamp := some s1.time.beatNo, firmwareChecked := false, linkBoot := false, optionsDone := false
      factoryInvalid := false } }

/-- At the boundary of beat b1 the first record's beat begins and PD38 starts (R52). -/
def State.beginRecords (s : State) : State :=
  match s.power.firstBeat with
  | some b =>
    if s.power.run = .cold ∧ s.power.checkPassed ∧ b ≤ s.time.beatNo then
      ({ s with power := { s.power with run := .on, bringupFrom := s.time.beatNo } }).startPd38
    else s
  | none => s

/-- The Plinth works: AON is up and its check has not failed. -/
def State.plinthOn (s : State) : Bool := s.power.run = .cold || s.power.run = .on

/-! ### Supply and temperature -/

/-- The regulators' protection and the 120 degree comparator: PD00–PD38 off and held off (R50, R474). -/
def State.protect (s : State) : State := (s.powerOffAll (List.range 39)).holdOff (List.range 39)

/-- VIN sampled at clock 0 of a beat ("Supply monitoring", R474). -/
def State.sampleVin (s : State) (mv : Nat) : State :=
  let x := s.sensors
  let low := if mv < 10800 then x.vinLow + 1 else 0
  let high := if 13200 < mv then x.vinHigh + 1 else 0
  let inside := if 11000 ≤ mv ∧ mv ≤ 13000 then x.vinIn + 1 else 0
  let s1 := ({ s with sensors := { x with vin := mv, vinLow := low, vinHigh := high, vinIn := inside } }).wr .clk CLK.VIN_READ mv
  let held : Bool := s.plinth.causes.any fun c => c.code = 2 && c.detail = 0x80 && !c.ended
  if !held && 2 ≤ low then (s1.addCause 2 0x80).fault .clk 0x9020 [] true
  else if !held && 2 ≤ high then (s1.addCause 2 0x80).fault .clk 0x9021 [] true
  else if 2 ≤ inside then s1.endCauses 2 (· = 0x80) else s1

/-- The hottest reading and its lowest sensor. -/
def hottest (l : List Int) : Int × Nat :=
  (l.zip (List.range l.length)).foldl (fun (b : Int × Nat) x => if b.1 < x.1 then x else b) (l.headD 0, 0)

/-- A threshold row of R50 that acts from its level and ends 3.0 degrees below it (eighths of a degree). -/
def hysteresis (active : Bool) (t level : Int) : Bool := if level ≤ t then true else if t < level - 24 then false else active

/-- The temperatures of a beat (R50, R474): warning, open-pool stop, safe state when the hottest sensor reads above
105.0 degrees in two consecutive beats, its cause naming the sensors above it. -/
def State.sampleTemps (s : State) (l : List Int) : State :=
  let x := s.sensors
  let h := hottest l
  let warn := hysteresis x.warnActive h.1 (8 * (s.rd .clk CLK.THM_WARN : Nat))
  let stop := hysteresis x.stopActive h.1 (8 * (s.rd .clk CLK.THM_STOP : Nat))
  let runs := (l.zip x.hotRuns).map fun (t : Int × Nat) => if 840 < t.1 then t.2 + 1 else 0
  let above := (List.range 15).filter fun i => 1 ≤ runs.getD i 0
  let twice : Bool := !above.isEmpty && x.hotRuns.any (1 ≤ ·)
  let active : Bool := twice || (x.hotActive && 816 ≤ h.1)
  let s1 := { s with sensors := { x with temps := l, hotRuns := runs, warnActive := warn, stopActive := stop, hotActive := active } }
  let s2 := (s1.wr .clk CLK.THM_MAX (ofInt 12 h.1)).wr .clk CLK.THM_MAX_IDX h.2
  let s3 := (l.zip (List.range 15)).foldl (fun s t => s.wr .clk CLK.THM_S (ofInt 12 t.1) t.2) s2
  let s4 := if warn && !x.warnActive then s3.fault .clk 0x9010 else s3
  let s5 := if stop && !x.stopActive then s4.fault .clk 0x9011 else s4
  let s6 := if twice && !x.hotActive then s5.fault .clk 0x9012 [] true else s5
  let s7 := if active then above.foldl (fun s i => s.addCause 2 i) s6 else s6
  if x.hotActive && !active then s7.endCauses 2 fun d => d < 15 && !(d ∈ x.trips) else s7

/-- REGULATOR_PROTECTION: VIN above 14.5 V. -/
def execRegulatorProtection (s : State) : Result :=
  .next (if s.plinthOn then s.protect.addCause 2 0x81 else s)

/-- THERMAL_TRIP (R50): a sensor at or above 120.0 degrees. -/
def execThermalTrip (sensor : Fin 15) (s : State) : Result :=
  .next (if s.plinthOn then
    let s1 := ((s.protect).addCause 2 sensor.val).fault .clk 0x9013 [] true
    { s1 with sensors := { s1.sensors with trips := setInsert sensor.val s1.sensors.trips } }
  else s)

/-- AON_THERMAL_STOP (R50): sensor 14 above 125.0 degrees switches the AON regulators off. -/
def execAonThermalStop (s : State) : Result :=
  .next (match s.power.run with
    | .unpowered | .stopped _ => s
    | .starting | .cold | .failedCheck | .on => s.withoutPower (.stopped true))

/-! ### Ramps (R42, R43) -/

/-- The domain whose ramp starts next: its parent ready, lowest rank and number. -/
def State.nextRamp (s : State) : Option Nat :=
  startOrder.find? fun d => d ∈ s.power.queue && (match domParent d with | some p => s.domainReady p | none => true)

/-- PDC_RAMP_START (R43): at most one ramp in any two beats. -/
def execPdcRampStart (s : State) : Result :=
  let free : Bool := match s.power.lastRamp with | some b => b + 2 ≤ s.time.beatNo | none => true
  .next (match s.nextRamp with
    | some d =>
      if free && s.domainReady 38 then
        let s1 := s.setDomain d (.ramping s.time.beatNo)
        { s1 with power := { s1.power with lastRamp := some s1.time.beatNo, queue := s1.power.queue.filter (· ≠ d) } }
      else s
    | none => s)

/-- DOMAIN_READY (R42, R58): a ramp has ended within its wake time. -/
def execDomainReady (pd : Fin 39) (s : State) : Result :=
  .next (match s.domain pd.val with
    | .ramping _ => if pd.val = 38 ∧ !s.mgcMayStart then s else s.becomeReady pd.val
    | .off | .ready => s)

/-- A unit treated as failed (R44): a core is retired, a cluster's fault arises. -/
def State.unitFailed (s : State) (d why : Nat) : State :=
  if d < 24 then s.retireUnit d why else if d < 30 then s.clusterFault (d - 24) why else s

/-- DOMAIN_WAKE_TIMEOUT (R44): the wake time has passed; fault record 0x9040. -/
def execDomainWakeTimeout (pd : Fin 39) (s : State) : Result :=
  .next (match s.domain pd.val with
    | .ramping b =>
      if s.time.beatNo ≤ b + domWake pd.val then s
      else (((s.powerOffTree pd.val).fault .pdc 0x9040 [pd.val]).unitFailed pd.val 0x9040).checkBringup
    | .off | .ready => s)

/-- Power-good lost on a core's domain: the core is retired before what ran there is dropped (R44, R347: its capture has the
header alone). -/
def State.coreGood (s : State) (u : Nat) : State :=
  let t := (s.setDomain u .off).retireUnit u 0
  (t.setDomain u (s.domain u)).powerOff u

/-- Power-good lost on a cluster's domain (R44, R25). -/
def State.clusterGood (s : State) (c : Nat) : State :=
  let ds := (24 + c) :: (List.range 4).map (4 * c + ·)
  let t := (ds.foldl (fun s d => s.setDomain d .off) s).clusterFault c 0
  (ds.foldl (fun t d => t.setDomain d (s.domain d)) t).powerOffTree (24 + c)

/-- POWER_GOOD_LOST (R44): what each domain's row says. -/
def execPowerGoodLost (pd : Fin 39) (s : State) : Result :=
  let d := pd.val
  .next (if s.domainOff d then s
    else if d < 24 then s.coreGood d
    else if d < 30 then s.clusterGood (d - 24)
    else if d = 31 ∨ d = 32 then
      (((camPorts d).filter s.camEnabled).foldl (fun s n => s.loseFraming n 0x2101 s.time.beatNo) s).powerOff d
    else if d = 33 ∨ d = 34 then s.powerOff d
    else
      let runs := s.lockedRuns
      let tree := if d = 38 then List.range 39 else d :: (List.range 39).filter (under d)
      let s1 := if runs then s.addCause 2 (0xC0 + d) else s
      let s2 := s1.powerOffAll tree
      if runs ∨ d = 38 then s2.holdOff tree else s2)

/-- PDC_IDLE_OFF (R44, R255): an open-pool core idle for IDLE_OFF beats in AUTO mode. -/
def execPdcIdleOff (u : Fin 24) (s : State) : Result :=
  .next (if s.rd .pdc PDC.AUTO_MODE = 1 ∧ s.domainReady u.val ∧ !(u.val ∈ s.neededCores) then
    match s.power.idleSince.find? (·.1 = u.val) with
    | some x => if x.2 + s.rd .pdc PDC.IDLE_OFF ≤ s.time.beatNo then (s.setRequest u.val false).powerOff u.val else s
    | none => s
  else s)

/-! ### The clock reference (R48, R49) -/

/-- The reference in use is lost: holdover on the crystal (R49). -/
def State.loseRef (s : State) : State :=
  if s.domainReady 37 ∧ s.rd .clk CLK.ACTIVE_SRC ≠ 0 ∧ s.rd .clk CLK.HOLDOVER = 0 then
    ((s.wr .clk CLK.HOLDOVER 1).wr .clk CLK.ACTIVE_SRC 0).fault .clk 0x9001
  else s

/-- REF_LOSS (R49). -/
def execRefLoss (s : State) : Result := .next s.loseRef

/-- What a write of REVERT does while the strapped reference is present, or not (R49): for CLKM = 10 the lane holds block
lock as well. -/
def clkRevertAct (s : State) (refPresent : Bool) : State :=
  if s.rd .clk CLK.HOLDOVER = 1 && refPresent && (s.rd .clk CLK.STRAP_CLKM ≠ 2 || s.clock.hl0Locked) then
    (s.wr .clk CLK.HOLDOVER 0).wr .clk CLK.ACTIVE_SRC (s.rd .clk CLK.STRAP_CLKM)
  else s

/-- CLKM_FIRST_LOCK (R48): the PLL moves by itself to the clock of HL0 lane 0 when that lane first holds block lock. -/
def execClkmFirstLock (s : State) : Result :=
  .next (if s.domainReady 37 ∧ s.rd .clk CLK.STRAP_CLKM = 2 ∧ s.clock.hl0Locked ∧ !s.clock.firstMoveDone then
    ({ s with clock := { s.clock with firstMoveDone := true } }).wr .clk CLK.ACTIVE_SRC 2
  else s)

/-- The number of a transmitter's port in its fault record: 0–11 camera ports, 12–13 host links, 14–15 safety ports (log 11). -/
def txPort : Transmitter → Nat
  | .cam n => n.val
  | .hl p _ => 12 + p.val
  | .sl p => 14 + p.val

/-- LASER_EOL (R35). -/
def execLaserEol (tx : Transmitter) (s : State) : Result :=
  let page : Page := match tx with | .cam _ => .cpx | .hl p _ => .hlk p.val | .sl _ => .pln
  let lit : Bool := match tx with
    | .cam n => s.domainReady (camDomain n.val)
    | .hl p _ => s.domainReady (33 + p.val)
    | .sl _ => s.power.checkPassed
  .next (if s.plinthOn && lit then s.fault page 0x9030 [txPort tx] else s)

/-! ### Depot sleep (R45–R47) -/

/-- What a write of SLEEP_ENTER answers (R45): refused with reason 0x4 while a locked set runs. -/
def sleepCheck (s : State) : Nat × State := if s.lockedRuns then (0x0B, s.wr .pdc PDC.REFUSE_REASON 4) else (0, s)

/-- Sleep entry begins (R45): open tasks abort; what was on is remembered; a request in a warm reset, a sleep or before PD38
is ready does nothing (log 26). -/
def sleepAct (s : State) : State :=
  if s.power.warm.isSome ∨ s.asleep ∨ !s.domainReady 38 then s
  else
    let on := (List.range 39).filter s.domainUp
    let s1 := (s.abortTasks (s.amt.tasks.map (·.ctx)) 0).wr .pdc PDC.IN_SLEEP 1
    { s1 with power := { s1.power with
      sleepDomains := on, wakeAt := none, sleepPos := (s1.plinth.odo.head?).map (·.pos) } }

/-- The domains go off at the boundary after the request, unless a wake cause has come (R45, R46). -/
def State.enterSleep (s : State) : State :=
  if s.rd .pdc PDC.IN_SLEEP = 1 ∧ !s.power.sleepExit ∧ s.power.wakeAt.isNone ∧ s.power.domains.any (· ≠ .off) then
    let s1 := s.powerOffAll (List.range 39)
    { s1 with power := { s1.power with queue := [] } }
  else s

/-- WAKE_TIMER (R46, R47): BEAT_NO has reached WAKE_BEAT. -/
def execWakeTimer (s : State) : Result :=
  .next (if s.rd .pdc PDC.IN_SLEEP = 1 ∧ !s.power.sleepExit ∧ s.power.wakeAt.isNone ∧ s.rd .pdc PDC.WAKE_TIMER_EN = 1
      ∧ s.time.beatNo = s.rd2 .pdc PDC.WAKE_BEAT_LO PDC.WAKE_BEAT_HI then
    ({ s with power := { s.power with wakeAt := some (s.time.beatNo + 1) } }).wr .pdc PDC.LAST_WAKE 1
  else s)

/-- WAKE_PD38_START (R46, R47): PD38 starts at the boundary after the wake cause; an entry that was abandoned leaves
it on. -/
def execWakePd38Start (s : State) : Result :=
  .next (match s.power.wakeAt with
    | some b =>
      if s.rd .pdc PDC.IN_SLEEP = 1 ∧ !s.power.sleepExit ∧ b ≤ s.time.beatNo ∧ s.power.warm.isNone then
        let s1 : State := { s with power := { s.power with sleepExit := true } }
        if s.domainReady 38 then s1.mgcRequests.checkBringup else s1.startPd38
      else s
    | none => s)

/-! ### RESET_N and the warm reset (R53, R59–R62) -/

/-- RESET_N_FALL (R53, R54, R60): recognised low. Before b1 it delays b1; after, a warm reset is to begin. -/
def execResetNFall (s : State) : Result :=
  .next (if s.power.resetLow then s
    else if s.power.run = .cold then { s with power := { s.power with resetLow := true, firstBeat := none } }
    else if s.power.run = .on then
      let wm : Warm := ⟨s.time.beatNo + 1, false, false⟩
      let s1 : State := { s with power := { s.power with resetLow := true, warm := some wm } }
      (if s.asleep then s1.wr .pdc PDC.LAST_WAKE 3 else s1).addCause 1 0xFF
    else s)

/-- RESET_N_RISE (R52, R54, R55): recognised high; the straps are sampled. -/
def execResetNRise (boot clkm : Nat) (s : State) : Result :=
  .next (if !s.power.resetLow ∨ !s.plinthOn then s
    else
      let b := s.time.beatNo
      let fb := if s.power.run = .cold then some (max 250 (b + 1)) else s.power.firstBeat
      ({ s with power := { s.power with resetLow := false, riseBeat := b, firstBeat := fb } }).sampleStraps boot clkm)

/-- A block reset log entry (R65): its slot, then the next. -/
def State.logReset (s : State) (r : BlkReset) (outcome : Nat) : State :=
  let n := s.rd .rstc RSTC.BLKLOG_NEXT
  let blk := match pageAt r.page with | some p => p.blkId | none => 0
  let e : BlkLog := ⟨r.beat, blk, outcome, r.role, min r.clocks 0xFFFFFFFF⟩
  ({ s with retention := { s.retention with blkLog := assocSet n e s.retention.blkLog } }).wr .rstc RSTC.BLKLOG_NEXT ((n + 1) % 32)

/-- A failed option pass (R68, R69). -/
def State.passFailed (s : State) (code record : Nat) : State :=
  (((s.wr .opl OPL.PASS_FAILS (min 3 (s.rd .opl OPL.PASS_FAILS + 1))).wr .opl OPL.FAIL_CODE code).wr .opl OPL.FAIL_RECORD record).fault .opl 0x4030

/-- An option pass is under way: the firmware is verified and options are not finished (R58). -/
def State.passRunning (s : State) : Bool :=
  s.power.firmwareChecked && !s.power.linkBoot && !s.power.optionsDone && !s.power.factoryInvalid && s.domainUp 38

/-- The counters that show a warm reset (R61, R65). -/
def State.countWarm (s : State) (w : Nat) : State :=
  let s1 := (((s.wr .rstc RSTC.LAST_CAUSE 2).count .rstc RSTC.WARM_COUNT).wr2 .rstc RSTC.LAST_RST_BEAT_LO RSTC.LAST_RST_BEAT_HI w)
  (s1.wr .rstc RSTC.BRINGUP_BEATS 0).wr .rstc RSTC.BRINGUP_DONE 0

/-- Ports PD31–PD34 through a warm reset (R59, R62): lit ones stay powered with their logic in reset, the others go off. -/
def State.holdPorts (s : State) : State :=
  let lit := [31, 32, 33, 34].filter s.domainReady
  let hl := [0, 1].foldl (fun s p => if (33 + p) ∈ lit then ((((s.linkDown p 0).setPort p HlPort.fresh).laneLost p).resetPage (.hlk p)) else s) s
  { hl with
    power := { hl.power with heldInReset := lit }
    vision := { hl.vision with ports := hl.vision.ports.map fun _ => CamPort.fresh } }

/-- Open work and graph sets end without completion (R59). -/
def State.dropWork (s : State) : State :=
  { s with amt := { AmtState.fresh with sets := s.amt.sets }, link := { s.link with intake := [] } }

/-- The causes 0x02 that end when a warm reset begins (R474). -/
def State.endTrips (s : State) : State :=
  let hot := s.sensors.hotActive
  let t := s.sensors.trips
  let s1 := s.endCauses 2 fun d => d = 0x81 || 0xC0 ≤ d || (d < 15 && d ∈ t && !hot)
  { s1 with sensors := { s1.sensors with trips := [] } }

/-- WARM_RESET_BEGIN (R59–R63): the boundary of beat w. -/
def execWarmResetBegin (s : State) : Result :=
  .next (match s.power.warm with
    | none => s
    | some wm =>
      if wm.begun ∨ s.time.beatNo < wm.w then s
      else
        let s1 := if s.passRunning then s.passFailed 8 0xFFFF else s
        let s2 := s1.resets.foldl (fun s r => s.logReset r 3) s1
        let s3 := ({ s2 with resets := [] } : State).dropWork.holdPorts
        let s4 := s3.powerOffAll ((List.range 39).filter fun d => !(d ∈ s3.power.heldInReset))
        let s5 := { s4 with
          commits := s4.commits.filter fun e => match pageAt e.1 with | some p => p.domain.isNone | none => false
          vision := VisionState.fresh
          power := { s4.power with
            warm := some { wm with begun := true, restarted := false }, queue := [], heldOff := [], wakeAt := none
            sleepExit := false, sleepDomains := [], sleepPos := none, bringupFrom := wm.w, factoryInvalid := false
            linkBoot := false, firmwareChecked := false, optionsDone := false } }
        ((s5.wr .pdc PDC.IN_SLEEP 0).countWarm wm.w).endTrips.auditStart 2)

/-- WARM_RESTART (R59): PD38 starts once RESET_N has been high and four beats have passed. -/
def execWarmRestart (s : State) : Result :=
  .next (match s.power.warm with
    | none => s
    | some wm =>
      if wm.begun ∧ !wm.restarted ∧ !s.power.resetLow ∧ max (s.power.riseBeat + 1) (wm.w + 4) ≤ s.time.beatNo then
        ({ s with power := { s.power with warm := some { wm with restarted := true } } }).startPd38
      else s)

end Sys2Proof.Machine
end

