-- ==== Sys2Proof/Machine/Options.lean ====
section
/-! DEFINITION. Firmware verification at start (R56, R57, R445) and option loading (R58, R66–R70). -/

namespace Sys2Proof.Machine

/-! ### Firmware -/

/-- A firmware header's own fields hold (R445; their places are PRESUMED, log 27): magic 0–3, format 4–5, stepping 6–7, version
8–11, body length 12–15, SHA-256 16–47. -/
def fwHeaderOk (h : List Byte) : Bool :=
  field h 0 4 = 0x57465A52 && field h 4 2 = 1 && field h 6 2 = 0xB0 && field h 12 4 % 4096 = 0 && field h 12 4 ≤ 0x1000000

/-- A firmware header's version. -/
def fwVersionOf (h : List Byte) : Nat := field h 8 4

/-- A firmware header's body length. -/
def fwLenOf (h : List Byte) : Nat := field h 12 4

/-- A firmware header's signature block verifies over its 64 bytes (R445). -/
def Store.fwSigned (st : Store) (h : List Byte) : Bool := fwHeaderOk h && st.verifyBlock 1 (h.drop 64) (h.take 64)

/-- A body matches its header. -/
def fwBodyOk (h body : List Byte) : Bool := sha256 (body.take (fwLenOf h)) = slice h 16 32

/-- The firmware that a verified image brings runs. -/
def State.runFirmware (s : State) (h : List Byte) : State :=
  { s with
    mgc := { s.mgc with fwVersion := fwVersionOf h, fwDigest := slice h 16 32 }
    power := { s.power with firmwareChecked := true, linkBoot := false } }

/-- The boot code waits for a link boot (R56, R57). -/
def State.awaitBoot (s : State) : State := { s with power := { s.power with linkBoot := true } }

/-- FIRMWARE_VERIFY (R56, R57, R445): PD38 starts; boot code or the image of the store. -/
def execFirmwareVerify (readError : Bool) (s : State) : Result :=
  let st := s.mgc.store
  let h := st.fwHeader
  .next (match s.domain 38 with
    | .off | .ready => s
    | .ramping _ =>
      if s.power.firmwareChecked ∨ s.power.linkBoot then s
      else if 2 ≤ s.rd .rstc RSTC.STRAP_BOOT then s.awaitBoot
      else if readError then ((s.fault .mgc 0x1050).fault .mgc 0x8010).awaitBoot
      else if !(st.fwSigned h && fwBodyOk h st.firmware) then (s.fault .mgc 0x8010).awaitBoot
      else if fwVersionOf h < st.keyBlock.fwFloor then (s.fault .mgc 0x8011).awaitBoot
      else s.runFirmware h)

/-! ### Option passes -/

/-- A record of an option layer (R66): CSR offset, mask, value, COMMIT. -/
structure OptRec where
  off : Nat
  mask : Nat
  value : Nat
  commit : Bool

/-- A record of the OPTIONS image. -/
def parseOpt (b : List Byte) : OptRec := ⟨field b 0 4, field b 4 4, field b 8 4, (field b 12 4).testBit 0⟩

/-- The records of an OPTIONS image. -/
def optRecords (b : List Byte) : List OptRec :=
  (List.range (field b 6 2)).map fun i => parseOpt (slice b (64 + 16 * i) 16)

/-- The checks of the image itself (R66, R68): 0 when they hold. -/
def optImageFail (b : List Byte) : Nat :=
  let n := field b 6 2
  if field b 0 4 ≠ 0x54504F5A ∨ field b 4 2 ≠ 1 ∨ 65532 < n ∨ field b 8 2 ≠ 0xB0 then 1
  else if sha256 (slice b 64 (16 * n)) ≠ slice b 32 32 then 2 else 0

/-- The bits of a word that a field's copy covers. -/
def RField.wordMask (f : RField) : Nat := (2 ^ f.width - 1) * 2 ^ f.lo

/-- The fields of a page whose copy lies in the word at a page offset: field and indices. -/
def Page.wordFields (p : Page) (w : Nat) : List (RField × Nat × Nat) :=
  (HDR.table ++ p.fields).filterMap fun f => (f.indexAt w).map fun x => (f, x.1, x.2)

/-- The part of a word value that a field takes, over a present value, under a mask. -/
def RField.merge (f : RField) (now value mask : Nat) : Nat :=
  let m := bits mask (f.lo + f.width - 1) f.lo
  let v := bits value (f.lo + f.width - 1) f.lo
  (v &&& m) ||| (now &&& (2 ^ f.width - 1 - m))

/-- A record writes one field (R67): shadows for RWS, values for RW and RL; write-only actions and event bits do nothing
before the page works. -/
def State.optField (s : State) (p : Page) (f : RField) (i j value mask : Nat) : State :=
  match f.acc with
  | .rw | .rl => if f = HDR.SWRST then s else s.wr p f (f.merge (s.rd p f i j) value mask) i j
  | .rws => s.wrShadow p f (f.merge (s.rdShadow p f i j) value mask) i j
  | .ro | .w1c | .wo => s

/-- A value that a field's Meaning does not allow (R68, R464). -/
def State.optRange (s : State) (p : Page) (x : RField × Nat × Nat) (value mask : Nat) : Bool :=
  let f := x.1
  let now := if f.acc = .rws then s.rdShadow p f x.2.1 x.2.2 else s.rd p f x.2.1 x.2.2
  let v := f.merge now value mask
  (f.acc = .rw || f.acc = .rws || f.acc = .rl) && (v < f.vmin || f.vmax < v || (f = HDR.EN && p.enFixed && v = 0))

/-- A record checked and written in a trial of the pass (R67, R68): its failure code, or the trial after it. -/
def State.optRecord (s : State) (fromOptions : Bool) (r : OptRec) : Except Nat State :=
  match pageAt (r.off / 4096) with
  | none => .error 4
  | some p =>
    let w := r.off % 4096
    let all := p.wordFields w
    let hit := all.filter fun x => r.mask &&& x.1.wordMask ≠ 0
    let known := all.foldl (fun m x => m ||| x.1.wordMask) 0
    if w % 4 ≠ 0 ∨ 2 ^ 24 ≤ r.off ∨ r.mask &&& known ≠ r.mask ∨ hit.any (·.1.acc = .ro) then .error 4
    else if fromOptions && hit.any fun x => !x.1.roles.testBit 1 then .error 5
    else if hit.any fun x => s.optRange p x r.value r.mask then .error 6
    else
      let t := hit.foldl (fun s x => s.optField p x.1 x.2.1 x.2.2 r.value r.mask) s
      if r.commit then
        match t.commitFault p with
        | some _ => .error 7
        | none => .ok ((t.withShadows p).dropShadows p)
      else .ok t

/-- A layer's records in order (R67): the trial after them, or the first failure with its record index. -/
def optLayer (fromOptions : Bool) : List OptRec → Nat → State → Except (Nat × Nat) State
  | [], _, s => .ok s
  | r :: l, i, s =>
    match s.optRecord fromOptions r with
    | .error c => .error (c, i)
    | .ok t => optLayer fromOptions l (i + 1) t

/-- The state a pass starts from: pages of switched domains at their after-reset values (R63). -/
def State.optStart (s : State) : State :=
  let aon (e : Nat × Nat) : Bool := match pageAt (e.1 / 131072) with | some p => p.domain.isNone | none => false
  { s with regs := s.regs.filter aon, shadow := s.shadow.filter aon }

/-- A finished pass's values in their places (R58): AON pages at once, the pages of ready domains, the rest kept for when their
domains become ready. -/
def State.applyOptions (s t : State) : State :=
  let aon (e : Nat × Nat) : Bool := match pageAt (e.1 / 131072) with | some p => p.domain.isNone | none => false
  let part (r : RegFile) : RegFile := r.filter fun e => !aon e
  let s1 : State := { s with
    regs := layRegs (part s.regs) (t.regs.filter aon)
    shadow := layRegs (part s.shadow) (t.shadow.filter aon)
    power := { s.power with optRegs := part t.regs, optShadow := part t.shadow, optionsDone := true } }
  let on := (List.range 39).filter fun d => s1.domainReady d && !(d ∈ s1.power.heldInReset)
  ((on.flatMap domainPages).foldl (fun s p => s.loadPage p) s1).followInhibit

/-- Whether the next pass applies FACTORY alone: by strap, or after three failures (R56, R69). -/
def State.optPlan (s : State) : Bool × Bool :=
  (s.rd .rstc RSTC.STRAP_BOOT = 1, 3 ≤ s.rd .opl OPL.PASS_FAILS)

/-- A completed pass as the OPL page shows it (R69). -/
def State.passDone (s : State) (st n : Nat) (digest : List Byte) : State :=
  let s1 := ((s.wr .opl OPL.STATE st).wr .opl OPL.PASS_FAILS 0).wr .opl OPL.RECORDS_APPLIED n
  let s2 := (List.range 8).foldl (fun s i => s.wr .opl OPL.OPT_DIGEST (field digest (4 * i) 4) 0 i) s1
  if st = 2 then s2.wr .opl OPL.OPTIONS_FALLBACK 0
  else if st = 4 then ((s2.wr .opl OPL.OPTIONS_FALLBACK 1).fault .opl 0x4031).plinthAudit 0x80 4 0x80 0 []
  else s2

/-- In link boot PD38 is ready already: with the options applied, firmware goes on (R56). -/
def State.afterOptions (s : State) : State :=
  if s.domainReady 38 then (s.startFirmware.mgcRequests).checkBringup else s

/-- OPTION_PASS (R66–R70): one pass over the layers. -/
def execOptionPass (readError : Bool) (s : State) : Result :=
  .next (if !s.passRunning then s
    else
      let st := s.mgc.store
      let fac := st.factory.layer.map fun x => OptRec.mk x.1 x.2.1 x.2.2.1 (x.2.2.2.testBit 0)
      let s0 := s.wr .opl OPL.STATE 1
      let alone := s.optPlan
      if readError then s0.passFailed 3 0xFFFF
      else match (if st.factory.valid then optLayer false fac 0 s.optStart else .error (0, 0)) with
        | .error _ => ({ s0 with power := { s0.power with factoryInvalid := true } }).fault .opl 0x4032
        | .ok t =>
          if alone.1 ∨ alone.2 then
            ((s0.applyOptions t).passDone (if alone.1 then 3 else 4) fac.length (zeros 32)).afterOptions
          else
            let c := optImageFail st.options
            if c ≠ 0 then s0.passFailed c 0xFFFF
            else
              let rs := optRecords st.options
              match optLayer true rs 0 t with
              | .error e => s0.passFailed e.1 e.2
              | .ok t2 =>
                ((s0.applyOptions t2).passDone 2 (fac.length + rs.length) (sha256 (slice st.options 64 (16 * rs.length)))).afterOptions)

end Sys2Proof.Machine
end

