-- ==== Sys2Proof/Machine/BlockReset.lean ====
section
/-! DEFINITION. Block software reset (R71, R72), idle requests of domains that go off (R44), event masks and the AON side
of the common header. -/

namespace Sys2Proof.Machine

/-- The block classes of R72. -/
inductive BlockClass where
  | engine | core | cluster | ife | cpx | hlk | mmuBod | amt | mc | plinth
deriving DecidableEq, Repr

/-- A page's block class; none where R72 gives none: its SWRST does nothing (log 28). -/
def Page.blockClass : Page → Option BlockClass
  | .eng _ _ | .sge _ | .ofe _ | .fpe _ | .wpe _ | .pye _ => some .engine
  | .tc _ | .vis _ => some .core
  | .clu _ | .cmem _ => some .cluster
  | .ife => some .ife
  | .cpx => some .cpx
  | .hlk _ => some .hlk
  | .mmu | .bod | .dig => some .mmuBod
  | .amt => some .amt
  | .mc | .mcg _ => some .mc
  | .pln | .ccp | .agm | .rsp => some .plinth
  | .dev | .clk | .pdc | .rstc | .lcs | .opl | .pmc | .mgc | .spm _ | .str _ => none

/-- The idle timeout of a class in beats (R72). -/
def BlockClass.timeout : BlockClass → Nat
  | .engine => 1
  | .core => 2
  | .cluster | .mmuBod => 8
  | .ife | .mc => 16
  | .cpx | .amt => 4
  | .hlk => 250
  | .plinth => 0

/-- A context of an engine page is in locked use. -/
def State.engineLocked (s : State) (p : Page) : Bool := (List.range 4).any fun k => s.ctxLocked p k

/-- The running locked set uses the block of a page (the table after R72; the page chapters): the Armature's also while the
Maquette is loaded. -/
def State.inLockedUse (s : State) (p : Page) : Bool :=
  (p = .amt && s.amt.maquette.isSome) || (s.lockedRuns && (match p with
    | .ife | .cpx | .amt | .mmu | .bod | .mc | .mcg _ => true
    | .clu c | .cmem c => s.clusterInUse c
    | .tc u | .eng u _ | .spm u | .str u => s.runningUnit u
    | .sge _ | .ofe _ | .fpe _ | .wpe _ | .pye _ => s.engineLocked p
    | .vis c => s.runningUnit (4 * c + 3) || [Page.sge c, .ofe c, .fpe c, .wpe c, .pye c].any s.engineLocked
    | .dev | .clk | .pdc | .rstc | .lcs | .opl | .pmc | .pln | .ccp | .agm | .rsp | .hlk _ | .dig | .mgc => false))

/-- A page's reset is in progress. -/
def State.resetting (s : State) (p : Page) : Bool := s.resets.any (·.page = p.num)

/-- The pages reset with a page's block (R72, R473): a core with its engines, a cluster with its cores. -/
def Page.resetPages (p : Page) : List Page :=
  match p with
  | .tc u => domainPages u
  | .vis c => domainPages (4 * c + 3)
  | .clu c | .cmem c => [Page.clu c, .cmem c] ++ (List.range 4).flatMap fun k => domainPages (4 * c + k)
  | .mc => [.mc, .mcg 0, .mcg 1]
  | _ => [p]

/-- Resets of cores absorbed into their cluster's reset: outcome 0x4 (the table after R72). -/
def State.absorb (s : State) (p : Page) : State :=
  match p.blockClass with
  | some .cluster =>
    let inner := s.resets.filter fun r => r.page ≠ p.num && p.resetPages.any (·.num = r.page)
    let s1 := inner.foldl (fun s r => s.logReset r 4) s
    { s1 with resets := s1.resets.filter fun r => !(r ∈ inner) }
  | _ => s

/-- What a write of SWRST = 1 answers, and its refusal's log entry (R71). -/
def swrstCheck (s : State) (p : Page) (role : Nat) : Nat × State :=
  if p.blockClass.isSome && s.inLockedUse p then
    (0x0B, s.logReset { page := p.num, beat := s.time.beatNo, role := role, forced := false, clocks := 0, done := false, off := false } 2)
  else (0, s)

/-- A block reset begins (R71): an idle request; a Plinth group block declares safe state meanwhile (R72). -/
def swrstAct (s : State) (p : Page) (role : Nat) : State :=
  if p.blockClass.isNone ∨ s.resetting p ∨ s.inLockedUse p then s
  else
    let r : BlkReset := { page := p.num, beat := s.time.beatNo, role := role, forced := false, clocks := 0, done := false, off := false }
    let s1 := s.absorb p
    let s2 := (({ s1 with resets := s1.resets ++ [r] } : State).wr p HDR.SWRST 1).wr p HDR.IDLE_REQ 1
    if p.plinthGroup then s2.addCause 1 0xFF else s2

/-- A reset in progress changed. -/
def State.setReset (s : State) (page : Nat) (f : BlkReset → BlkReset) : State :=
  { s with resets := s.resets.map fun r => if r.page = page then f r else r }

/-- BLK_RESET_IDLE (R71): the block reports idle after `clocks`. -/
def execBlkResetIdle (page : BitVec 12) (clocks : Nat) (s : State) : Result :=
  .next (if s.resets.any fun r => r.page = page.toNat && !r.done then
    s.setReset page.toNat fun r => { r with done := true, clocks := clocks }
  else s)

/-- The contexts whose open work a block holds. -/
def State.blockTasks (s : State) (p : Page) : List Nat :=
  match p with
  | .clu c | .cmem c => s.clusterTasks c
  | .amt | .mmu | .bod | .mc | .mcg _ | .cpx | .ife => s.amt.tasks.map (·.ctx)
  | _ => match p.unit? with | some u => s.coreTasks u | none => []

/-- BLK_RESET_FORCED (R71): the timeout of the class has run out; the remaining work aborts. -/
def execBlkResetForced (page : BitVec 12) (s : State) : Result :=
  .next (match s.resets.find? (fun r => r.page = page.toNat && !r.done), pageAt page.toNat with
    | some r, some p =>
      let n := match p.blockClass with | some c => c.timeout | none => 0
      if s.time.beatNo < r.beat + n then s
      else
        let s1 := ((s.setReset page.toNat fun r => { r with done := true, forced := true, clocks := 2500 * n }).fault p 0x3050)
        s1.abortTasks (s1.blockTasks p) 0x3050
    | _, _ => s)

/-- What a block's own reset clears beyond its registers (R63, R72). -/
def State.blockLost (s : State) (p : Page) : State :=
  match p with
  | .sge _ | .ofe _ | .fpe _ | .wpe _ | .pye _ => (s.forgetImages fun k => k.onPages [p.num]).forgetWork [p.num]
  | .tc u => s.coreLost u
  | .vis c => s.coreLost (4 * c + 3)
  | .clu c | .cmem c => ((List.range 4).foldl (fun s k => s.coreLost (4 * c + k)) s).clusterLost c
  | .ife => s.ifeLost
  | .cpx => { s with vision := { s.vision with
      ports := s.vision.ports.map fun _ => CamPort.fresh, streams := (List.range 32).map StreamRun.fresh } }
  | .hlk q => (s.linkDown q 1).setPort q HlPort.fresh
  | .mmu => { s with fabric := { s.fabric with tlb := [] } }
  | .bod => s.bodClear
  | .amt => s.setsGone
  | .dig => { s with fabric := { s.fabric with logBuffer := [], logPos := 0 } }
  | .mcg g => s.groupLost g
  | .mc => (s.groupLost 0).groupLost 1
  | _ => s

/-- A Plinth block's settings back at their after-reset values; its status is kept (R63). -/
def State.resetSettings (s : State) (p : Page) : State :=
  p.fields.foldl (fun s f =>
    if f.acc = .rw ∨ f.acc = .rws ∨ f.acc = .rl then
      (List.range f.n1).foldl (fun s i => (List.range f.n2).foldl (fun s j => s.wr p f f.rst i j) s) s
    else s) (s.dropShadows p)

/-- A block's pages after its reset, with their options (R71); a host link that stays lit waits for light (R76). -/
def State.resetBlock (s : State) (p : Page) : State :=
  let s1 := s.blockLost p
  let s2 := if p.plinthGroup then (s1.resetSettings p).loadPage p
    else p.resetPages.foldl (fun s q => (s.resetPage q).loadPage q) s1
  let s3 := match p with
    | .hlk q => s2.linkState q 1
    | .amt => s2.showAbsent
    | _ => s2
  (s3.wr p HDR.SWRST 0).wr p HDR.IDLE_REQ 0

/-- The handshake of an off-request is over (R43, R44): the domain goes off, unless a child has come on meanwhile; a request
made meanwhile is served. -/
def State.finishOff (s : State) (p : Page) (d : Nat) : State :=
  if (List.range 39).any fun c => domParent c = some d && s.domainUp c then s.wr p HDR.IDLE_REQ 0
  else
    let t := s.powerOff d
    if t.requested d then t.requestOn d else t

/-- BLK_RESET_DONE (R71): the class's reset time has passed; or the domain goes off (R44). -/
def execBlkResetDone (page : BitVec 12) (s : State) : Result :=
  .next (match s.resets.find? (fun r => r.page = page.toNat && r.done), pageAt page.toNat with
    | some r, some p =>
      let s1 : State := { s with resets := s.resets.filter fun x => x.page ≠ page.toNat }
      let s2 := if r.off then (match p.domain with | some d => s1.finishOff p d | none => s1) else s1.resetBlock p
      let s3 := s2.logReset r (if r.forced then 1 else 0)
      if p.plinthGroup then s3.endCauses 1 fun _ => s3.power.warm.isNone else s3
    | _, _ => s)

end Sys2Proof.Machine
end

