-- ==== Sys2Proof/Machine/Mgc.lean ====
section
/-! DEFINITION. The MGC's commands (chapter 19): the store (R442–R445), attestation (R441), audit copies and checkpoints
(R452, R454), the life cycle (R446, R447). -/

namespace Sys2Proof.Config

/-- FREE VALUE. What a FACTORY image holds (R442 names its contents without a byte layout; log 33). -/
opaque decodeFactory : List Byte → Sys2Proof.Machine.Factory

end Sys2Proof.Config

namespace Sys2Proof.Machine

/-! ### Store commands (R443–R445) -/

/-- The header of a firmware image with its signature block (R445). -/
def fwHeaderLen : Nat := 8312

/-- STORE_SRC. -/
def State.storeSrc (s : State) : Nat := s.rd2 .mgc MGC.STORE_SRC_LO MGC.STORE_SRC_HI

/-- A command that reads an image. -/
def storeReads (cmd : Nat) : Bool := cmd ∈ [1, 2, 3, 5, 8]

/-- The role may give the command (R443). -/
def storeRole (cmd role : Nat) : Bool := if cmd = 8 then role = 3 else if cmd = 5 then role = 2 || role = 3 else role = 2

/-- The life-cycle state lets the role give the command (R443). -/
def State.storeState (s : State) (cmd role : Nat) : Bool :=
  if cmd = 8 || (cmd = 5 && role = 3) then s.lifeCycle = 1 || s.lifeCycle = 5
  else s.lifeCycle = 2 || s.lifeCycle = 3 || s.lifeCycle = 4

/-- What a write of STORE_CMD answers (R443, the table after R454): BUSY, REFUSED for an undefined command, slot or role,
RANGE for an image outside open GDDR6. -/
def storeCheck (s : State) (cmd slot role : Nat) : Nat :=
  if cmd = 0 then (if slot = 7 then 0x0B else 0)
  else if s.mgc.storeCmd.isSome then 0x0A
  else if !(cmd ∈ [1, 2, 3, 4, 5, 6, 8]) || slot = 7 || !storeRole cmd role then 0x0B
  else if storeReads cmd && (s.storeSrc % 64 ≠ 0 || !s.openGddr s.storeSrc (max 1 (s.rd .mgc MGC.STORE_LEN))) then 0x06
  else 0

/-- The entries of a WRITE_KEYS image (R444): slot and keys. -/
def keyEntries (b : List Byte) : List (Nat × KeyPair) :=
  let slots := ((List.range 3).filter fun j => (field b 6 1).testBit j).map (4 + ·)
  (slots.zip (List.range 3)).map fun x =>
    let e := slice b (64 + 512 * x.2) 512
    (x.1, { rsa := slice e 4 384, slh := slice e 388 32 })

/-- The format of a WRITE_KEYS image (R444); slot 0x05 is the installer's alone (R437). -/
def keysBad (b : List Byte) (role : Nat) : Bool :=
  let slots := ((List.range 3).filter fun j => (field b 6 1).testBit j).map (4 + ·)
  field b 0 4 ≠ 0x5359454B || field b 4 2 ≠ 1 || 8 ≤ field b 6 1 || slice b 7 57 ≠ zeros 57
    || b.length ≠ 64 + 512 * slots.length || (role = 3 && 5 ∈ slots)
    || (slots.zip (List.range 3)).any fun x =>
      let e := slice b (64 + 512 * x.2) 512
      field e 0 1 ≠ x.1 || slice e 1 3 ≠ zeros 3 || slice e 420 92 ≠ zeros 92

/-- WRITE_FIRMWARE's checks (R443, R445): 0, or the STORE_RESULT. -/
def State.firmwareResult (s : State) (b : List Byte) : Nat :=
  let h := b.take fwHeaderLen
  let body := b.drop fwHeaderLen
  let st := s.mgc.store
  if !fwHeaderOk h || b.length ≠ fwHeaderLen + fwLenOf h then 3
  else if !st.fwSigned h then 1
  else if !fwBodyOk h body then 2
  else if fwVersionOf h < st.keyBlock.fwFloor then 4 else 0

/-- WRITE_OPTIONS' checks (R443): R68 codes 0x01, 0x02, 0x04, 0x05 and 0x06 over the FACTORY layer. -/
def State.optionsResult (s : State) (b : List Byte) : Nat :=
  let plain (r : OptRec) : OptRec := { r with commit := false }
  let fac := s.mgc.store.factory.layer.map fun x => OptRec.mk x.1 x.2.1 x.2.2.1 false
  if optImageFail b = 1 then 3
  else if optImageFail b = 2 then 2
  else match optLayer false fac 0 s.optStart with
    | .error _ => 3
    | .ok t => match optLayer true ((optRecords b).map plain) 0 t with
      | .error _ => 3
      | .ok _ => 0

/-- WRITE_GRAPH's checks (R443): R249 codes 0x01 to 0x04. -/
def State.graphResult (s : State) (b : List Byte) : Nat :=
  match s.packageFail b with
  | some x => x.1
  | none => match s.versionFail b with
    | some x => x.1
    | none => 0

/-- WRITE_FACTORY's check (R443): the signature of slot 0x02 over what stands before it. -/
def State.factoryResult (s : State) (b : List Byte) : Nat :=
  let n := b.length - sigBlockLen
  if b.length < sigBlockLen then 3
  else if s.mgc.store.verifyBlock 2 (b.drop n) (b.take n) then 0 else 1

/-- What a store command will report (R443, R456): the state, a locked set, then the image's own checks. -/
def State.storeResult (s : State) (cmd role : Nat) (b : List Byte) (len : Nat) : Nat :=
  if !s.storeState cmd role then 5
  else if (cmd = 1 || cmd = 8) && s.lockedRuns then 6
  else if cmd = 1 then s.firmwareResult b
  else if cmd = 2 then s.optionsResult b
  else if cmd = 3 then s.graphResult b
  else if cmd = 5 then (if keysBad b role then 3 else 0)
  else if cmd = 6 then (if len < s.mgc.store.keyBlock.fwFloor || s.mgc.fwVersion < len then 4 else 0)
  else if cmd = 8 then s.factoryResult b
  else 0

/-- The copy of the key block that is not in force, while it is being written (R442). -/
def Store.tearKeyBlock (st : Store) : Store :=
  if st.keyBlock = st.keys0 then { st with keys1 := { st.keys1 with torn := true } }
  else { st with keys0 := { st.keys0 with torn := true } }

/-- What a command erases before it programs (R442, R445; log 34). -/
def Store.erase (st : Store) (cmd slot : Nat) : Store :=
  if cmd = 1 then { st with fwHeader := [] }
  else if cmd = 2 then { st with options := [] }
  else if cmd = 3 ∨ cmd = 4 then { st with graphs := st.graphs.filter (·.1 ≠ slot) }
  else if cmd = 5 ∨ cmd = 6 then st.tearKeyBlock
  else if cmd = 8 then { st with factory := { st.factory with valid := false } }
  else st

/-- What a command leaves in the store (R442–R445). -/
def Store.program (st : Store) (c : StoreCmd) : Store :=
  if c.cmd = 1 then { st with firmware := c.image.drop fwHeaderLen, fwHeader := c.image.take fwHeaderLen }
  else if c.cmd = 2 then { st with options := c.image }
  else if c.cmd = 3 then { st with graphs := assocSet c.slot c.image st.graphs }
  else if c.cmd = 5 then
    st.writeKeyBlock fun k => { k with keys := (keyEntries c.image).foldl (fun l e => assocSet e.1 e.2 l) k.keys }
  else if c.cmd = 6 then st.writeKeyBlock fun k => { k with fwFloor := c.len }
  else if c.cmd = 8 then { st with factory := Config.decodeFactory (c.image.take (c.image.length - sigBlockLen)) }
  else st

/-- A store command begins (R443): the whole image is checked before anything is erased. -/
def storeAct (s : State) (cmd slot role port : Nat) : State :=
  if cmd = 0 then s
  else
    let len := s.rd .mgc MGC.STORE_LEN
    let b := if storeReads cmd then s.load s.storeSrc len else []
    let r := s.storeResult cmd role b len
    let c : StoreCmd := { cmd := cmd, slot := slot, image := b, len := len, result := r, role := role, port := port }
    let s1 := s.wr .mgc MGC.STORE_BUSY 1
    let s2 := if r = 0 then s1.setStore (s1.mgc.store.erase cmd slot) else s1
    { s2 with mgc := { s2.mgc with storeCmd := some c } }

/-- STORE_DONE (R443, R449): the command ends, with its audit entry; a failed check is a fault record 0x8030. -/
def execStoreDone (s : State) : Result :=
  .next (match s.mgc.storeCmd with
    | none => s
    | some c =>
      let s1 : State := { s with mgc := { s.mgc with storeCmd := none } }
      let s2 := if c.result = 0 then s1.setStore (s1.mgc.store.program c) else s1.fault .mgc 0x8030
      let s3 := ((s2.wr .mgc MGC.STORE_BUSY 0).wr .mgc MGC.STORE_RESULT c.result).wr .mgc MGC.FW_FLOOR s2.mgc.store.keyBlock.fwFloor
      (s3.audit 0x30 c.role c.port c.result (leBytes 1 c.cmd ++ leBytes 1 c.slot ++ zeros 2 ++ sha256 c.image)).raise .mgc 1)

/-! ### Attestation (R441) -/

/-- The bytes of a report with its signature block. -/
def reportLen : Nat := 17736

/-- ATT_ADDR. -/
def State.attAddr (s : State) : Nat := s.rd2 .mgc MGC.ATT_ADDR_LO MGC.ATT_ADDR_HI

/-- What a write of ATT_GO answers (R441). -/
def attCheck (s : State) : Nat :=
  if s.lifeCycle = 6 then 0x0B
  else if s.mgc.attest.isSome then 0x0A
  else if s.attAddr % 64 ≠ 0 || !s.openGddr s.attAddr reportLen then 0x06 else 0

/-- An attestation begins (R441). -/
def attAct (s : State) (role port : Nat) : State :=
  let nonce := (List.range 8).flatMap fun i => leBytes 4 (s.rd .mgc MGC.ATT_NONCE 0 i)
  let s1 := s.wr .mgc MGC.ATT_BUSY 1
  { s1 with mgc := { s1.mgc with attest := some { nonce := nonce, addr := s.attAddr, role := role, port := port } } }

/-- The report of R441, as the device stands now. -/
def State.attReport (s : State) (nonce : List Byte) : List Byte :=
  let st := s.mgc.store
  let run := (List.range 8).flatMap fun i => leBytes 4 (s.rd .dig DIG.RUN_ID 0 i)
  padTo 256 (leBytes 4 0x5454415A ++ leBytes 2 1 ++ leBytes 2 0xB0 ++ leBytes 1 (s.rd .dev DEV.VARIANT)
    ++ leBytes 1 s.lifeCycle ++ zeros 2 ++ leBytes 4 s.mgc.fwVersion ++ nonce ++ leBytes 8 s.time.beatNo ++ st.idDigest
    ++ s.mgc.fwDigest ++ s.optDigest ++ leBytes 2 (s.rd .amt AMT.GSET_RUN) ++ leBytes 2 (s.rd .amt AMT.GSET_MAQ)
    ++ leBytes 4 s.unitMap ++ run ++ leBytes 8 (st.auditNext - 1) ++ st.auditHash ++ leBytes 1 (s.rd .rstc RSTC.WARM_COUNT))

/-- ATT_DONE (R441): the report lies in memory; a checkpoint that waited for it is signed (the table after R454). -/
def execAttDone (s : State) : Result :=
  .next (match s.mgc.attest with
    | none => s
    | some a =>
      let b := s.attReport a.nonce
      let g := s.ownBlock
      let s1 := if g.2.openGddr a.addr reportLen then g.2.store a.addr (b ++ g.1) else g.2
      let s2 : State := { s1 with mgc := { s1.mgc with attest := none, checkpointDue := false } }
      let s3 := ((s2.wr .mgc MGC.ATT_BUSY 0).audit 0x90 a.role a.port 0 []).raise .mgc 0
      if s.mgc.checkpointDue then s3.checkpoint else s3)

/-! ### Copies of the audit log (R454) -/

/-- AUD_ADDR. -/
def State.audAddr (s : State) : Nat := s.rd2 .mgc MGC.AUD_ADDR_LO MGC.AUD_ADDR_HI

/-- The bytes one entry, or one checkpoint's slot, takes in a copy (R451, R452). -/
def audSize (checkpoints : Bool) : Nat := if checkpoints then 18432 else 128

/-- What a write of AUD_GO answers (R454, R456), with AUD_CKPT_COPY as written: one copy at a time. -/
def audCheck (s : State) (checkpoints : Bool) : Nat :=
  let n := s.rd .mgc MGC.AUD_COUNT
  if s.mgc.audCopy.isSome then 0x0A
  else if n = 0 || 245760 < n then 0x0B
  else if s.audAddr % 64 ≠ 0 || !s.openGddr s.audAddr (n * audSize checkpoints) then 0x06 else 0

/-- A copy begins (R454). -/
def audAct (s : State) : State :=
  let c : AuditCopy := { first := s.rd2 .mgc MGC.AUD_FIRST_LO MGC.AUD_FIRST_HI, count := s.rd .mgc MGC.AUD_COUNT
                         addr := s.audAddr, checkpoints := s.rd .mgc MGC.AUD_CKPT_COPY = 1 }
  { s with mgc := { s.mgc with audCopy := some c } }

/-- The entry of a SEQ; zeros when it is no longer present (R454). -/
def Store.entry (st : Store) (seq : Nat) : List Byte :=
  if seq < st.auditNext then padTo 128 (st.audit.getD (st.auditNext - 1 - seq) []) else zeros 128

/-- The bytes a copy writes: entries by SEQ; checkpoints from the first whose last entry is not before AUD_FIRST
(log 35). -/
def Store.copyBytes (st : Store) (c : AuditCopy) : List Byte :=
  if c.checkpoints then
    let l := st.checkpoints.reverse.filter fun b => c.first ≤ field b 0 8
    (List.range c.count).flatMap fun i => padTo 18432 (l.getD i [])
  else (List.range c.count).flatMap fun i => st.entry (c.first + i)

/-- AUD_DONE (R454). -/
def execAudDone (s : State) : Result :=
  .next (match s.mgc.audCopy with
    | none => s
    | some c =>
      let s1 : State := { s with mgc := { s.mgc with audCopy := none } }
      let s2 := if s1.openGddr c.addr (c.count * audSize c.checkpoints) then s1.store c.addr (s1.mgc.store.copyBytes c) else s1
      s2.raise .mgc 2)

/-! ### The life cycle (R446, R447) -/

/-- The roles of a move, as bits O, I, M (R446); none for a move that does not exist. -/
def moveRoles (source target : Nat) : Option Nat :=
  match source, target with
  | 1, 2 | 5, 2 => some 4
  | 2, 3 => some 2
  | 3, 4 | 4, 3 => some 3
  | 3, 2 | 4, 2 => some 2
  | 2, 5 | 3, 5 | 4, 5 => some 4
  | 1, 6 | 5, 6 => some 4
  | _, _ => none

/-- The precondition of a move (R446). -/
def Store.moveReady (st : Store) (source target : Nat) : Bool :=
  if target = 2 ∧ (source = 1 ∨ source = 5) then
    !st.factory.certificate.isEmpty && [1, 2, 3, 4, 6].all fun k => (st.key k).isSome
  else if target = 3 ∧ source = 2 then (st.key 5).isSome else true

/-- Why a request is refused (R447); 0 when it is accepted. -/
def State.moveRefused (s : State) (target role : Nat) : Nat :=
  match moveRoles s.lifeCycle target with
  | none => 1
  | some roles =>
    if role = 0 || !roles.testBit (role - 1) then 2
    else if s.lockedRuns then 3
    else if !s.mgc.store.moveReady s.lifeCycle target then 4
    else if s.mgc.storeCmd.isSome || s.mgc.change.isSome then 5 else 0

/-- What a write of LCS.REQ answers, with the reason of a refusal in LCS.RESULT (R447). -/
def lcCheck (s : State) (target role : Nat) : Nat × State :=
  if target = 0 then (0, s)
  else
    let r := s.moveRefused target role
    if r = 0 then (0, s) else (0x0B, s.wr .lcs LCS.RESULT r)

/-- A change begins (R446). -/
def lcAct (s : State) (target role port : Nat) : State :=
  if target = 0 then s
  else
    let s1 := s.wr .lcs LCS.CHANGING 1
    { s1 with mgc := { s1.mgc with change := some { target := target, role := role, port := port } } }

/-- What a change leaves in the store (R446). -/
def Store.move (st : Store) (target : Nat) : Store :=
  let gone : Store := if target = 5 ∨ target = 6 then { st with options := [], graphs := [] } else st
  let k := gone.writeKeyBlock fun k =>
    { k with
      lifeCycle := target
      keys := if target = 5 ∨ target = 6 then [] else k.keys
      fwFloor := if target = 5 then 0 else k.fwFloor }
  { k with scrapped := st.scrapped || target = 6 }

/-- Retention memory and the backup words wiped (R63, R64). -/
def State.wipeAon (s : State) : State :=
  let s1 : State := { s with retention := { blkLog := [], faults := [], pm := [] } }
  (List.range 8).foldl (fun s i => if i < 4 then s.wr .rstc RSTC.BKP_OI 0 0 i else s.wr .rstc RSTC.BKP_I 0 0 (i - 4)) s1

/-- LC_CHANGED (R64, R446): the change commits; PD00–PD37 off, memories wiped, the MGC restarts in the new state. -/
def execLcChanged (s : State) : Result :=
  .next (match s.mgc.change with
    | none => s
    | some c =>
      let source := s.lifeCycle
      let s1 := s.setStore (s.mgc.store.move c.target)
      let s2 := (s1.powerOffAll (List.range 38)).wipeAon.loadFactory
      let s3 := (s2.mgcLost.setDomain 38 .off).startPd38
      let s4 := ((s3.wr .lcs LCS.CHANGING 0).wr .lcs LCS.RESULT 0).wr .lcs LCS.STATE c.target
      (s4.audit 0x60 c.role c.port 0 (leBytes 1 source ++ leBytes 1 c.target)).raise .lcs 0)

end Sys2Proof.Machine
end

