-- ==== Sys2Proof/Machine/Views.lean ====
section
/-! DEFINITION. Register fields that show other state: what a read of a field answers (R463, the page tables). -/

namespace Sys2Proof.Machine

/-! ### Access rights in the present life-cycle state (R435, R436, R464) -/

/-- The roles that may write a field: SWRST of the Plinth group is the maker's (R464). -/
def fieldRoles (p : Page) (f : RField) : Nat := if f = HDR.SWRST && p.plinthGroup then 4 else f.roles

/-- The access code of a field: SWRST of the Plinth group is RL (R464). -/
def fieldAccess (p : Page) (f : RField) : Access := if f = HDR.SWRST && p.plinthGroup then .rl else f.acc

/-- An RL field may be written in the present state (R436). -/
def State.rlOpen (s : State) (roles : Nat) : Bool :=
  if roles.testBit 1 then s.lifeCycle = 2 || s.lifeCycle = 4 else s.lifeCycle = 1 || s.lifeCycle = 5

/-- What a maker session may write outside MANUFACTURE and RETURN (R436): the move to RETURN; attestation and copies of
the log are reads (R441, R454; log 36). -/
def makerField (p : Page) (f : RField) : Bool :=
  (p = .lcs && f = LCS.REQ) || (p = .mgc && (f.off = 0x60 || (0x80 ≤ f.off && f.off ≤ 0xAC && f ≠ MGC.AUD_CKPT)))

/-- A session's role may write a field in the present life-cycle state (R435, R436). -/
def State.roleMay (s : State) (p : Page) (f : RField) (role : Nat) : Bool :=
  role ≠ 0 && (fieldRoles p f).testBit (role - 1)
    && (role ≠ 3 || s.lifeCycle = 1 || s.lifeCycle = 5 || makerField p f)

/-- Some role may write a field of the page: the header's ROLES. -/
def State.pageRoles (s : State) (p : Page) : Nat :=
  ofBits 3 fun r => (HDR.table ++ p.fields).any fun f =>
    (match fieldAccess p f with | .ro => false | .rl => s.rlOpen (fieldRoles p f) | .rw | .w1c | .wo | .rws => true)
      && s.roleMay p f (r + 1)

/-! ### Work in flight -/

/-- A node of a class, on a unit, runs: a locked run before its flag clock, or an open node on its core. -/
def State.runs (s : State) (f : NodeDesc → Nat → Bool) : Bool :=
  s.amt.runs.any (fun r => !r.flagged && match (s.setOf r.gset).bind fun x => x.pkg.node? r.node with
    | some d => f d r.unit | none => false)
  || s.fabric.cores.any fun c => c.nodes.any fun n => !n.locked && match s.nodeOf n with
    | some d => f d c.unit | none => false

/-- Context `k` of an engine page runs. -/
def State.ctxRuns (s : State) (p : Page) (k : Nat) : Bool :=
  s.runs fun d u => d.page (u / 4) = some p && (if d.cls = .fpeMatch then k = 2 else d.engineCtx = k)

/-- Context `k` of the front end runs: a frame of it has begun and is not whole. -/
def State.ifeRuns (s : State) (k : Nat) : Bool :=
  match (s.ife k).frame with
  | some n => s.rd .ife IFX.EN k = 1 && !((ImageKey.ife k 0, n) ∈ s.vision.complete)
  | none => false

/-- A channel's STATE (STR page). -/
def Channel.shown (c : Channel) : Nat :=
  if c.stalled.isSome then 3 else if c.active.isNone then 0 else if c.pend.isSome then 2 else 1

/-- A block has work in flight (BLK_STAT.IDLE is 0). -/
def State.working (s : State) (p : Page) : Bool :=
  match p with
  | .tc u => (s.core u).nodes ≠ []
  | .eng u e => (s.core u).nodes.any fun n => n.busy && match s.nodeOf n with
    | some d => (s.nodeEngines d).testBit e | none => false
  | .vis c => (s.core (4 * c + 3)).nodes ≠ []
  | .sge _ | .ofe _ | .fpe _ | .wpe _ | .pye _ => (List.range 4).any (s.ctxRuns p ·)
  | .clu c => s.amt.tasks.any (·.cluster = c)
  | .ife => (List.range 8).any s.ifeRuns
  | .cpx => s.vision.streams.any (·.active)
  | .str u => (List.range 8).any fun n => (s.chan u n).active.isSome
  | .amt => s.amt.running.isSome || s.amt.load.isSome || !s.amt.tasks.isEmpty
  | .mmu => s.fabric.channels.any (·.stalled.isSome)
  | .bod => s.fabric.bulk.isSome
  | .dig => !s.fabric.logBuffer.isEmpty
  | .pmc => s.fabric.capture.isSome
  | .mgc => s.mgc.storeCmd.isSome || s.mgc.attest.isSome || s.mgc.audCopy.isSome
  | .lcs => s.mgc.change.isSome
  | .hlk q => !(s.port q).replay.isEmpty || !(s.port q).cellQ.isEmpty
  | .dev | .clk | .pdc | .rstc | .opl | .pln | .ccp | .agm | .rsp | .mc | .mcg _ | .cmem _ | .spm _ => false

/-! ### Views of the pages -/

/-- The common header (R462, R463). -/
def State.headerView (s : State) (p : Page) (f : RField) : Nat :=
  if f = HDR.BLK_ID then p.blkId
  else if f = HDR.BLK_CAPS0 then (match p with | .tc _ => 0xFFFF | _ => 0)
  else if f = HDR.IDLE then
    (if s.resets.any (fun r => r.page = p.num && r.done) then 1 else b2n (!s.working p))
  else if f = HDR.READY then
    b2n (s.pageOn p && s.power.optionsDone && !(s.resets.any fun r => r.page = p.num && r.done))
  else if f = HDR.LOCKED_USE then b2n (s.pageLocked p)
  else if f = HDR.RESETTING then b2n (s.resetting p)
  else if f = HDR.WHEN then b2n p.perContext
  else if f = HDR.ROLES then s.pageRoles p
  else if f = HDR.LOCKED then
    b2n (s.pageLocked p || p.fields.any fun g => (List.range g.n1).any fun i => s.lockedBits p g i ≠ 0)
  else s.rd p f

/-- The tests of an instance. -/
def State.testsOf (s : State) (i : TestInstance) : List TestState := s.rasp.tests.filter (·.inst = i)

/-- The test an instance is at (R425): the highest mode, then a rotation under way, then the first. -/
def State.currentTest (s : State) (i : TestInstance) : Option TestState :=
  let l := s.testsOf i
  let top := (l.map fun x => modeRank x.current.mode).foldl max 0
  let c := l.filter fun x => modeRank x.current.mode = top
  match c.find? fun x => x.current.pos ≠ 0 with
  | some x => some x
  | none => c.head?

/-- Beats since an instance's oldest last rotation, in units of 1024. -/
def State.rotationAge (s : State) (i : TestInstance) : Nat :=
  let since := (s.testsOf i).filterMap fun x => match x.passedAt with | some b => some b | none => x.last
  match since with
  | [] => 0
  | b :: r => min 255 ((s.time.beatNo - r.foldl min b) / 1024)

/-- RSP: the current test of a unit and of the Plinth checker (R433). -/
def State.raspView (s : State) (f : RField) (i : Nat) : Nat :=
  let inst : TestInstance := .unit (Fin.ofNat 24 i)
  let cur : TestRun × Nat := match s.currentTest inst with | some x => (x.current, x.test) | none => (TestRun.fresh 0, 0)
  if f = RSPU.POS then cur.1.pos
  else if f = RSPU.TEST then cur.2
  else if f = RSPU.MODE then cur.1.mode
  else if f = RSPU.AGE then s.rotationAge inst
  else if f = RSP.PLN_POS then (match s.currentTest .plinth with | some x => x.current.pos | none => 0)
  else if f = RSP.PLN_AGE then s.rotationAge .plinth
  else s.rd .rsp f i

/-- The graph contexts that locked graphs hold (log 37): the highest free numbers. -/
def State.lockedCtxs (s : State) : List Nat :=
  let n := (s.heldSets.map fun x => x.1.sec.graphs.length).sum
  (((List.range 16).reverse).filter fun c => !(s.amt.tasks.any (·.ctx = c))).take n

/-- AMT. -/
def State.amtView (s : State) (f : RField) : Nat :=
  if f = AMT.CTX_LOCKED then ofBits 16 (decide <| · ∈ s.lockedCtxs)
  else if f = AMT.CTX_BUSY then ofBits 16 fun c => c ∈ s.lockedCtxs || s.amt.tasks.any (·.ctx = c)
  else if f = AMT.INTAKE_DEPTH then s.link.intake.length
  else s.rd .amt f

/-- A strip flag's word (R242). -/
def State.flagWord (s : State) (c n : Nat) : Nat :=
  match (s.clu c).flags.find? (·.1 = n) with
  | some (_, g) => g.strip % 256 + 256 * (g.readers % 16) + 4096 * b2n g.full + 8192 * b2n g.poison
  | none => 0

/-- A cluster controller's page (R242, R244). -/
def State.cluView (s : State) (c : Nat) (f : RField) (j : Nat) : Nat :=
  let x := s.clu c
  let bank := 1024 * s.rd (.clu c) CLU.FLAG_BANK
  if f = CLU.CNT_LOCKED then x.lockedCounters.length
  else if f = CLU.CNT_OPEN then x.openCounters.length
  else if f = CLU.FLAGS_LOCKED then x.lockedFlags.length
  else if f = CLU.RL_DEPTH0 then (x.readyOf 0).length
  else if f = CLU.RL_DEPTH1 then (x.readyOf 1).length
  else if f = CLU.RL_DEPTH2 then (x.readyOf 2).length
  else if f = CLU.RL_DEPTH3 then (x.readyOf 3).length
  else if f = CLU.PENDING then min 0xFFFF x.pendingNodes.length
  else if f = CLU.FLAG_LO then s.flagWord c (bank + 2 * j)
  else if f = CLU.FLAG_HI then s.flagWord c (bank + 2 * j + 1)
  else s.rd (.clu c) f 0 j

/-- A tensor core's page (R262, R282). -/
def State.tcView (s : State) (u : Nat) (f : RField) : Nat :=
  let l := (s.core u).nodes
  if f = TC.STATE then (if s.lockedUnit u then 2 else if l.isEmpty then 0 else 1)
  else if f = TC.NODES_RUN then l.length
  else if f = TC.ENG_BUSY then ofBits 4 fun e => s.working (.eng u e)
  else if f = TC.RINGS_RESV then s.ringsResv u
  else s.rd (.tc u) f

/-- Line-memory bytes of a vision core's enabled contexts (R172, R189, R203, R218, R225). -/
def State.lineMem (s : State) (c : Nat) : Nat :=
  let on (p : Page) (n : Nat) : List Nat := (List.range n).filter (s.ctxEnabled p ·)
  ((on (.sge c) 4).map (s.sgeLineMem c)).sum + ((on (.ofe c) 2).map (s.ofeLineMem c)).sum
    + ((on (.fpe c) 2).map (s.fpeLineMem c)).sum + ((on (.wpe c) 4).map (s.wpeLineMem c)).sum
    + ((on (.pye c) 4).map (s.pyeLineMem c)).sum

/-- A vision core's page (R473). -/
def State.visView (s : State) (c : Nat) (f : RField) : Nat :=
  if f = VIS.LINEMEM_USED then s.lineMem c
  else if f = VIS.LOCKED_USE then b2n ([Page.sge c, .ofe c, .fpe c, .wpe c, .pye c].any s.engineLocked)
  else if f = VIS.ENG_BUSY then ofBits 5 fun e => match [Page.sge c, .ofe c, .fpe c, .wpe c, .pye c][e]? with
    | some p => s.working p | none => false
  else s.rd (.vis c) f

/-- A vision engine's page. -/
def State.engineView (s : State) (p : Page) (f : RField) (i j : Nat) : Nat :=
  if f = SGE.CTX_ACTIVE && (match p with | .sge _ | .wpe _ | .pye _ => true | _ => false) then ofBits 4 (s.ctxRuns p ·)
  else if f = OFE.CTX_ACTIVE && (match p with | .ofe _ | .fpe _ => true | _ => false) then ofBits 2 (s.ctxRuns p ·)
  else match p with
    | .sge _ => if f = SGX.LOCKED_USE then b2n (s.ctxLocked p i) else s.rd p f i j
    | .ofe _ => if f = OFX.LOCKED_USE then b2n (s.ctxLocked p i) else s.rd p f i j
    | .fpe _ =>
      if f = FPE.MATCH_BUSY then b2n (s.ctxRuns p 2)
      else if f = FPE.M_LOCKED_USE then b2n (s.ctxLocked p 2)
      else if f = FPX.LOCKED_USE then b2n (s.ctxLocked p i) else s.rd p f i j
    | .wpe _ => if f = WPX.LOCKED_USE then b2n (s.ctxLocked p i) else s.rd p f i j
    | .pye _ => if f = PYX.LOCKED_USE then b2n (s.ctxLocked p i) else s.rd p f i j
    | _ => s.rd p f i j

/-- The front end's page (R154). -/
def State.ifeView (s : State) (f : RField) (i j : Nat) : Nat :=
  let x := s.ife i
  if f = IFE.CTX_ACTIVE then ofBits 8 s.ifeRuns
  else if f = IFX.PQ_DEPTH then x.queue.length
  else if f = IFX.TEMP_REF_VALID then b2n (match x.frame, x.refFrame with | some n, some r => r + 1 = n | _, _ => false)
  else if f = IFX.SETTINGS_UNKNOWN then b2n (x.unknownAt (x.frame.getD 0))
  else if f = IFX.LOCKED_USE then b2n (s.ifeLocked i)
  else s.rd .ife f i j

/-- The next trigger of a port's streams at or after the present beat (R10); 0 for a port without. -/
def State.trigNext (s : State) (n : Nat) : Nat :=
  match (s.portRuns n).find? fun r => r.active && 0 < r.period with
  | some r => if s.time.beatNo ≤ r.b0 then r.b0 else r.b0 + ceilDiv (s.time.beatNo - r.b0) r.period * r.period
  | none => 0

/-- The camera page (R124): a port whose domain is off shows its after-reset values (R460). -/
def State.cpxView (s : State) (f : RField) (i j : Nat) : Nat :=
  if f.n1 = 12 && !s.camOn i then f.rst
  else if f = CPP.TRIG_NEXT then s.trigNext i
  else if f = CPP.LOCKED_USE then b2n (s.camLocked i)
  else if f = CPP.TUN_DEPTH then min 64 (s.cam i).queue.length
  else s.rd .cpx f i j

/-- Rings show whether a held set has them (R349, R350); segments likewise. -/
def State.memView (s : State) (p : Page) (f : RField) (i j : Nat) : Nat :=
  match p with
  | .spm u =>
    if f = SPM.LOCKED_SEG then ofBits 32 (s.spmLocked u ·)
    else if f = SPR.LOCKED then b2n (s.ringLocked ⟨false, u, i⟩) else s.rd p f i j
  | .cmem c =>
    if f = CMEM.LOCKED_SEG_LO then ofBits 32 (s.lockedCmem c ·)
    else if f = CMEM.LOCKED_SEG_HI then ofBits 32 (fun k => s.lockedCmem c (k + 32))
    else if f = CMR.LOCKED then b2n (s.ringLocked ⟨true, c, i⟩) else s.rd p f i j
  | _ => s.rd p f i j

/-- A core's streams (R379). -/
def State.strView (s : State) (u : Nat) (f : RField) (i : Nat) : Nat :=
  let c := s.chan u i
  if f = STR.STATE then c.shown
  else if f = STR.LOCKED_USE then b2n (s.chanLocked u i)
  else if f = STR.ACT_POS then (match c.active with | some _ => c.pos | none => 0)
  else if f = STR.ACT_COUNT then (match c.active with | some l => l.count | none => 0)
  else if f = STR.PEND_COUNT then (match c.pend with | some l => l.count | none => 0)
  else if f = STR.AHEAD then c.ahead
  else s.rd (.str u) f i

/-- The oldest stalled channel (R374). -/
def State.oldestStall (s : State) : Option (Nat × Nat) :=
  let l := s.fabric.channels.filterMap fun c => match c.stalled, c.ctx with
    | some (a, _, b), some x => some (b, x, a)
    | _, _ => none
  match l with
  | [] => none
  | x :: r => some ((r.foldl (fun m y => if y.1 < m.1 then y else m) x).2)

/-- The MMU's page (R366, R374, R378). -/
def State.mmuView (s : State) (f : RField) (j : Nat) : Nat :=
  let o := s.oldestStall
  if f = MMU.PF_PENDING then b2n o.isSome
  else if f = MMU.PF_CTX then (match o with | some x => x.1 | none => 0)
  else if f = MMU.PF_ADDR_LO then (match o with | some x => x.2 % 2 ^ 32 | none => 0)
  else if f = MMU.PF_ADDR_HI then (match o with | some x => x.2 / 2 ^ 32 | none => 0)
  else if f = MMU.WIN_COUNT then (s.heldSets.map fun x => x.1.sec.windows.length).sum
  else s.rd .mmu f 0 j

/-- A memory controller group's page (R357, R362). -/
def State.mcgView (s : State) (g : Nat) (f : RField) (i : Nat) : Nat :=
  if f = MCG.TRAINED then b2n (s.domainReady (35 + g))
  else if f = MCG.LOCKED_SLOTS then
    min 46 ((s.heldPlacements.flatMap fun q => (q.gddrSlots.filter (·.1 = 8 * g + i)).map (·.2.1)).eraseDups.length)
  else s.rd (.mcg g) f i

/-- The block owner directory's page (R327). -/
def State.bodView (s : State) (f : RField) (i : Nat) : Nat :=
  if f = BOD.N_VALID then (s.fabric.bod.filter fun e => e.2.testBit 0).length
  else if f = BOD.N_LOCKED then (s.fabric.bod.filter fun e => e.2.testBit 8).length
  else s.rd .bod f i

/-- ODO_AGE (R20): beats since the newest odometry message arrived. -/
def State.odoAge (s : State) : Nat :=
  match s.plinth.odo.head? with
  | some m => min 0xFFFF ((aonPerBeat * s.time.beatNo - m.stamp) / aonPerBeat)
  | none => 0xFFFF

/-- What a read of a field's copy answers: the value in force, or what the field shows. -/
def State.view (s : State) (p : Page) (f : RField) (i j : Nat) : Nat :=
  if f.off < 0x40 then s.headerView p f
  else match p with
    | .dev => if f = DEV.BEAT_LO then s.time.beatNo % 2 ^ 32 else s.rd p f i j
    | .pdc =>
      let ready (d : Nat) : Bool := s.domainReady d && !(d ∈ s.power.heldInReset)
      if f = PDC.ON_STAT0 then ofBits 32 ready
      else if f = PDC.ON_STAT1 then ofBits 7 fun k => ready (k + 32) else s.rd p f i j
    | .amt => s.amtView f
    | .clu c => s.cluView c f j
    | .tc u => s.tcView u f
    | .eng u e =>
      if f = ENG.BUSY then b2n (s.working (.eng u e)) else if f = ENG.LOCKED_USE then b2n (s.lockedUnit u) else s.rd p f i j
    | .vis c => s.visView c f
    | .sge _ | .ofe _ | .fpe _ | .wpe _ | .pye _ => s.engineView p f i j
    | .ife => s.ifeView f i j
    | .cpx => s.cpxView f i j
    | .spm _ | .cmem _ => s.memView p f i j
    | .str u => s.strView u f i
    | .mmu => s.mmuView f j
    | .mcg g => s.mcgView g f i
    | .bod => s.bodView f i
    | .pln => if f = PLN.ODO_AGE then s.odoAge else s.rd p f i j
    | .rsp => s.raspView f i
    | .clk | .rstc | .lcs | .opl | .pmc | .ccp | .agm | .hlk _ | .mc | .dig | .mgc => s.rd p f i j

end Sys2Proof.Machine
end

