-- ==== Sys2Proof/Machine/Link.lean ====
section
/-! DEFINITION. The host link below its messages (R73–R84): width, HELLO, cells sent, replay, retrain, credits, loss of
signal, and the receivers of the other ports (R34). -/

namespace Sys2Proof.Machine

/-! ### Lanes and width (R34, R75) -/

/-- The port's logic runs: its domain is ready and out of reset. -/
def State.hlkOn (s : State) (p : Nat) : Bool := s.pageOn (.hlk p)

/-- The width that lanes locked in both directions allow (R75): 3 all lanes, 1 lanes 0–1, 2 lanes 2–3. -/
def State.chooseWidth (s : State) (p both : Nat) : Option Nat :=
  if both &&& 15 = 15 then some 3
  else if s.rd (.hlk p) HLK.WIDTH2_EN = 0 then none
  else if both &&& 3 = 3 then some 1
  else if both &&& 12 = 12 then some 2 else none

/-- The lanes a width uses. -/
def widthLanes (w : Nat) : Nat := if w = 3 then 15 else if w = 1 then 3 else if w = 2 then 12 else 0

/-- The receive lanes that hold block lock; lane 0 of HL0 feeds the PLL (R48). -/
def State.setRxLock (s : State) (p lanes : Nat) : State :=
  let s1 := s.setPort p { s.port p with rxLock := lanes }
  if p = 0 then { s1 with clock := { s1.clock with hl0Locked := lanes.testBit 0 } } else s1

/-! ### Control cells sent (R77–R83) -/

/-- A control cell leaves a port. -/
def State.sendControl (s : State) (p type : Nat) (rest : List Byte) : State :=
  let x := s.port p
  (s.setPort p { x with lastTx := s.time.beatNo }).emit (.cell p (controlCell x type rest))

/-- HELLO (R77): boot code or firmware, version bitmap 0x0002, receive lock, width, BLK_VER, identity digest. -/
def State.sendHello (s : State) (p : Nat) : State :=
  let w := s.rd (.hlk p) HLK.WIDTH
  let s1 := s.sendControl p 3 (leBytes 1 (1 + 2 * b2n (!s.power.linkBoot)) ++ leBytes 2 2 ++ leBytes 1 (s.port p).rxLock
    ++ leBytes 1 w ++ leBytes 2 2 ++ s.mgc.store.idDigest)
  s1.setPort p { s1.port p with lastHello := s1.time.beatNo }

/-- CREDIT (R83): increments for VC0–VC3. -/
def State.sendCredit (s : State) (p i0 i1 i2 : Nat) : State :=
  s.sendControl p 2 (leBytes 2 i0 ++ leBytes 2 i1 ++ leBytes 2 i2 ++ leBytes 2 0)

/-- Intake entries occupied or reserved (R94): jobs queued, jobs that wait, unspent credits of both ports. -/
def State.vc2Reserved (s : State) : Nat :=
  s.link.intake.length + (s.link.ports.map fun x => x.jobs.length).sum + s.rd (.hlk 0) HLK.VC2_GRANTED + s.rd (.hlk 1) HLK.VC2_GRANTED

/-- VC2 credits granted to a port that is UP: as many as its limit and the free entries allow (R94). -/
def State.grantVc2Port (s : State) (p : Nat) : State :=
  let g := s.rd (.hlk p) HLK.VC2_GRANTED
  let n := min (s.rd (.hlk p) HLK.VC2_MAXCRED - g) (256 - s.vc2Reserved)
  if s.portUp p && 0 < n then (s.wr (.hlk p) HLK.VC2_GRANTED (g + n)).sendCredit p 0 0 n else s

/-- VC2 credits granted (R94), HL0 first (log 38). -/
def State.grantVc2 (s : State) : State := (s.grantVc2Port 0).grantVc2Port 1

/-! ### Replay and retrain (R79–R82) -/

/-- Every unacknowledged cell from a place on sent again (R79). -/
def State.resendFrom (s : State) (p : Nat) (cells : List TxCell) : State :=
  let x := s.port p
  cells.foldl (fun s c => s.emit (.cell p (c.bytes x))) (s.setPort p { x with lastTx := s.time.beatNo, lastAckProgress := s.time.beatNo })

/-- A port enters RETRAIN (R80): the link layer is kept. -/
def State.enterRetrain (s : State) (p : Nat) : State :=
  if s.rd (.hlk p) HLK.LINK_STATE = 4 then
    let s1 := (s.wr (.hlk p) HLK.LINK_STATE 5).count (.hlk p) HLK.CNT_RETRAIN
    s1.setPort p { s1.port p with retrainSince := s1.time.beatNo, replayRun := 0 }
  else s

/-- A replay that begins at an LSEQ (R79); the fourth in a row from one LSEQ retrains the port (R80). -/
def State.replayFrom (s : State) (p lseq : Nat) : State :=
  let x := s.port p
  let cells := x.replay.dropWhile fun c => c.lseq ≠ lseq
  if cells.isEmpty then s
  else
    let run := if x.replayAt = lseq ∧ 0 < x.replayRun then x.replayRun + 1 else 1
    let s1 := (s.setPort p { x with replayAt := lseq, replayRun := run }).count (.hlk p) HLK.CNT_REPLAY
    if 4 ≤ run then s1.enterRetrain p else s1.resendFrom p cells

/-- A received ACK (R78): the data cells up to it need no replay. -/
def State.takeAck (s : State) (p ack : Nat) : State :=
  let x := s.port p
  if x.replay.any (·.lseq = ack) then
    s.setPort p { x with
      replay := (x.replay.dropWhile fun c => c.lseq ≠ ack).drop 1
      lastAckProgress := s.time.beatNo, replayRun := 0 }
  else s

/-- A received NAK (R79): what came before the expected LSEQ has arrived. -/
def State.takeNak (s : State) (p lseq : Nat) : State :=
  if s.portUp p then (s.takeAck p ((lseq + 4095) % 4096)).replayFrom p lseq else s

/-- Received credits (R83): what waited for them leaves. -/
def State.takeCredit (s : State) (p i0 i1 i3 : Nat) : State :=
  if s.portUp p then
    let x := s.port p
    let c := x.txCredits
    (s.setPort p { x with txCredits := [nth c 0 + i0, nth c 1 + i1, nth c 2, nth c 3 + i3] }).pump p
  else s

/-! ### Coming up (R77) -/

/-- Job completions held while both ports were down go to the port that comes up (R96). -/
def State.deliverHeld (s : State) (p : Nat) : State :=
  let l := s.link.heldJobs
  l.foldl (fun s j => s.queueEvent p 0x53 (leBytes 8 j.cookie ++ leBytes 2 j.status ++ zeros 2 ++ leBytes 2 j.fault ++ zeros 2))
    { s with link := { s.link with heldJobs := [] } }

/-- A port comes UP (R76, R83): it grants its receive buffers. -/
def State.comeUp (s : State) (p : Nat) : State :=
  let b := s.time.beatNo
  let s1 := (s.wr (.hlk p) HLK.LINK_STATE 4).wr (.hlk p) HLK.VERSION 1
  let s2 := s1.setPort p { s1.port p with lastRx := b, lastAckProgress := b, rxGranted := [64, 2048] }
  ((s2.sendCredit p 64 2048 0).grantVc2).deliverHeld p

/-- A received HELLO (R75, R77): the width from both sides' locks; a common version brings the port UP. -/
def State.takeHello (s : State) (p versions lockMask : Nat) : State :=
  let st := s.rd (.hlk p) HLK.LINK_STATE
  if st = 3 then
    let x := s.port p
    match s.chooseWidth p (x.rxLock &&& lockMask) with
    | none => s.linkState p 2
    | some w =>
      let s1 := s.wr (.hlk p) HLK.WIDTH w
      if versions.testBit 1 then s1.comeUp p
      else if x.versionNoneSent then s1
      else (s1.setPort p { x with versionNoneSent := true }).fault (.hlk p) 0x2030
  else s

/-- NEGOTIATE is entered (R76, R77): a first HELLO. -/
def State.negotiate (s : State) (p w : Nat) : State :=
  let s1 := (s.linkState p 3).wr (.hlk p) HLK.WIDTH w
  (s1.setPort p { s1.port p with versionNoneSent := false }).sendHello p

/-- HL_BLOCK_LOCK (R75, R76): block lock on a lane pair; the width is chosen when the partner has lock too. -/
def execHlBlockLock (port : Fin 2) (rxLanes partnerLanes : BitVec 4) (s : State) : Result :=
  let p := port.val
  let rx := rxLanes.toNat
  let st := s.rd (.hlk p) HLK.LINK_STATE
  .next (if !s.hlkOn p ∨ (st ≠ 1 ∧ st ≠ 2) ∨ !(rx &&& 3 = 3 ∨ rx &&& 12 = 12) then s
    else
      let s1 := s.setRxLock p rx
      match s1.chooseWidth p (rx &&& partnerLanes.toNat) with
      | none => s1.linkState p 2
      | some w => s1.negotiate p w)

/-- HELLO (R77): the partner's HELLO cell. -/
def execHello (port : Fin 2) (versions : BitVec 16) (lockMask : BitVec 4) (_width : BitVec 2) (s : State) : Result :=
  .next (s.takeHello port.val versions.toNat lockMask.toNat)

/-- HELLO_RESEND (R77): every 10 beats in NEGOTIATE, every 500 when no version is common. -/
def execHelloResend (port : Fin 2) (s : State) : Result :=
  let p := port.val
  let x := s.port p
  let every := if x.versionNoneSent then 500 else 10
  .next (if s.rd (.hlk p) HLK.LINK_STATE = 3 ∧ x.lastHello + every ≤ s.time.beatNo then s.sendHello p else s)

/-- NAK (R79). -/
def execNak (port : Fin 2) (lseq : BitVec 12) (s : State) : Result := .next (s.takeNak port.val lseq.toNat)

/-- REPLAY_TMO (R79): no progress of the ACK while cells are unacknowledged. -/
def execReplayTmo (port : Fin 2) (s : State) : Result :=
  let p := port.val
  let x := s.port p
  .next (match x.replay with
    | [] => s
    | c :: _ =>
      if s.portUp p ∧ x.lastAckProgress + s.rd (.hlk p) HLK.REPLAY_TMO ≤ s.time.beatNo then s.replayFrom p c.lseq else s)

/-- CREDIT (R83, R84); the device sends nothing on VC2. -/
def execCredit (port : Fin 2) (inc0 inc1 _inc2 inc3 : BitVec 16) (s : State) : Result :=
  .next (s.takeCredit port.val inc0.toNat inc1.toNat inc3.toNat)

/-- IDLE (R79, R82): an IDLE cell carries the present ACK. -/
def execIdle (port : Fin 2) (s : State) : Result := .next (if s.portUp port.val then s.sendControl port.val 0 [] else s)

/-- RETRAIN_DONE (R80): UP again, every unacknowledged cell sent anew; 0x2021 when the width has fallen. -/
def execRetrainDone (port : Fin 2) (rxLanes partnerLanes : BitVec 4) (s : State) : Result :=
  let p := port.val
  .next (if s.rd (.hlk p) HLK.LINK_STATE = 5 ∧ s.time.beatNo ≤ (s.port p).retrainSince + 500 then
    let s1 := s.setRxLock p rxLanes.toNat
    match s1.chooseWidth p (rxLanes.toNat &&& partnerLanes.toNat) with
    | none => s1
    | some w =>
      let fell : Bool := s.rd (.hlk p) HLK.WIDTH = 3 && w ≠ 3
      let s2 := ((s1.wr (.hlk p) HLK.WIDTH w).wr (.hlk p) HLK.LINK_STATE 4).fault (.hlk p) (if fell then 0x2021 else 0x2020)
      let x := s2.port p
      ((s2.setPort p { x with lastRx := s2.time.beatNo }).resendFrom p x.replay).pump p
  else s)

/-- RETRAIN_TIMEOUT (R81). -/
def execRetrainTimeout (port : Fin 2) (s : State) : Result :=
  let p := port.val
  .next (if s.rd (.hlk p) HLK.LINK_STATE = 5 ∧ (s.port p).retrainSince + 500 < s.time.beatNo then s.linkDown p 1 else s)

/-- LANES_DARK_TIMEOUT (R81): all lanes without signal for 5 beats. -/
def execLanesDarkTimeout (port : Fin 2) (s : State) : Result :=
  let p := port.val
  .next (match (s.port p).darkSince with
    | some b => if s.hlkOn p ∧ b + 5 ≤ s.time.beatNo then s.linkDown p 1 else s
    | none => s)

/-- KEEPALIVE (R82). -/
def execKeepalive (port : Fin 2) (s : State) : Result :=
  let p := port.val
  .next (if s.portUp p ∧ (s.port p).lastRx + s.rd (.hlk p) HLK.KEEPALIVE ≤ s.time.beatNo then s.linkDown p 1 else s)

/-- What a write of HLK.RETRAIN does (R80). -/
def retrainAct (s : State) (p : Nat) : State := s.enterRetrain p

/-! ### Loss of signal (R34, R80, R81, R398) -/

/-- A host link lane goes dark: a lane in use retrains the port (R80); lane 0 of HL0 feeds the PLL (R49). -/
def State.laneDark (s : State) (p lane : Nat) : State :=
  if !s.hlkOn p then s
  else
    let los := putBits (s.rd (.hlk p) HLK.LANE_LOS) lane 1 1
    let x := s.port p
    let used : Bool := (widthLanes (s.rd (.hlk p) HLK.WIDTH)).testBit lane
    let s1 := (s.wr (.hlk p) HLK.LANE_LOS los).setRxLock p (putBits x.rxLock lane 1 0)
    let s2 := if los = 15 then s1.setPort p { s1.port p with darkSince := some s1.time.beatNo } else s1
    let s3 := if p = 0 && lane = 0 && s2.rd .clk CLK.ACTIVE_SRC = 2 then s2.loseRef else s2
    let st := s3.rd (.hlk p) HLK.LINK_STATE
    if used && st = 4 then s3.enterRetrain p else if used && st = 3 then s3.linkState p 1 else s3

/-- A safety port's receiver goes dark (R398). -/
def State.slDark (s : State) (p : Nat) : State :=
  if !s.plinthOn then s
  else (s.wr .pln PLN.SL_LOS (putBits (s.rd .pln PLN.SL_LOS) p 1 1)).fault .pln 0x2201 [p]

/-- LOSS_OF_SIGNAL_ASSERT (R34). -/
def execLossOfSignalAssert (rx : Receiver) (s : State) : Result :=
  .next (match rx with
    | .cam n => s.camLoseSignal n.val
    | .hl p lane => s.laneDark p.val lane.val
    | .sl p => s.slDark p.val)

/-- LOSS_OF_SIGNAL_DEASSERT (R34). -/
def execLossOfSignalDeassert (rx : Receiver) (s : State) : Result :=
  .next (match rx with
    | .cam n => s.camGainSignal n.val
    | .hl p lane =>
      if s.hlkOn p.val then
        let s1 := s.wr (.hlk p.val) HLK.LANE_LOS (putBits (s.rd (.hlk p.val) HLK.LANE_LOS) lane.val 1 0)
        s1.setPort p.val { s1.port p.val with darkSince := none }
      else s
    | .sl p => if s.plinthOn then s.wr .pln PLN.SL_LOS (putBits (s.rd .pln PLN.SL_LOS) p.val 1 0) else s)

end Sys2Proof.Machine
end

