-- ==== Sys2Proof/Machine/Registers.lean ====
section
/-! DEFINITION. Register access from the host links (R88, R89, R459, R468): the checks, the plain effect of a write, the
effects a field's Meaning gives, and reads. Every command that writes one register is the same write at its offset. -/

namespace Sys2Proof.Machine

/-! ### What a word write touches -/

/-- The fields of a word that a mask touches. -/
def Page.touches (p : Page) (w mask : Nat) : List (RField × Nat × Nat) :=
  (p.wordFields w).filter fun x => mask &&& x.1.wordMask ≠ 0

/-- The bits that a word write gives a field: value under mask. -/
def RField.given (f : RField) (value mask : Nat) : Nat := bits (value &&& mask) (f.lo + f.width - 1) f.lo

/-- A page whose block is in a software reset (R71, R87: BUSY). -/
def State.pageInReset (s : State) (p : Page) : Bool :=
  s.resets.any fun r => !r.off && match pageAt r.page with
    | some q => p ∈ q.resetPages
    | none => false

/-- A page of a core disabled at manufacture or retired, or of its engines (R459, R287). -/
def State.deadPage (s : State) (p : Page) : Bool := match p.unit? with | some u => s.disabled u || s.retired u | none => false

/-- The page cannot serve words up to page offset `last` (R459): 0 when it can. -/
def State.pageStatus (s : State) (p : Page) (last : Nat) : Nat :=
  if s.deadPage p then 0x08 else if !s.pageOn p && 0x10 ≤ last then 0x08 else 0

/-- Words of retention memory (R65). -/
def inRetention (off : Nat) : Bool := 0xF0000 ≤ off ∧ off ≤ 0xFFFFF

/-! ### Checks of a write -/

/-- R435, R468, R87: role, access code, reserved bits. -/
def State.rightsStatus (s : State) (p : Page) (w value mask role : Nat) : Nat :=
  let hit := p.touches w mask
  let known := (p.wordFields w).foldl (fun m x => m ||| x.1.wordMask) 0
  if hit.any fun x => fieldAccess p x.1 ≠ .ro && !s.roleMay p x.1 role then 0x02
  else if hit.any fun x => fieldAccess p x.1 = .ro || (fieldAccess p x.1 = .rl && !s.rlOpen (fieldRoles p x.1)) then 0x03
  else if (value &&& mask) &&& known ≠ value &&& mask then 0x04 else 0

/-- Fields whose value a write stores for a later command's use, though they read zero. -/
def operandField (p : Page) (f : RField) : Bool :=
  match p with
  | .cpx => f = CPX.TUN_PUSH
  | .ife => f.off = 0x80 || f = IFE.PQ_ADDR_LO || f = IFE.PQ_ADDR_HI
  | .str _ => f = STR.ARM_ADDR_LO || f = STR.ARM_ADDR_HI
  | _ => false

/-- RW fields whose own effect stores their value. -/
def actingField (p : Page) (f : RField) : Bool :=
  f = HDR.SWRST || (match p with
    | .pdc => f = PDC.ON_REQ0 || f = PDC.ON_REQ1
    | .cpx => f = CPX.PORT_EN
    | .pln => f = PLN.INHIBIT
    | _ => false)

/-- The plain effect of a write on one field (R468). -/
def State.plainWrite (s : State) (p : Page) (value mask : Nat) (x : RField × Nat × Nat) : State :=
  let f := x.1
  match fieldAccess p f with
  | .ro | .w1c => s
  | .rws => s.wrShadow p f (f.merge (s.rdShadow p f x.2.1 x.2.2) value mask) x.2.1 x.2.2
  | .rw | .rl => if actingField p f then s else s.wr p f (f.merge (s.rd p f x.2.1 x.2.2) value mask) x.2.1 x.2.2
  | .wo => if operandField p f then s.wr p f (f.merge (s.rd p f x.2.1 x.2.2) value mask) x.2.1 x.2.2 else s

/-- The plain effect of a word write. -/
def State.plainWord (s : State) (p : Page) (w value mask : Nat) : State :=
  (p.touches w mask).foldl (fun s x => s.plainWrite p value mask x) s

/-- The tunnel descriptor that the latched words form (R121). -/
def State.tunnelWords (s : State) : List Byte :=
  (List.range 4).flatMap fun (j : Nat) => leBytes 4 (s.rd .cpx CPX.TUN_PUSH 0 j)

/-- The parameter block address latched (R150). -/
def State.pqAddr (s : State) : Nat := s.rd2 .ife IFE.PQ_ADDR_LO IFE.PQ_ADDR_HI

/-- The rules of header fields: EN (R464), SWRST (R71), GO (R466). `v`: bits given; `new`: the value that results. -/
def State.headerCheck (s : State) (p : Page) (f : RField) (v new role : Nat) : Nat × State :=
  if f = HDR.EN && new = 0 then (if p.enFixed then 0x0B else if s.pageLocked p then 0x07 else 0, s)
  else if f = HDR.SWRST && v = 1 && p ≠ .mgc then swrstCheck s p role
  else if f = HDR.GO && v = 1 then goCheck s p
  else (0, s)

/-- A replay slot with EN set cannot be changed until EN is cleared (R392). `s` before the word, `t` after. -/
def slotHeld (s t : State) (f : RField) (i : Nat) : Bool :=
  f.n1 = 4 && s.rd .dig DIGR.EN i = 1 && t.rd .dig DIGR.EN i = 1 && s.rd .dig f i ≠ t.rd .dig f i

/-- The rules of the fields that act, by page. `s`: before the word, `t`: with the word's plain effect. -/
def State.actCheck (s t : State) (p : Page) (f : RField) (i j v new word role port : Nat) : Nat × State :=
  match p with
  | .pdc => if f = PDC.SLEEP_ENTER && v = 1 then sleepCheck t else (0, t)
  | .cpx =>
    if f = CPX.PORT_EN then (portEnCheck t new, t)
    else if f = CPX.TUN_PUSH && j = 3 then tunPushCheck t t.tunnelWords else (0, t)
  | .ife => if f = IFE.PQ_ADDR_HI then pqPushCheck t (t.rd .ife IFE.PQ_CTX) t.pqAddr else (0, t)
  | .amt =>
    if f = AMT.OP_CMD && v ≠ 0 then opCheck t v role port
    else if f = AMT.INST_CMD && v ≠ 0 then instCheck t v role port
    else if f = AMT.CANCEL_CTX then cancelCheck t v else (0, t)
  | .str u =>
    if f = STR.ARM_COUNT && v ≠ 0 then (if t.rd (.str u) HDR.EN = 0 then (0x0B, t) else armCheck t u i) else (0, t)
  | .bod =>
    if f = BOD.ENT_HI then entHiCheck t new
    else if f = BOD.BULK_GO && v = 1 then (if t.rd .bod HDR.EN = 0 then (0x0B, t) else bulkCheck t) else (0, t)
  | .rsp => if f = RSP.REQ && v = 1 then (rspReqCheck t (word % 32), t) else (0, t)
  | .lcs => if f = LCS.REQ then lcCheck t v role else (0, t)
  | .mgc =>
    if f = MGC.STORE_CMD then (storeCheck t v (bits word 10 8) role, t)
    else if f = MGC.ATT_GO && v = 1 then (attCheck t, t)
    else if f = MGC.AUD_GO && v = 1 then (audCheck t (t.rd .mgc MGC.AUD_CKPT_COPY = 1), t) else (0, t)
  | .dig => (if slotHeld s t f i then 0x0B else 0, t)
  | .dev | .clk | .rstc | .opl | .pmc | .pln | .ccp | .agm | .hlk _ | .mc | .mmu | .mcg _ | .clu _ | .tc _ | .vis _
  | .cmem _ | .spm _ | .sge _ | .ofe _ | .fpe _ | .wpe _ | .pye _ | .eng _ _ => (0, t)

/-- What a SCRAPPED device still takes (R446): copies of its audit log. -/
def scrappedField (p : Page) (f : RField) : Bool := p = .mgc && 0x98 ≤ f.off && f.off ≤ 0xAC && f ≠ MGC.AUD_CKPT

/-- A port's camera words while its domain is off (R460). -/
def State.camWordOff (s : State) (p : Page) (f : RField) (i : Nat) : Bool := p = .cpx && f.n1 = 12 && !s.camOn i

/-- A field's own rules (R87: BUSY, DOMAIN_OFF, LOCKED_USE, REFUSED). -/
def State.fieldCheck (s t : State) (p : Page) (value mask role port : Nat) (x : RField × Nat × Nat) : Nat × State :=
  let f := x.1
  let v := f.given value mask
  let new := f.merge (s.rd p f x.2.1 x.2.2) value mask
  let locked := s.lockedBits p f x.2.1 &&& bits mask (f.lo + f.width - 1) f.lo ≠ 0
  if s.lifeCycle = 6 && !scrappedField p f then (0x0B, t)
  else if s.camWordOff p f x.2.1 then (0x08, t)
  else if f.off < 0x40 then t.headerCheck p f v new role
  else match f.acc with
    | .rws => (if s.committing p then 0x0A else 0, t)
    | .rw | .rl =>
      if locked then (0x07, t) else if new < f.vmin || f.vmax < new then (0x0B, t)
      else s.actCheck t p f x.2.1 x.2.2 v new (value &&& mask) role port
    | .wo => if locked then (0x07, t) else s.actCheck t p f x.2.1 x.2.2 v new (value &&& mask) role port
    | .ro | .w1c => (0, t)

/-- The first failing rule among the fields of a word, with what its refusal leaves. -/
def firstRefused (check : RField × Nat × Nat → Nat × State) (t : State) : List (RField × Nat × Nat) → Nat × State
  | [] => (0, t)
  | x :: r => let c := check x; if c.1 = 0 then firstRefused check t r else c

/-- A word write checked on a trial state: the failing status and what it leaves, or the trial with its plain effect. -/
def State.wordCheck (s : State) (p : Page) (w value mask role port : Nat) : Nat × State :=
  let st := s.rightsStatus p w value mask role
  if st = 0x02 then (st, s.fault p 0x4010)
  else if st ≠ 0 then (st, s)
  else
    let t := s.plainWord p w value mask
    firstRefused (s.fieldCheck t p value mask role port) t (p.touches w mask)

/-- Every pair of a REG_WR checked in body order (R89). -/
def State.pairsCheck (s : State) (p : Page) (role port : Nat) : Nat → List (Nat × Nat) → Nat × State
  | _, [] => (0, s)
  | w, (v, m) :: r =>
    let c := s.wordCheck p w v m role port
    if c.1 = 0 then c.2.pairsCheck p role port (w + 4) r else c

/-- The trial's plain effects taken back out of what a refusal leaves: nothing was written (R89). A rejected commit has
dropped the page's shadows (R466). -/
def State.untried (s r : State) (p : Page) : Nat → List (Nat × Nat) → State
  | _, [] => { r with shadow := if r.shadow.any fun e => inPage p e.1 then s.shadow else r.shadow }
  | w, (_, m) :: l =>
    let put (t : State) (x : RField × Nat × Nat) : State :=
      match fieldAccess p x.1 with
      | .rw | .rl | .wo => t.wr p x.1 (s.rd p x.1 x.2.1 x.2.2) x.2.1 x.2.2
      | .ro | .w1c | .rws => t
    s.untried ((p.touches w m).foldl put r) p (w + 4) l

/-- The checks of a whole REG_WR in order: session, size, mapping, power, reset, then every pair (R87, R89, R459). -/
def State.writeCheck (s : State) (rq : Req) (off : Nat) (l : List (Nat × Nat)) : Nat × State :=
  let n := l.length
  if rq.sid = 0 then (0x01, s)
  else if !s.sessionOpen rq.port rq.sid then (0x0C, s)
  else if n = 0 ∨ 16 < n ∨ off % 4 ≠ 0 ∨ off / 4096 ≠ (off + 4 * n - 4) / 4096 then (0x06, s)
  else if inRetention off then (0x03, s)
  else match pageAt (off / 4096) with
    | none => (0x05, s)
    | some p =>
      let st := s.pageStatus p (off % 4096 + 4 * n - 4)
      if st ≠ 0 then (st, s)
      else if s.pageInReset p then (0x0A, s)
      else
        let c := s.pairsCheck p rq.sid rq.port (off % 4096) l
        if c.1 = 0 then (0, s) else (c.1, s.untried c.2 p (off % 4096) l)

/-! ### Effects of a write -/

/-- Every counter of a page to zero (the pages' CNT_CLR). -/
def State.clearCounters (s : State) (p : Page) : State :=
  (p.fields.filter (·.counter)).foldl (fun s f =>
    (List.range f.n1).foldl (fun s i => (List.range f.n2).foldl (fun s j => s.wr p f 0 i j) s) s) s

/-- A mask write (R465): a bit unmasked while its event is set makes an EVT_BLOCK due. -/
def State.unmask (s before : State) (p : Page) : State :=
  let new := s.rd p HDR.BLK_EVT_MASK
  let old := before.rd p HDR.BLK_EVT_MASK
  if (new &&& s.rd p HDR.BLK_EVT_STAT) &&& (2 ^ 32 - 1 - old) ≠ 0 then { s with events := setInsert p.num s.events } else s

/-- The page's CNT_CLR. -/
def Page.cntClr : Page → Option RField
  | .hlk _ => some HLK.CNT_CLR
  | .cpx => some CPX.CNT_CLR
  | .ife => some IFE.CNT_CLR
  | .sge _ => some SGE.CNT_CLR
  | .ofe _ => some OFE.CNT_CLR
  | .fpe _ => some FPE.CNT_CLR
  | .wpe _ => some WPE.CNT_CLR
  | .pye _ => some PYE.CNT_CLR
  | .amt => some AMT.CNT_CLR
  | .clu _ => some CLU.CNT_CLR
  | .tc _ => some TC.CNT_CLR
  | .eng _ _ => some ENG.CNT_CLR
  | .bod => some BOD.CNT_CLR
  | .spm _ => some SPM.CNT_CLR
  | .cmem _ => some CMEM.CNT_CLR
  | .mcg _ => some MCG.CNT_CLR
  | .mmu => some MMU.CNT_CLR
  | .dig => some DIG.CNT_CLR
  | .pln => some PLN.CNT_CLR
  | .ccp => some CCP.CNT_CLR
  | .agm => some AGM.CNT_CLR
  | .rsp => some RSP.CNT_CLR
  | .dev | .clk | .pdc | .rstc | .lcs | .opl | .pmc | .mc | .mgc | .vis _ | .str _ => none

/-- The effects of header fields. -/
def State.headerAct (s before : State) (p : Page) (f : RField) (v role : Nat) : State :=
  if f = HDR.BLK_EVT_STAT then s.wr p f (s.rd p f &&& (2 ^ 32 - 1 - v))
  else if f = HDR.BLK_EVT_MASK then s.unmask before p
  else if f = HDR.SWRST && v = 1 && p ≠ .mgc then swrstAct s p role
  else if f = HDR.GO && v = 1 then goAct s p
  else s

/-- The effects a field's Meaning gives beyond its value, by page. `word`: the word's bits under its mask. -/
def State.pageAct (s : State) (p : Page) (f : RField) (i j v new word role port : Nat) (refPresent : Bool) : State :=
  if p.cntClr = some f then (if v = 1 then s.clearCounters p else s)
  else match p with
  | .pdc =>
    if f = PDC.ON_REQ0 then onReqAct s false new
    else if f = PDC.ON_REQ1 then onReqAct s true new
    else if f = PDC.SLEEP_ENTER && v = 1 then sleepAct s else s
  | .clk => if f = CLK.REVERT && v = 1 then clkRevertAct s refPresent else s
  | .hlk q => if f = HLK.RETRAIN && v = 1 then retrainAct s q else if f = HLK.VC2_MAXCRED then s.grantVc2 else s
  | .cpx =>
    if f = CPX.PORT_EN then portEnAct s new
    else if f = CPX.TUN_PUSH && j = 3 then s.pushTunnel s.tunnelWords else s
  | .ife =>
    if f = IFE.PQ_ADDR_HI then
      s.queueParams (s.rd .ife IFE.PQ_CTX) (s.rd .ife IFE.PQ_CLASS) (s.rd .ife IFE.PQ_FRAME) s.pqAddr
        (s.rd .ife IFE.PQ_LINKED = 1)
    else s
  | .amt =>
    if f = AMT.OP_CMD && v ≠ 0 then opAct s v role port
    else if f = AMT.INST_CMD && v ≠ 0 then loadAddrAct s role port
    else if f = AMT.CANCEL_CTX then cancelAct s v else s
  | .str u => if f = STR.ARM_COUNT && v ≠ 0 then armAct s u i v else s
  | .bod =>
    if f = BOD.ENT_HI then entHiAct s new else if f = BOD.BULK_GO && v = 1 then bulkAct s else s
  | .mmu => if f = MMU.RESUME_CTX then resumeAct s v else if f = MMU.INV_CTX then invAct s v else s
  | .pmc => if f = PMC.PM_RELEASE && v = 1 then pmReleaseAct s else s
  | .pln =>
    if f = PLN.CLEAR && v = 1 then plnClearAct s role port else if f = PLN.INHIBIT then plnInhibitAct s role port new else s
  | .rsp => if f = RSP.REQ && v = 1 then rspReqAct s (word % 32) else s
  | .lcs => if f = LCS.REQ then lcAct s v role port else s
  | .mgc =>
    if f = MGC.STORE_CMD then storeAct s v (bits word 10 8) role port
    else if f = MGC.ATT_GO && v = 1 then attAct s role port
    else if f = MGC.AUD_GO && v = 1 then audAct s
    else if f = MGC.AUD_CKPT && v = 1 then s.checkpoint else s
  | .dev | .rstc | .opl | .ccp | .agm | .mc | .mcg _ | .dig | .clu _ | .tc _ | .vis _ | .cmem _ | .spm _ | .sge _
  | .ofe _ | .fpe _ | .wpe _ | .pye _ | .eng _ _ => s

/-- One word written: its plain effect, then the effects of its fields in order. -/
def State.wordAct (s : State) (p : Page) (w value mask role port : Nat) (refPresent : Bool) : State :=
  (p.touches w mask).foldl (fun t x =>
    let f := x.1
    let v := f.given value mask
    if f.off < 0x40 then t.headerAct s p f v role
    else t.pageAct p f x.2.1 x.2.2 v (f.merge (t.rd p f x.2.1 x.2.2) value mask) (value &&& mask) role port refPresent)
    (s.plainWord p w value mask)

/-- Every pair written in body order (R89). -/
def State.pairsAct (s : State) (p : Page) (role port : Nat) (refPresent : Bool) : Nat → List (Nat × Nat) → State
  | _, [] => s
  | w, (v, m) :: r => (s.wordAct p w v m role port refPresent).pairsAct p role port refPresent (w + 4) r

/-- Some pair's mask covers a bit of a field: the write is entered in the audit log (R449). -/
def Page.writesBit (p : Page) : Nat → List (Nat × Nat) → Bool
  | _, [] => false
  | w, (_, m) :: r => p.touches w m ≠ [] || p.writesBit (w + 4) r

/-- The audit data of a register write (R451). -/
def regAuditData (off : Nat) (l : List (Nat × Nat)) : List Byte :=
  leBytes 4 off ++ leBytes 1 l.length ++ zeros 3
    ++ (sha256 (l.flatMap fun (x : Nat × Nat) => leBytes 4 x.1 ++ leBytes 4 x.2)).take 28

/-- REG_WR (R89). `refPresent`: what CLK.REVERT finds of the strapped reference (R49). -/
def State.regWrite (s : State) (rq : Req) (off : Nat) (l : List (Nat × Nat)) (refPresent : Bool) : State :=
  if !s.portUp rq.port then s
  else
    let c := s.writeCheck rq off l
    if c.1 ≠ 0 then c.2.complete rq 0x82 c.1
    else match pageAt (off / 4096) with
      | none => s
      | some p =>
        let t := s.pairsAct p rq.sid rq.port refPresent (off % 4096) l
        if p.writesBit (off % 4096) l then t.completeAudited rq 0x82 0 0x20 (regAuditData off l) else t.complete rq 0x82 0

/-- A REG_WR of one register of a page. -/
def State.regWrite1 (s : State) (rq : Req) (p : Page) (w : Nat) (value mask : Word) (refPresent : Bool := false) : State :=
  s.regWrite rq (p.num * 4096 + w) [(value.toNat, mask.toNat)] refPresent

/-! ### Reads -/

/-- What a read of one field's copy answers, and what the read leaves: BEAT_LO latches BEAT_HI (R472), ENT_LO latches
ENT_HI (R327); cache counters are free values (log 3). -/
def State.readField (s : State) (p : Page) (x : RField × Nat × Nat) : Nat × State :=
  let f := x.1
  match f.acc with
  | .wo => (0, s)
  | .rws =>
    (if s.rd p HDR.SHADOW_VIEW = 1 && s.pageOn p then s.rdShadow p f x.2.1 x.2.2 else s.view p f x.2.1 x.2.2, s)
  | .ro | .rw | .w1c | .rl =>
    match p with
    | .dev => (s.view p f x.2.1 x.2.2, if f = DEV.BEAT_LO then s.wr .dev DEV.BEAT_HI (s.time.beatNo / 2 ^ 32) else s)
    | .bod => if f = BOD.ENT_LO then s.entLoRead else (s.view p f x.2.1 x.2.2, s)
    | .cmem _ =>
      if f = CMEM.CNT_CACHE_HIT || f = CMEM.CNT_CACHE_MISS || f = CMEM.CNT_CACHE_REFETCH then
        let d := s.draw
        (d.1 % 2 ^ 32, d.2)
      else (s.view p f x.2.1 x.2.2, s)
    | _ => (s.view p f x.2.1 x.2.2, s)

/-- A word read: reserved bits and undefined offsets read zero. -/
def State.readWord (s : State) (p : Page) (w : Nat) : Nat × State :=
  (p.wordFields w).foldl (fun (r : Nat × State) x =>
    let y := r.2.readField p x
    (r.1 ||| (y.1 % 2 ^ x.1.width) * 2 ^ x.1.lo, y.2)) (0, s)

/-- Consecutive words read. -/
def State.readWords (s : State) (p : Page) (w : Nat) : Nat → List Byte × State
  | 0 => ([], s)
  | n + 1 =>
    let a := s.readWord p w
    let b := a.2.readWords p (w + 4) n
    (leBytes 4 a.1 ++ b.1, b.2)

/-- Four bytes of retention memory (R65). -/
def Retention.word (r : Retention) (o : Nat) : List Byte :=
  if o < 0x200 then
    (match r.blkLog.find? (·.1 = o / 16) with | some e => slice e.2.bytes (o % 16) 4 | none => zeros 4)
  else if o < 0x1200 then
    (match r.faults.find? (·.1 = (o - 0x200) / 32) with | some e => slice e.2.bytes (o % 32) 4 | none => zeros 4)
  else if o < 0x4000 then zeros 4
  else padTo 4 (slice r.pm (o - 0x4000) 4)

/-- A read of retention memory: any session; the post-mortem area for I and M (R65). -/
def State.readRetention (s : State) (rq : Req) (off n : Nat) : State :=
  let o := off - 0xF0000
  if rq.sid = 0 then s.complete rq 0x81 0x01
  else if rq.sid = 1 ∧ 0x4000 ≤ o + 4 * n - 4 then s.complete rq 0x81 0x02
  else s.complete rq 0x81 0 0 ((List.range n).flatMap fun (i : Nat) => s.retention.word (o + 4 * i))

/-- A page whose every word is read without a session (R88). -/
def Page.isOpen : Page → Bool
  | .dev | .hlk _ => true
  | _ => false

/-- REG_RD (R88). -/
def State.regRead (s : State) (rq : Req) (off n : Nat) : State :=
  if !s.portUp rq.port then s
  else if rq.sid ≠ 0 && !s.sessionOpen rq.port rq.sid then s.complete rq 0x81 0x0C
  else if n = 0 ∨ 16 < n ∨ off % 4 ≠ 0 ∨ off / 4096 ≠ (off + 4 * n - 4) / 4096 then s.complete rq 0x81 0x06
  else if inRetention off then s.readRetention rq off n
  else match pageAt (off / 4096) with
    | none => s.complete rq 0x81 0x05
    | some p =>
      let last := off % 4096 + 4 * n - 4
      let st := s.pageStatus p last
      if rq.sid = 0 && !p.isOpen && 0x40 ≤ last then s.complete rq 0x81 0x01
      else if st ≠ 0 then s.complete rq 0x81 st
      else
        let r := s.readWords p (off % 4096) n
        r.2.complete rq 0x81 0 0 r.1

end Sys2Proof.Machine
end

