-- ==== Sys2Proof/Machine/Messages.lean ====
section
/-! DEFINITION. The host's messages other than register access (R85–R102): bulk memory, completions of device requests, jobs,
sessions, record copies, link boot. A message reaches a port only while it is UP. -/

namespace Sys2Proof.Machine

/-- A message's sender has the session it names: 0, or NO_SESSION, or MALFORMED (R85, R87). -/
def State.sidStatus (s : State) (rq : Req) : Nat :=
  if rq.sid = 0 then 0x01 else if s.sessionOpen rq.port rq.sid then 0 else 0x0C

/-- What a request does when its port is UP. -/
def State.whenUp (s : State) (p : Nat) (t : State) : State := if s.portUp p then t else s

/-! ### Bulk memory (R90, R91) -/

/-- Pages and segments under a wipe answer BUSY (R345, R376). -/
def State.memBusy (s : State) (a n : Nat) : Bool :=
  s.fabric.wiping.any (fun g => g.addr < a + n ∧ a < g.addr + 65536)
    || s.fabric.outPages.any fun g => g.page * 65536 < a + n ∧ a < (g.page + 1) * 65536

/-- MEM_RD (R90, R91). -/
def State.memRead (s : State) (rq : Req) (a n : Nat) : State :=
  let st := s.sidStatus rq
  let ms := s.memStatus a n
  if st ≠ 0 then s.complete rq 0xB0 st
  else if ms ≠ 0 then s.complete rq 0xB0 ms
  else if s.memBusy a n then s.complete rq 0xB0 0x0A
  else
    let bad := s.poisonMap a n
    s.complete rq 0xB0 (if bad = 0 then 0 else 0x09) bad (s.load a n)

/-- What a MEM_WR answers (R90, R436, R446). -/
def State.memWriteStatus (s : State) (rq : Req) (a n : Nat) : Nat :=
  let st := s.sidStatus rq
  let ms := s.memStatus a n
  if st ≠ 0 then st
  else if rq.sid = 3 && s.lifeCycle ≠ 1 && s.lifeCycle ≠ 5 && s.lifeCycle ≠ 6 then 0x02
  else if s.lifeCycle = 6 then 0x0B
  else if ms ≠ 0 then ms
  else if s.memBusy a n then 0x0A else 0

/-- MEM_WR (R90): never partly applied. -/
def State.memWrite (s : State) (rq : Req) (a : Nat) (data : List Byte) : State :=
  let st := s.memWriteStatus rq a data.length
  if st ≠ 0 then s.complete rq 0xB1 st else (s.store a data).complete rq 0xB1 0

/-- MEM_RD. -/
def execMemRd (rq : Req) (addr : BitVec 64) (len : BitVec 16) (s : State) : Result :=
  .next (s.whenUp rq.port (s.memRead rq addr.toNat len.toNat))

/-- MEM_WR. -/
def execMemWr (rq : Req) (addr : BitVec 64) (data : List Byte) (s : State) : Result :=
  .next (s.whenUp rq.port (s.memWrite rq addr.toNat data))

/-! ### Requests to host windows (R92) -/

/-- A host request ends without its data: the task aborts with HOST_TIMEOUT (R92). -/
def State.hostFailed (s : State) (p : Nat) (r : HostReq) : State :=
  (s.faultRec (.hlk p) 0x2040 (faultMid r.ctx r.unit 0xFFFF) [] false).abortTask r.ctx 0x2040 (some r.unit)

/-- A completion of a device request (R92): read data goes to its place; a completion that brings none ends the task
(log 11). -/
def State.hostCompletion (s : State) (p tag status : Nat) (data : List Byte) : State :=
  match (s.port p).hostReqs.find? (·.tag = tag) with
  | none => s
  | some r =>
    let x := s.port p
    let s1 := s.setPort p { x with hostReqs := x.hostReqs.filter (·.tag ≠ tag) }
    if status ≠ 0 ∨ (!r.write ∧ data.length ≠ r.len) then s1.hostFailed p r
    else if r.write then s1 else (s1.markWrite r.ctx r.dest).store r.dest data

/-- HOST_COMPLETION. -/
def execHostCompletion (port : Fin 2) (tag status : BitVec 16) (data : List Byte) (s : State) : Result :=
  .next (s.whenUp port.val (s.hostCompletion port.val tag.toNat status.toNat data))

/-- HOST_TIMEOUT: no completion within HOST_TMO beats. -/
def execHostTimeout (port : Fin 2) (tag : BitVec 16) (s : State) : Result :=
  let p := port.val
  .next (match (s.port p).hostReqs.find? (·.tag = tag.toNat) with
    | none => s
    | some r => if r.beat + s.rd (.hlk p) HLK.HOST_TMO ≤ s.time.beatNo then s.hostFailed p r else s)

/-! ### Jobs (R86, R93, R94) -/

/-- The rules of a job message (R93). -/
def State.jobValid (s : State) (rq : Req) (param : Nat) (b : List Byte) : Bool :=
  let a := field b 0 8
  (rq.sid = 1 || rq.sid = 2) && s.sessionOpen rq.port rq.sid && param = 0 && b.length = 40 && a < 2 ^ 48 && a % 64 = 0
    && (match s.place a with | .gddr _ => true | _ => false)
    && field b 8 1 < 4 && field b 9 1 < 4 && slice b 10 6 = zeros 6 && slice b 32 8 = zeros 8

/-- The audit entries that completions of a port wait for. -/
def HlPort.tickets (x : HlPort) : List Nat := (x.outQ0 ++ x.outQ1).filterMap (·.ticket)

/-- A job message (R93): it spends a VC2 credit; refused, its credit returns at once. -/
def State.jobSubmit (s : State) (rq : Req) (param : Nat) (b : List Byte) : State :=
  let p : Nat := rq.port
  let g := s.rd (.hlk p) HLK.VC2_GRANTED
  if g = 0 then s
  else
    let s1 := s.wr (.hlk p) HLK.VC2_GRANTED (g - 1)
    if s.jobValid rq param b then
      let x := s1.port p
      let j : JobMsg := { port := p, sid := rq.sid, param := param, body := b, waits := x.tickets }
      s1.setPort p { x with jobs := x.jobs ++ [j] }
    else (s1.jobDone p (field b 24 8) 0x000B 0).grantVc2

/-- JOB_SUBMIT. -/
def execJobSubmit (rq : Req) (param : BitVec 16) (body : List Byte) (s : State) : Result :=
  .next (s.whenUp rq.port (s.jobSubmit rq param.toNat body))

/-- A job as the intake queue holds it. -/
def JobMsg.job (j : JobMsg) : Job :=
  { port := j.port, sid := j.sid, descAddr := field j.body 0 8, priority := field j.body 8 1
    ordered := (field j.body 9 1).testBit 0, notify := (field j.body 9 1).testBit 1
    seed := field j.body 16 8, cookie := field j.body 24 8, passed := 0 }

/-- JOB_INTAKE_ADMIT (R86): the port's oldest job, once every write before it has completed. -/
def execJobIntakeAdmit (port : Fin 2) (s : State) : Result :=
  let x := s.port port.val
  .next (match x.jobs with
    | j :: r =>
      if j.waits = [] && s.pageOn .amt then
        let s1 := s.setPort port.val { x with jobs := r }
        { s1 with link := { s1.link with intake := s1.link.intake ++ [j.job] } }
      else s
    | [] => s)

/-! ### Sessions (R99–R101) -/

/-- A challenge holds 5 000 000 beats (R99), and so does a lockout (R101). -/
def sessionBeats : Nat := 5000000

/-- The key slot of a role (R437). -/
def roleSlot (role : Nat) : Nat := if role = 3 then 3 else if role = 2 then 4 else 5

/-- A port takes no SESSION_OPEN for a role now (R99–R101). -/
def State.openBusy (s : State) (p role : Nat) : Bool :=
  let x := s.port p
  s.rd (.hlk p) HLK.LOCKOUT = 1 || s.sessionOpen p role || x.challenge.isSome || x.response.isSome

/-- SESSION_OPEN (R99): a fresh nonce; no role 0, no session in boot code; in SCRAPPED the maker only. -/
def State.openSession (s : State) (rq : Req) (role : Nat) : State :=
  let p : Nat := rq.port
  if rq.sid ≠ 0 then s.complete rq 0x90 0x0C
  else if s.openBusy p role then s.complete rq 0x90 0x0A
  else if role = 0 || s.power.linkBoot || (s.lifeCycle = 6 && role ≠ 3) then
    let t := s.mgc.nextTicket
    let s1 : State := { s with mgc := { s.mgc with nextTicket := t + 1 } }
    (s1.audit 0x12 role p 0x0B (leBytes 1 role) (some t)).complete rq 0x90 0x0B 0 [] (some t)
  else
    let d := s.drawBytes 32
    let x := d.2.port p
    (d.2.setPort p { x with challenge := some ⟨d.1, s.time.beatNo, role⟩ }).complete rq 0x90 0 0 d.1

/-- SESSION_OPEN. -/
def execSessionOpen (rq : Req) (role : Fin 4) (s : State) : Result :=
  .next (s.whenUp rq.port (s.openSession rq role))

/-- SESSION_RESPONSE (R99): it uses the challenge up; the device decides later. -/
def State.takeResponse (s : State) (rq : Req) (signatures : List Byte) : State :=
  let p : Nat := rq.port
  let x := s.port p
  if rq.sid ≠ 0 then s.complete rq 0x91 0x0C
  else if x.response.isSome then s.complete rq 0x91 0x0A
  else
    let valid : Option Challenge := match x.challenge with
      | some c => if s.time.beatNo < c.beat + sessionBeats then some c else none
      | none => none
    s.setPort p { x with challenge := none, response := some ⟨valid, rq.tag.toNat, signatures⟩ }

/-- SESSION_RESPONSE. -/
def execSessionResponse (rq : Req) (signatures : List Byte) (s : State) : Result :=
  .next (s.whenUp rq.port (s.takeResponse rq signatures))

/-- A response verifies (R99): nonce, identity digest, role and port, under both signatures of the role's key. -/
def State.responseOk (s : State) (p : Nat) (r : Response) : Option Nat :=
  match r.challenge with
  | none => none
  | some c =>
    let st := s.mgc.store
    let msg := c.nonce ++ st.idDigest ++ leBytes 1 c.role ++ leBytes 1 p
    match st.key (roleSlot c.role) with
    | none => none
    | some k =>
      if r.signatures.length = 8240 && k.verifies 1 msg (r.signatures.take 384) (r.signatures.drop 384) then some c.role
      else none

/-- A session opens (R99): its bit, its audit entry, EVT_SESSION, its result once the entry stands. -/
def State.sessionOpened (s : State) (rq : Req) (role : Nat) : State :=
  let p : Nat := rq.port
  let t := s.mgc.nextTicket
  let s1 : State := { s with mgc := { s.mgc with nextTicket := t + 1 } }
  let s2 := (s1.wr (.hlk p) HLK.SESS_OPEN (putBits (s1.rd (.hlk p) HLK.SESS_OPEN) (role - 1) 1 1)).wr (.hlk p) HLK.AUTH_FAILS 0
  ((s2.audit 0x10 role p 0 (leBytes 1 role) (some t)).sessionEvent p role 1).complete rq 0x91 0 0 [] (some t)

/-- A response fails (R101): counted; the third in a row locks the port out. -/
def State.sessionFailed (s : State) (rq : Req) (role : Nat) : State :=
  let p : Nat := rq.port
  let t := s.mgc.nextTicket
  let s1 : State := { s with mgc := { s.mgc with nextTicket := t + 1 } }
  let n := min 3 (s.rd (.hlk p) HLK.AUTH_FAILS + 1)
  let s2 := ((s1.wr (.hlk p) HLK.AUTH_FAILS n).fault (.hlk p) 0x8020).audit 0x12 role p 0x0D (leBytes 1 role) (some t)
  let s3 := if n < 3 then s2
    else
      let s4 := (s2.wr (.hlk p) HLK.LOCKOUT 1).fault (.hlk p) 0x8021
      (s4.setPort p { s4.port p with lockoutEnd := some (s.time.beatNo + sessionBeats) }).audit 0x13 role p 0x0D (leBytes 1 role)
  s3.complete rq 0x91 0x0D 0 [] (some t)

/-- SESSION_RESULT (R99, R101): the device has decided. -/
def execSessionResult (port : Fin 2) (s : State) : Result :=
  let x := s.port port.val
  .next (match x.response with
    | none => s
    | some r =>
      let s1 := s.setPort port.val { x with response := none }
      let rq : Req := ⟨port, 0, BitVec.ofNat 16 r.tag⟩
      match s.responseOk port.val r with
      | some role => s1.sessionOpened rq role
      | none => s1.sessionFailed rq (match r.challenge with | some c => c.role | none => 0))

/-- LOCKOUT_END (R101): the port answers SESSION_OPEN again, its failures counted anew. -/
def execLockoutEnd (port : Fin 2) (s : State) : Result :=
  let p := port.val
  let x := s.port p
  .next (match x.lockoutEnd with
    | some e =>
      if e ≤ s.time.beatNo then
        ((s.setPort p { x with lockoutEnd := none }).wr (.hlk p) HLK.LOCKOUT 0).wr (.hlk p) HLK.AUTH_FAILS 0
      else s
    | none => s)

/-- NONCE_EXPIRE (R99). -/
def execNonceExpire (port : Fin 2) (s : State) : Result :=
  let x := s.port port.val
  .next (match x.challenge with
    | some c => if c.beat + sessionBeats ≤ s.time.beatNo then s.setPort port.val { x with challenge := none } else s
    | none => s)

/-- SESSION_CLOSE (R100): its completion waits for its audit entry (R450). -/
def State.closeSession (s : State) (rq : Req) : State :=
  let st := s.sidStatus rq
  if st ≠ 0 then s.complete rq 0x92 st
  else
    let t := s.mgc.nextTicket
    let s1 : State := { s with mgc := { s.mgc with nextTicket := t + 1 } }
    (s1.endSession rq.port rq.sid rq.sid (some t)).complete rq 0x92 0 0 [] (some t)

/-- SESSION_CLOSE. -/
def execSessionClose (rq : Req) (s : State) : Result := .next (s.whenUp rq.port (s.closeSession rq))

/-! ### Record copies and lost events (R97, R98) -/

/-- REC_COPY (R98): 1 subscribes the port, 0 ends its subscription. -/
def State.subscribe (s : State) (rq : Req) (param : Nat) : State :=
  let p : Nat := rq.port
  let st := s.sidStatus rq
  if st ≠ 0 then s.complete rq 0x93 st
  else if rq.sid = 3 then s.complete rq 0x93 0x02
  else if 2 ≤ param then s.complete rq 0x93 0x0B
  else
    let x := s.port p
    let s1 := s.setPort p { x with recSubs := if param = 1 then setInsert rq.sid.val x.recSubs else [] }
    (s1.wr (.hlk p) HLK.REC_SUB param).complete rq 0x93 0

/-- REC_COPY. -/
def execRecCopy (rq : Req) (param : BitVec 16) (s : State) : Result :=
  .next (s.whenUp rq.port (s.subscribe rq param.toNat))

/-- EVT_LOSS (R97): space has returned since events were lost. -/
def execEvtLoss (port : Fin 2) (s : State) : Result :=
  let p := port.val
  let x := s.port p
  .next (if x.lossPending && x.eventQ.length < 256 then
    (s.setPort p { x with lossPending := false }).queueEvent p 0x54
      (leBytes 4 (s.rd (.hlk p) HLK.CNT_EVT_LOST) ++ leBytes 4 (s.rd (.hlk p) HLK.CNT_REC_DROP))
  else s)

/-! ### Boot over the link (R102) -/

/-- A message names a session that is not open: malformed (R85). -/
def State.foreignSid (s : State) (rq : Req) : Bool := rq.sid ≠ 0 && !s.sessionOpen rq.port rq.sid

/-- BOOT_BEGIN: the header's signatures and version; PD35 is requested for the staging area. -/
def State.beginBoot (s : State) (rq : Req) (h : List Byte) : State :=
  let p : Nat := rq.port
  let other : Bool := match s.link.boot with | some b => b.port ≠ p | none => false
  if s.foreignSid rq then s.complete rq 0xA0 0x0C
  else if !s.power.linkBoot then s.complete rq 0xA0 0x0B
  else if other then s.complete rq 0xA0 0x0A
  else if h.length ≠ fwHeaderLen || !s.mgc.store.fwSigned h then (s.fault .mgc 0x8010).complete rq 0xA0 0x0D
  else if fwVersionOf h < s.mgc.store.keyBlock.fwFloor then (s.fault .mgc 0x8011).complete rq 0xA0 0x0D
  else
    let b : BootSession := { port := p, tag := rq.tag.toNat, header := h, ready := false, chunks := [] }
    (({ s with link := { s.link with boot := some b } } : State).wr (.hlk p) HLK.BOOT_PORT 1).requestOn 35

/-- BOOT_BEGIN. -/
def execBootBegin (rq : Req) (header : List Byte) (s : State) : Result :=
  .next (s.whenUp rq.port (s.beginBoot rq header))

/-- A boot's sender. -/
def BootSession.req (b : BootSession) : Req := ⟨Fin.ofNat 2 b.port, 0, BitVec.ofNat 16 b.tag⟩

/-- BOOT_BEGIN_READY: PD35 is ready. -/
def execBootBeginReady (s : State) : Result :=
  .next (match s.link.boot with
    | some b =>
      if !b.ready && s.domainReady 35 then
        ({ s with link := { s.link with boot := some { b with ready := true } } } : State).complete b.req 0xA0 0
      else s
    | none => s)

/-- BOOT_CHUNK: 4096 bytes of the body, staged in GDDR6 group A at the body offset (log 39). -/
def State.bootChunk (s : State) (rq : Req) (off : Nat) (data : List Byte) : State :=
  match s.link.boot with
  | none => s.complete rq 0xA1 (if s.foreignSid rq then 0x0C else 0x0B)
  | some b =>
    if s.foreignSid rq then s.complete rq 0xA1 0x0C
    else if !s.power.linkBoot || b.port ≠ rq.port || !b.ready then s.complete rq 0xA1 0x0B
    else if data.length ≠ 4096 || off % 4096 ≠ 0 || fwLenOf b.header ≤ off then s.complete rq 0xA1 0x06
    else
      let s1 : State := { s with link := { s.link with boot := some { b with chunks := setInsert off b.chunks } } }
      (s1.store off data).complete rq 0xA1 0

/-- BOOT_CHUNK. -/
def execBootChunk (rq : Req) (offset : BitVec 64) (data : List Byte) (s : State) : Result :=
  .next (s.whenUp rq.port (s.bootChunk rq offset.toNat data))

/-- The staged body is whole and matches its header's digest. -/
def State.bootBodyOk (s : State) (b : BootSession) : Bool :=
  let n := fwLenOf b.header
  b.chunks.length = n / 4096 && sha256 (s.load 0 n) = slice b.header 16 32

/-- BOOT_END: a match starts the firmware and sends the port back to NEGOTIATE; a mismatch waits for a new BOOT_BEGIN. -/
def State.endBoot (s : State) (rq : Req) : State :=
  let p : Nat := rq.port
  match s.link.boot with
  | none => s.complete rq 0xA2 (if s.foreignSid rq then 0x0C else 0x0B)
  | some b =>
    if s.foreignSid rq then s.complete rq 0xA2 0x0C
    else if !s.power.linkBoot || b.port ≠ p || !b.ready then s.complete rq 0xA2 0x0B
    else
      let s1 := ({ s with link := { s.link with boot := none } } : State).wr (.hlk p) HLK.BOOT_PORT 0
      if s.bootBodyOk b then
        let s2 := (s1.complete rq 0xA2 0).runFirmware b.header
        let s3 : State := { s2 with link := { s2.link with bootedFirmware := some (fwVersionOf b.header, slice b.header 16 32) } }
        let w := s3.rd (.hlk p) HLK.WIDTH
        let x := s3.port p
        (s3.setPort p { x.restart with rxLock := x.rxLock }).negotiate p w
      else (s1.fault .mgc 0x8010).complete rq 0xA2 0x0E

/-- BOOT_END. -/
def execBootEnd (rq : Req) (s : State) : Result := .next (s.whenUp rq.port (s.endBoot rq))

end Sys2Proof.Machine
end

