-- ==== Sys2Proof/Machine/Cells.lean ====
section
/-! DEFINITION. Received cells (R78–R83) and the messages they carry (R85): the same meanings as the message commands. -/

namespace Sys2Proof.Machine

/-! ### Messages -/

/-- A message type that the host sends on a virtual channel (R85). -/
def hostMtype (vc mtype : Nat) : Bool :=
  if vc = 0 then mtype ∈ [0x01, 0x02, 0x10, 0x11, 0x12, 0x13, 0x20, 0x22]
  else if vc = 1 then mtype ∈ [0x21, 0x30, 0x31, 0xB0, 0xB1]
  else vc = 2 && mtype = 0x40

/-- The value and mask pairs of a REG_WR body; none where its length is not PARAM's. -/
def bodyPairs (n : Nat) (b : List Byte) : List (Nat × Nat) :=
  if b.length = 8 * n then (List.range n).map fun (i : Nat) => (field b (8 * i) 4, field b (8 * i + 4) 4) else []

/-- A malformed message (R85): completed with 0x0C when its type calls for a completion; a job message is refused (R93). -/
def State.malformed (s : State) (rq : Req) (mtype : Nat) : State :=
  if mtype < 0x40 then s.complete rq (mtype + 0x80) 0x0C else s

/-- A register write message; whether a strapped reference is present is a free value (log 3). -/
def State.regWriteMsg (s : State) (rq : Req) (off : Nat) (l : List (Nat × Nat)) : State :=
  let d := s.draw
  d.2.regWrite rq off l (d.1 % 2 = 1)

/-- A well-formed message acts (R85). -/
def State.deliver (s : State) (rq : Req) (mtype param addr : Nat) (b : List Byte) : State :=
  if mtype = 0x01 then s.regRead rq (addr % 2 ^ 24) (param % 32)
  else if mtype = 0x02 then s.regWriteMsg rq (addr % 2 ^ 24) (bodyPairs (param % 32) b)
  else if mtype = 0x10 then s.openSession rq (param % 4)
  else if mtype = 0x11 then s.takeResponse rq b
  else if mtype = 0x12 then s.closeSession rq
  else if mtype = 0x13 then s.subscribe rq param
  else if mtype = 0x20 then s.beginBoot rq b
  else if mtype = 0x21 then s.bootChunk rq addr b
  else if mtype = 0x22 then s.endBoot rq
  else if mtype = 0x30 then s.memRead rq addr param
  else if mtype = 0x31 then s.memWrite rq addr b
  else if mtype = 0xB0 ∨ mtype = 0xB1 then s.hostCompletion rq.port rq.tag.toNat param b
  else if mtype = 0x40 then s.jobSubmit rq param b
  else s

/-- A message type that calls for a completion (R85). -/
def requestMtype (mtype : Nat) : Bool :=
  mtype ∈ [0x01, 0x02, 0x10, 0x11, 0x12, 0x13, 0x20, 0x21, 0x22, 0x30, 0x31]

/-- Credits that the partner has spent on VC2 (R83). -/
def State.spendVc2 (s : State) (p n : Nat) : State := s.wr (.hlk p) HLK.VC2_GRANTED (s.rd (.hlk p) HLK.VC2_GRANTED - n)

/-- A message whose type is not defined for its channel (R85): VC3 takes none at all (R83). -/
def State.wrongChannel (s : State) (rq : Req) (vc cells mtype : Nat) : State :=
  let t := if vc < 3 && requestMtype mtype then s.complete rq (mtype + 0x80) 0x0C else s
  if vc = 2 then (t.spendVc2 rq.port cells).grantVc2 else t

/-- A whole message on a virtual channel (R85). -/
def State.takeMessage (s : State) (port : Fin 2) (vc cells : Nat) (b : List Byte) : State :=
  let mtype := field b 0 1
  let sid := field b 1 1
  let len := field b 4 2
  let rq : Req := ⟨port, Fin.ofNat 4 sid, BitVec.ofNat 16 (field b 2 2)⟩
  let body := slice b 16 len
  if !hostMtype vc mtype then s.wrongChannel rq vc cells mtype
  else if cells ≠ ceilDiv (16 + len) 56 ∨ 4 ≤ sid then
    (if mtype = 0x40 then (s.spendVc2 port (cells - 1)).jobSubmit rq 1 body else s.malformed rq mtype)
  else s.deliver rq mtype (field b 6 2) (field b 8 8) body

/-! ### Cells -/

/-- A NAK for the expected data cell, once for each gap (R79). -/
def State.nakOnce (s : State) (p : Nat) : State :=
  let x := s.port p
  if x.awaiting then s
  else (s.setPort p { x with awaiting := true }).sendControl p 1 (leBytes 2 x.rxNext)

/-- A cell discarded (R79). -/
def State.discardCell (s : State) (p : Nat) : State :=
  let s1 := s.count (.hlk p) HLK.CNT_CELL_CRC
  if s.portUp p then s1.nakOnce p else s1

/-- What the FEC reports of a codeword (R79); more than 64 uncorrectable ones in a beat retrain the port (R80). -/
def State.takeFec (s : State) (p : Nat) (fec : FecResult) : State :=
  match fec with
  | .clean => s
  | .corrected => s.count (.hlk p) HLK.CNT_FEC_CORR
  | .uncorrectable =>
    let x := s.port p
    let s1 := (s.setPort p { x with uncorrBeat := x.uncorrBeat + 1 }).count (.hlk p) HLK.CNT_FEC_UNCORR
    if 64 < x.uncorrBeat + 1 then s1.enterRetrain p else s1

/-- The receive credits of a virtual channel changed by cells taken in or given back (R83). -/
def HlPort.granted (x : HlPort) (vc : Nat) (f : Nat → Nat) : HlPort :=
  { x with rxGranted := x.rxGranted.set vc (f (nth x.rxGranted vc)) }

/-- The credits of a message's cells given back (R83); VC2's return with the intake queue (R94). -/
def State.returnCredits (s : State) (p vc n : Nat) : State :=
  if 2 ≤ vc ∨ !s.portUp p then s
  else
    let s1 := s.setPort p ((s.port p).granted vc (· + n))
    if vc = 0 then s1.sendCredit p n 0 0 else s1.sendCredit p 0 n 0

/-- A data cell in order: it joins its message, which acts when whole. -/
def State.takeData (s : State) (port : Fin 2) (vc : Nat) (som eom : Bool) (payload : List Byte) : State :=
  let p := port.val
  let x := s.port p
  let old : Assembly := if som then ⟨vc, 0, []⟩ else (x.assembly.find? (·.vc = vc)).getD ⟨vc, 0, []⟩
  let a : Assembly := ⟨vc, old.cells + 1, old.bytes ++ payload⟩
  let rest := x.assembly.filter (·.vc ≠ vc)
  let y := { x with rxNext := (x.rxNext + 1) % 4096, awaiting := false }.granted vc (· - 1)
  if eom then
    ((s.setPort p { y with assembly := rest }).takeMessage port vc a.cells a.bytes).returnCredits p vc a.cells
  else s.setPort p { y with assembly := a :: rest }

/-- A control cell (R78). -/
def State.takeControl (s : State) (p : Nat) (cell : List Byte) : State :=
  let type := field cell 4 1
  if type = 1 then s.takeNak p (field cell 5 2 % 4096)
  else if type = 2 then s.takeCredit p (field cell 5 2) (field cell 7 2) (field cell 11 2)
  else if type = 3 then s.takeHello p (field cell 6 2) (field cell 8 1 % 16)
  else s

/-- A cell whose CRC holds (R78, R79, R82). -/
def State.takeCell (s : State) (port : Fin 2) (cell : List Byte) : State :=
  let p := port.val
  let w := field cell 0 4
  let s1 := s.setPort p { s.port p with lastRx := s.time.beatNo }
  if !s.portUp p then (if w.testBit 2 && field cell 4 1 = 3 then s1.takeControl p cell else s1)
  else
    let s2 := s1.takeAck p (bits w 31 20)
    if w.testBit 2 then s2.takeControl p cell
    else if bits w 19 8 ≠ (s2.port p).rxNext then s2.discardCell p
    else s2.takeData port (w % 4) (w.testBit 3) (w.testBit 4) (slice cell 4 56)

/-- CELL_RECEIVE (R79): a cell at a port in NEGOTIATE or UP, with what its codeword's FEC reports. -/
def execCellReceive (port : Fin 2) (cell : List Byte) (fec : FecResult) (s : State) : Result :=
  let p := port.val
  let st := s.rd (.hlk p) HLK.LINK_STATE
  if cell.length ≠ 64 then .fault (.illFormed "CELL_RECEIVE")
  else .next (if !s.hlkOn p ∨ (st ≠ 3 ∧ st ≠ 4) then s
    else
      let s1 := s.takeFec p fec
      if fec = .uncorrectable ∨ field cell 60 4 ≠ crc32c (cell.take 60) then s1.discardCell p
      else s1.takeCell port cell)

end Sys2Proof.Machine
end

