-- ==== Sys2Proof/Machine/OpenTasks.lean ====
section
/-! DEFINITION. The start of open tasks (R245, R246, R280, R392). -/

namespace Sys2Proof.Machine

/-! ### The task descriptor (R245) -/

/-- The node descriptors a task descriptor names; a node's index is its place in the list (R299). -/
def State.taskNodes (s : State) (b : List Byte) : List NodeDesc :=
  (List.range (field b 6 2)).map fun (i : Nat) => { parseNode (s.load (field b 8 8 + 32 * i) 32) with index := i }

/-- Bytes 0–1 of each node's descriptor (R392). -/
def State.taskIndices (s : State) (b : List Byte) : List Nat :=
  (List.range (field b 6 2)).map fun (i : Nat) => s.loadNat (field b 8 8 + 32 * i) 2

/-- The successor table: counter initial value and successors of each node, 18 bytes a node (log 40). -/
def State.taskSuccs (s : State) (b : List Byte) : List (Nat × List Nat) :=
  (List.range (field b 6 2)).map fun (i : Nat) =>
    let e := s.load (field b 16 8 + 18 * i) 18
    (field e 0 1, (List.range (min 8 (field e 1 1))).map fun (k : Nat) => field e (2 + 2 * k) 2)

/-- The settings block of a task (log 8). -/
def State.taskSettings (s : State) (b : List Byte) : TaskSettings :=
  if field b 32 8 = 0 then ⟨[], [], [], [], []⟩ else Config.decodeTask (s.load (field b 32 8) 65536)

/-- The unit of an open node on a cluster. -/
def NodeDesc.openUnit (d : NodeDesc) (c : Nat) : Nat := 4 * c + d.coreIndex

/-- An open node names a unit outside the open pool on every cluster: a record write, an engine on a tensor core, a tensor
node on the vision core, a front end context of the locked set. -/
def State.unitOutside (s : State) (d : NodeDesc) : Bool :=
  match d.cls with
  | .tensor => d.coreIndex = 3
  | .sge | .ofe | .fpeDetect | .fpeMatch | .wpe | .pye => d.coreIndex ≠ 3
  | .ife => s.ifeLocked d.engineCtx
  | .recordWrite => true
  | .cameraControl => false

/-- The descriptor and its tables break R245. -/
def State.taskBad (s : State) (b : List Byte) : Bool :=
  let n := field b 6 2
  let nodes := s.taskNodes b
  let succs := s.taskSuccs b
  field b 0 4 ≠ 0x4B534154 || field b 4 2 ≠ 1 || n = 0 || 4096 < n || field b 24 2 = 0 || 1024 < field b 24 2
    || field b 26 1 = 0 || 64 ≤ field b 26 1 || field b 27 5 ≠ 0 || field b 56 8 ≠ 0
    || !s.inGddr (field b 8 8) (32 * n) || !s.inGddr (field b 16 8) (18 * n)
    || (field b 48 8 ≠ 0 && !s.inGddr (field b 48 8) 4) || 2 ^ 48 ≤ field b 40 8
    || (List.range n).any (fun (i : Nat) => nodeFieldsBad (s.load (field b 8 8 + 32 * i) 32)
        || 8 < field (s.load (field b 16 8 + 18 * i) 2) 1 1)
    || succs.any (fun x => x.2.any (n ≤ ·)) || field b 24 2 < (succs.filter (·.1 ≠ 0)).length
    || nodes.any s.unitOutside

/-! ### Where a task may start (R246) -/

/-- A core in the open pool, enabled and not retired. -/
def State.poolCore (s : State) (u : Nat) : Bool :=
  !s.absent u && !s.lockedUnit u && s.rd (corePage u) HDR.EN = 1 && !s.pageInReset (corePage u)

/-- Counters of a cluster that nobody holds. -/
def State.freeCounters (s : State) (c : Nat) : List Nat :=
  let x := s.clu c
  (List.range 1024).filter fun k => !(k ∈ x.lockedCounters) && !(k ∈ x.openCounters)

/-- A cluster may take a task (R246); its controller runs (log 41). -/
def State.clusterTakes (s : State) (b : List Byte) (c : Nat) : Bool :=
  (field b 26 1).testBit c && s.domainReady (24 + c) && decide (field b 24 2 ≤ (s.freeCounters c).length)
    && (s.taskNodes b).all fun d => s.poolCore (d.openUnit c)

/-- The lowest free graph context. -/
def State.freeCtx (s : State) : Option Nat :=
  (List.range 16).find? fun k => !(s.amt.tasks.any (·.ctx = k)) && !(k ∈ s.lockedCtxs)

/-- A queued job's descriptor. -/
def State.jobDesc (s : State) (j : Job) : List Byte := s.load j.descAddr 64

/-- The jobs in order of priority and then arrival. -/
def State.jobOrder (s : State) : List Job :=
  [3, 2, 1, 0].flatMap fun (k : Nat) => s.link.intake.filter (·.priority = k)

/-- What the Armature does with a job now: nothing, or take it up with the context and cluster it would get; an invalid
descriptor is taken up to be refused. -/
def State.jobFits (s : State) (j : Job) : Option (Nat × Nat) :=
  let b := s.jobDesc j
  if s.taskBad b then some (0, 0)
  else match s.freeCtx, (List.range 6).find? (s.clusterTakes b) with
    | some x, some c => some (x, c)
    | _, _ => none

/-- The first job that may start, with the jobs it passes over; one that 64 starts have passed blocks those behind. -/
def State.pickJob (s : State) : List Job → List Job → Option (Job × List Job × Nat × Nat)
  | _, [] => none
  | skipped, j :: r => match s.jobFits j with
    | some x => some (j, skipped, x.1, x.2)
    | none => if 64 ≤ j.passed then none else s.pickJob (skipped ++ [j]) r

/-! ### The checks at the start -/

/-- The commands of an open tensor node as they would issue. -/
def State.openIssues (s : State) (ctx c : Nat) (d : NodeDesc) : List Issue :=
  let cs := s.cmdsOf d
  (cs.zip (List.range cs.length)).map fun x =>
    let inside : Bool := match cs[x.2 - 1]? with | some p => 0 < x.2 && p.chain | none => false
    let n : CoreNode :=
      { slot := 0, locked := false, gset := 0, ctx := ctx, node := d.index, strip := 0, cmd := x.2, busy := false
        stage := givenStage inside, finished := false, reran := false
        needsRerun := false, dead := false, waiting := none, waitSince := 0, poison := none, noRerun := false
        combined := false, digest := Digest.start 0 }
    ⟨d.openUnit c, n, d, cs, x.1⟩

/-- A command fails R266. -/
def State.openCmdBad (s : State) (x : Issue) : Bool :=
  !(x.n.stage.isSome && x.c.cls = 2)
    && (match s.issueFault x with | some f => f.code = 0x1030 || f.code = 0x3030 | none => false)

/-- A node's commands fail R266 or R337, or its MAYVARY bit does not say what they hold. -/
def State.openNodeBad (s : State) (ctx c : Nat) (d : NodeDesc) : Bool :=
  d.cls = .tensor && (let l := s.openIssues ctx c d
    l.any s.openCmdBad || s.listRerunBad l || d.mayVary ≠ l.any fun x => x.c.mayVary)

/-- MAYVARY without ORDERED where a named tensor core's policy requires it (R280). -/
def State.policyBad (s : State) (j : Job) (c : Nat) (nodes : List NodeDesc) : Bool :=
  !j.ordered && nodes.any (·.mayVary)
    && nodes.any fun d => d.cls = .tensor && s.rd (.tc (d.openUnit c)) TC.MV_REQ_ORDERED = 1

/-- The settings name a stream entry, port, context or channel in locked use (R112, R125, R155, R379). -/
def State.settingsLocked (s : State) (c : Nat) (t : TaskSettings) (nodes : List NodeDesc) : Bool :=
  t.streams.any (fun d => s.entryLocked d.entry || s.camLocked (s.cps CPS.PORT d.entry))
    || t.channels.any (fun x => s.chanLocked (4 * c + x.unit % 4) x.number)
    || nodes.any fun d => match d.ctxOn c with
      | some x => if x.1 = .ife then s.ifeLocked x.2 else s.ctxLocked x.1 x.2
      | none => false

/-! ### Starting -/

/-- A job leaves the intake queue; those it passes over count it (R246). -/
def State.leaveIntake (s : State) (j : Job) (skipped : List Job) : State :=
  let l := (s.link.intake.erase j).map fun k => if k ∈ skipped then { k with passed := k.passed + 1 } else k
  { s with link := { s.link with intake := l } }

/-- A task is not run (R246): TASK_DESC, EVT_JOB_DONE REFUSED. -/
def State.refuseTask (s : State) (j : Job) : State := (s.fault .amt 0x3010).jobDone j.port j.cookie 0x000B 0x3010

/-- The armed replay slot of a cookie (R392). -/
def State.replaySlot (s : State) (cookie : Nat) : Option Nat :=
  (List.range 4).find? fun i =>
    s.rd .dig DIGR.EN i = 1 && s.rd .dig DIGR.COOKIE_LO i + 2 ^ 32 * s.rd .dig DIGR.COOKIE_HI i = cookie

/-- The slot used: disarmed, its beat shown (R392). -/
def State.useSlot (s : State) (k : Option Nat) : State :=
  match k with
  | some i => (s.wr .dig DIGR.EN 0 i).wr .dig DIGR.USED_BEAT_LO s.time.beatNo i
  | none => s

/-- The cluster counter of each node that has one: of those held, in node order; 1024 for a node without. -/
def nodeCounters : List (Nat × List Nat) → List Nat → List Nat
  | [], _ => []
  | x :: r, held => if x.1 = 0 then 1024 :: nodeCounters r held else held.headD 1024 :: nodeCounters r held.tail

/-- The task a job becomes: its keys from a replay slot, or its own seed, graph key 0xFF, node indices and step base 0 (R299,
R392). -/
def State.taskOf (s : State) (j : Job) (b : List Byte) (ctx c : Nat) : Task :=
  let succs := s.taskSuccs b
  let held := (s.freeCounters c).take (field b 24 2)
  let k := s.replaySlot j.cookie
  let of (f g : RField) (d : Nat) : Nat := match k with
    | some i => s.rd .dig f i + 2 ^ 32 * s.rd .dig g i
    | none => d
  { ctx := ctx, cluster := c, job := j, nodes := s.taskNodes b, succ := succs.map (·.2)
    counters := nodeCounters succs held, held := held, completed := [], root := field b 40 8
    completionAddr := field b 48 8, seed := of DIGR.SEED_LO DIGR.SEED_HI j.seed
    graphKey := (match k with | some i => s.rd .dig DIGR.GRAPH i | none => 0xFF)
    stepBase := of DIGR.STEP_LO DIGR.STEP_HI 0
    nodeKeys := (match k with | some _ => s.taskIndices b | none => List.range (field b 6 2)), settings := s.taskSettings b }

/-- A task's counters taken, with their initial values (R244). -/
def State.takeCounters (s : State) (t : Task) (succs : List (Nat × List Nat)) : State :=
  let x := s.clu t.cluster
  let start (l : List (Nat × Nat)) : List (Nat × Nat) := (t.counters.zip succs).foldl (fun (l : List (Nat × Nat)) y =>
    if y.1 < 1024 then assocSet y.1 y.2.1 l else l) l
  s.setClu t.cluster { x with
    openCounters := x.openCounters ++ t.held
    counters := start (x.counters.filter fun e => !(e.1 ∈ t.held)) }

/-- What a task's settings block writes (R112, R245, R370): contexts, channels with their lists, streams. -/
def State.applySettings (s : State) (t : Task) : State :=
  let st := t.settings
  let s1 := st.contexts.foldl (fun s x => match (t.nodes[x.node]?).bind fun d => d.ctxOn t.cluster with
    | some y => ((s.writeFields y.1 y.2 x.fields).enableCtx y.1 y.2 1).freshContext y.1 y.2
    | none => s) s
  let s2 := st.channels.foldl (fun s x =>
    let u := 4 * t.cluster + x.unit % 4
    let s' := (s.writeFields (.str u) x.number x.fields).enableCtx (.str u) x.number 1
    let s'' := s'.setChan { s'.chan u x.number with ctx := some t.ctx }
    if x.count = 0 then s'' else s''.armList u x.number ⟨x.addr, x.count⟩) s1
  (st.streams.foldl (fun s d =>
    let s' := s.startStream d (s.time.beatNo + 1 + d.offset)
    s'.setRun d.entry { s'.run d.entry with task := some t.ctx }) (s2.writeStreams st.streams)).lockPages s
      ((st.contexts.filterMap fun x => ((t.nodes[x.node]?).bind fun d => d.ctxOn t.cluster).map (·.1))
        ++ (st.channels.map fun x => Page.str (4 * t.cluster + x.unit % 4)) ++ (if st.streams = [] then [] else [.cpx]))

/-- A task starts (R246): counters, table root, rings, settings, nodes whose counter starts at zero. -/
def State.startTask (s : State) (t : Task) (b : List Byte) : State :=
  let succs := s.taskSuccs b
  let s1 := (s.useSlot (s.replaySlot t.job.cookie)).takeCounters t succs
  let s2 : State := { s1 with amt := { s1.amt with tasks := s1.amt.tasks ++ [t] } }
  let s3 := (s2.wr .mmu MMU.ROOT_LO (t.root % 2 ^ 32) 0 t.ctx).wr .mmu MMU.ROOT_HI (t.root / 2 ^ 32) 0 t.ctx
  let ready := t.nodes.filter fun d => t.counters.getD d.index 1024 = 1024
  let s4 := t.nodes.foldl (fun s d => s.attachNode (d.openUnit t.cluster) d false (nodeConsumer false t.ctx 0 d.index)) s3
  ready.foldl (fun s d => s.makeReady t d) (s4.applySettings t)

/-- The Armature runs and takes up jobs: PD37 ready, not on its way to sleep, EN set. -/
def State.takesJobs (s : State) : Bool :=
  s.pageOn .amt && s.rd .pdc PDC.IN_SLEEP = 0 && !s.sensors.stopActive && s.rd .amt HDR.EN = 1 && !s.pageInReset .amt

/-- A job taken up: refused, or started. -/
def State.takeJob (s : State) (j : Job) (skipped : List Job) (ctx c : Nat) : State :=
  let b := s.jobDesc j
  let s0 := s.leaveIntake j []
  let s1 := s.leaveIntake j skipped
  if s.taskBad b then (s0.refuseTask j).grantVc2
  else
    let t := s.taskOf j b ctx c
    let trial : State := { s1 with amt := { s1.amt with tasks := s1.amt.tasks ++ [t] } }
    let bad : Bool := t.nodes.any (trial.openNodeBad ctx c) || s.policyBad j c t.nodes || s.settingsLocked c t.settings t.nodes
    if bad then (s0.refuseTask j).grantVc2 else (s1.startTask t b).grantVc2

/-- TASK_START (R246). -/
def execTaskStart (s : State) : Result :=
  .next (if !s.takesJobs then s
    else match s.pickJob [] s.jobOrder with
      | none => s
      | some (j, skipped, ctx, c) => s.takeJob j skipped ctx c)

end Sys2Proof.Machine
end

