-- ==== Sys2Proof/Machine/Beat.lean ====
section
/-! DEFINITION. The beat boundary (R6, R7): what happens at clock 0 of every beat. -/

namespace Sys2Proof.Machine

/-- The next beat (R6); what counts within one beat starts again. -/
def State.nextBeat (s : State) : State :=
  { s with
    time := { s.time with beatNo := s.time.beatNo + 1, phase := .early, windowDone := false }
    link := { s.link with ports := s.link.ports.map fun p => { p with uncorrBeat := 0 } } }

/-- Cause 0x01 ends with the record after the one of the beat in which the warm reset sequence has ended (R60). -/
def State.endWarm (s : State) : State :=
  if s.power.warm.isNone && s.plinth.causes.any (·.code = 1) then s.endCauses 1 fun _ => true else s

/-! ### Power at a boundary -/

/-- A retired core's capture still runs, and its switch-off waits for it (R347; log 42). -/
def State.captureHolds (s : State) (u : Nat) : Bool :=
  match s.fabric.capture with
  | some c => c.unit = u && s.time.beatNo < c.beat + 5
  | none => false

/-- Cores off once their retirement has taken effect (R25, R347). -/
def State.retiredOff (s : State) : State :=
  (s.retiredEffective.filter fun u => s.domainUp u && !s.captureHolds u).foldl (fun s u => s.powerOff u) s

/-- A failed cluster's domain off once its cores are off (R25). -/
def State.failedOff (s : State) : State :=
  (s.power.failedClusters.filter fun c => s.domainUp (24 + c) && (List.range 4).all fun k => s.domainOff (4 * c + k)).foldl
    (fun s c => s.powerOff (24 + c)) s

/-- Since which boundary each open-pool core has had no work (R44). -/
def State.noteIdle (s : State) : State :=
  let idle (u : Nat) : Bool := s.domainReady u && !s.lockedUnit u && (s.core u).nodes.isEmpty
  { s with power := { s.power with
      idleSince := ((List.range 24).filter idle).map fun u => (u, lookupD s.time.beatNo u s.power.idleSince) } }

/-- In AUTO mode a task that is ready for a core switches its domain on (R44), after its cluster's. -/
def State.wakeCores (s : State) : State :=
  if s.rd .pdc PDC.AUTO_MODE = 1 && s.domainReady 38 then
    let us := (List.range 24).filter fun u => (s.clu (u / 4)).ready.any (·.core = u % 4)
    let ds := setUnion (us.map fun u => 24 + u / 4) us
    s.requestAll (ds.filter fun d => s.domainOff d && (s.onRefused d).isNone)
  else s

/-! ### Triggers (R10, R113, R114) -/

/-- The stream's triggers end at this boundary: a stop takes effect, or a swap to a set that does not continue them. -/
def State.triggersEnd (s : State) (e k : Nat) : Bool :=
  match s.amt.op, s.amt.running with
  | some (.stop b), some r => b ≤ k && r.pkg.sec.streams.any (·.entry = e)
  | some (.swap _ _), some r =>
    s.swapsAt k && r.pkg.sec.streams.any (·.entry = e) && (match s.amt.maquette with
      | some (p, _) => !(p.sec.streams.any fun d => d.entry = e && (s.newB0 (s.sequences r) d (k + 1)).2)
      | none => false)
  | _, _ => false

/-- The ports whose trigger symbol is due in a beat, each once. -/
def State.triggerPorts (s : State) (k : Nat) : List Nat :=
  setUnion [] ((s.vision.streams.filter fun r => r.dueAt k && !s.triggersEnd r.entry k).map fun r => s.cps CPS.PORT r.entry)

/-- Triggers of a beat. -/
def State.sendTriggers (s : State) (k : Nat) : State := (s.triggerPorts k).foldl (fun s n => s.sendTrigger n k) s

/-! ### The boundary -/

/-- What a running set does at clock 0: strips admitted, triggers sent, sets that are over forgotten. -/
def State.beatWork (s : State) : State :=
  let k := s.time.beatNo
  (((s.admitStrips k).sendTriggers k).settleSets).forgetSets

/-- What the PDC does at clock 0. -/
def State.beatPower (s : State) : State := (s.retiredOff.failedOff.settleOff.noteIdle.wakeCores).enterSleep

/-- BEAT_BOUNDARY (R6): the beat counter, the samples of clock 0, what takes effect at a boundary. -/
def State.beat (s : State) (vin : Nat) (temps : List Int) : State :=
  let s1 := (s.nextBeat.endWarm.beginRecords.blockEvents.boundaryCommits).settleRetired
  let s2 := ((s1.sampleVin vin).sampleTemps temps).startTargeted
  (s2.patrolBeat.beatWork).beatPower

/-- BEAT_BOUNDARY (R6, R7): beats are counted while AON runs. -/
def execBeatBoundary (vin : BitVec 16) (temps : List Int) (s : State) : Result :=
  if temps.length ≠ 15 then .fault (.illFormed "BEAT_BOUNDARY")
  else .next (if s.plinthOn || s.power.run = .failedCheck then s.beat vin.toNat temps else s)

end Sys2Proof.Machine
end

