-- ==== Sys2Proof/Machine/Writes.lean ====
section
/-! DEFINITION. The commands that write or read one register, each the one register write or read at its offset. -/

namespace Sys2Proof.Machine

/-! ### Header registers of any page -/

/-- BLK_SWRST (R71). -/
def execBlkSwrst (rq : Req) (page : BitVec 12) (value mask : Word) (s : State) : Result :=
  .next (s.regWrite rq (page.toNat * 4096 + HDR.SWRST.off) [(value.toNat, mask.toNat)] false)

/-- BLK_EN_WRITE (R464). -/
def execBlkEnWrite (rq : Req) (page : BitVec 12) (value mask : Word) (s : State) : Result :=
  .next (s.regWrite rq (page.toNat * 4096 + HDR.EN.off) [(value.toNat, mask.toNat)] false)

/-- BLK_COMMIT_GO (R466). -/
def execBlkCommitGo (rq : Req) (page : BitVec 12) (value mask : Word) (s : State) : Result :=
  .next (s.regWrite rq (page.toNat * 4096 + HDR.GO.off) [(value.toNat, mask.toNat)] false)

/-- BLK_EVT_STAT_CLEAR (R465). -/
def execBlkEvtStatClear (rq : Req) (page : BitVec 12) (value mask : Word) (s : State) : Result :=
  .next (s.regWrite rq (page.toNat * 4096 + HDR.BLK_EVT_STAT.off) [(value.toNat, mask.toNat)] false)

/-- BLK_EVT_MASK_WRITE (R465). -/
def execBlkEvtMaskWrite (rq : Req) (page : BitVec 12) (value mask : Word) (s : State) : Result :=
  .next (s.regWrite rq (page.toNat * 4096 + HDR.BLK_EVT_MASK.off) [(value.toNat, mask.toNat)] false)

/-- CNT_CLR (R124 and the pages' tables): a write of the page's CNT_CLR; a page without one has no such register. -/
def execCntClr (rq : Req) (page : BitVec 12) (value mask : Word) (s : State) : Result :=
  .next (match pageAt page.toNat with
    | some p => (match p.cntClr with | some f => s.regWrite1 rq p f.off value mask | none => s)
    | none => s)

/-- PLAIN_REGISTER_WRITE (R89): a REG_WR of any offset and body; whether a strapped reference is present is a free value
(log 3). -/
def execPlainRegisterWrite (rq : Req) (off : BitVec 24) (pairs : List (Word × Word)) (s : State) : Result :=
  let d := s.draw
  .next (d.2.regWrite rq off.toNat (pairs.map fun x => (x.1.toNat, x.2.toNat)) (d.1 % 2 = 1))

/-- REG_RD (R88). -/
def execRegRd (rq : Req) (off : BitVec 24) (count : BitVec 5) (s : State) : Result :=
  .next (s.regRead rq off.toNat count.toNat)

/-- DEV_BEAT_READ (R472): a read of DEV.BEAT_LO. -/
def execDevBeatRead (rq : Req) (s : State) : Result := .next (s.regRead rq DEV.BEAT_LO.off 1)

/-- BOD_ENT_READ (R327): a read of BOD.ENT_LO. -/
def execBodEntRead (rq : Req) (s : State) : Result := .next (s.regRead rq (Page.bod.num * 4096 + BOD.ENT_LO.off) 1)

/-! ### Registers of one page -/

/-- PDC_ON_REQ (R43). -/
def execPdcOnReq (rq : Req) (second : Bool) (value mask : Word) (s : State) : Result :=
  .next (s.regWrite1 rq .pdc (if second then PDC.ON_REQ1.off else PDC.ON_REQ0.off) value mask)

/-- SLEEP_ENTER (R45). -/
def execSleepEnter (rq : Req) (value mask : Word) (s : State) : Result :=
  .next (s.regWrite1 rq .pdc PDC.SLEEP_ENTER.off value mask)

/-- CLK_REVERT (R49): `refPresent` when the strapped reference is there. -/
def execClkRevert (rq : Req) (value mask : Word) (refPresent : Bool) (s : State) : Result :=
  .next (s.regWrite1 rq .clk CLK.REVERT.off value mask refPresent)

/-- RETRAIN (R80). -/
def execRetrain (rq : Req) (port : Fin 2) (value mask : Word) (s : State) : Result :=
  .next (s.regWrite1 rq (.hlk port.val) HLK.RETRAIN.off value mask)

/-- TUN_PUSH (R121): a write of TUN_PUSH3. -/
def execTunPush (rq : Req) (value mask : Word) (s : State) : Result :=
  .next (s.regWrite1 rq .cpx (CPX.TUN_PUSH.off + 12) value mask)

/-- PORT_EN (R124). -/
def execPortEn (rq : Req) (value mask : Word) (s : State) : Result :=
  .next (s.regWrite1 rq .cpx CPX.PORT_EN.off value mask)

/-- PQ_PUSH (R150): a write of PQ_ADDR_HI. -/
def execPqPush (rq : Req) (value mask : Word) (s : State) : Result :=
  .next (s.regWrite1 rq .ife IFE.PQ_ADDR_HI.off value mask)

/-- PM_RELEASE (R347). -/
def execPmRelease (rq : Req) (value mask : Word) (s : State) : Result :=
  .next (s.regWrite1 rq .pmc PMC.PM_RELEASE.off value mask)

/-- STREAM_ARM (R370): a write of ARM_COUNT. -/
def execStreamArm (rq : Req) (u : Fin 24) (ch : Fin 8) (value mask : Word) (s : State) : Result :=
  .next (s.regWrite1 rq (.str u.val) (STR.ARM_COUNT.off + STR.ARM_COUNT.s1 * ch.val) value mask)

/-- RESUME_CTX (R374). -/
def execResumeCtx (rq : Req) (value mask : Word) (s : State) : Result :=
  .next (s.regWrite1 rq .mmu MMU.RESUME_CTX.off value mask)

/-- INV_CTX (R365). -/
def execInvCtx (rq : Req) (value mask : Word) (s : State) : Result :=
  .next (s.regWrite1 rq .mmu MMU.INV_CTX.off value mask)

/-- BOD_ENT_WRITE (R320): a write of ENT_HI. -/
def execBodEntWrite (rq : Req) (value mask : Word) (s : State) : Result :=
  .next (s.regWrite1 rq .bod BOD.ENT_HI.off value mask)

/-- BULK_GO (R327). -/
def execBulkGo (rq : Req) (value mask : Word) (s : State) : Result :=
  .next (s.regWrite1 rq .bod BOD.BULK_GO.off value mask)

/-- LOAD (R248): OP_CMD 0x1. -/
def execLoad (rq : Req) (value mask : Word) (s : State) : Result :=
  .next (s.regWrite1 rq .amt AMT.OP_CMD.off value mask)

/-- START (R250): OP_CMD 0x2. -/
def execStart (rq : Req) (value mask : Word) (s : State) : Result :=
  .next (s.regWrite1 rq .amt AMT.OP_CMD.off value mask)

/-- STOP (R250): OP_CMD 0x3. -/
def execStop (rq : Req) (value mask : Word) (s : State) : Result :=
  .next (s.regWrite1 rq .amt AMT.OP_CMD.off value mask)

/-- SWAP (R251): OP_CMD 0x4. -/
def execSwap (rq : Req) (value mask : Word) (s : State) : Result :=
  .next (s.regWrite1 rq .amt AMT.OP_CMD.off value mask)

/-- DISCARD (R249): OP_CMD 0x5. -/
def execDiscard (rq : Req) (value mask : Word) (s : State) : Result :=
  .next (s.regWrite1 rq .amt AMT.OP_CMD.off value mask)

/-- LOAD_ADDR (R248): INST_CMD 0x1. -/
def execLoadAddr (rq : Req) (value mask : Word) (s : State) : Result :=
  .next (s.regWrite1 rq .amt AMT.INST_CMD.off value mask)

/-- CANCEL_CTX (R247). -/
def execCancelCtx (rq : Req) (value mask : Word) (s : State) : Result :=
  .next (s.regWrite1 rq .amt AMT.CANCEL_CTX.off value mask)

/-- PLN_CLEAR (R412). -/
def execPlnClear (rq : Req) (value mask : Word) (s : State) : Result :=
  .next (s.regWrite1 rq .pln PLN.CLEAR.off value mask)

/-- PLN_INHIBIT (R410). -/
def execPlnInhibit (rq : Req) (value mask : Word) (s : State) : Result :=
  .next (s.regWrite1 rq .pln PLN.INHIBIT.off value mask)

/-- RSP_REQ (R425). -/
def execRspReq (rq : Req) (value mask : Word) (s : State) : Result :=
  .next (s.regWrite1 rq .rsp RSP.REQ.off value mask)

/-- WRITE_FIRMWARE (R445): STORE_CMD 0x1. -/
def execWriteFirmware (rq : Req) (value mask : Word) (s : State) : Result :=
  .next (s.regWrite1 rq .mgc MGC.STORE_CMD.off value mask)

/-- WRITE_OPTIONS (R443): STORE_CMD 0x2. -/
def execWriteOptions (rq : Req) (value mask : Word) (s : State) : Result :=
  .next (s.regWrite1 rq .mgc MGC.STORE_CMD.off value mask)

/-- WRITE_GRAPH (R443): STORE_CMD 0x3. -/
def execWriteGraph (rq : Req) (value mask : Word) (s : State) : Result :=
  .next (s.regWrite1 rq .mgc MGC.STORE_CMD.off value mask)

/-- ERASE_GRAPH (R443): STORE_CMD 0x4. -/
def execEraseGraph (rq : Req) (value mask : Word) (s : State) : Result :=
  .next (s.regWrite1 rq .mgc MGC.STORE_CMD.off value mask)

/-- WRITE_KEYS (R444): STORE_CMD 0x5. -/
def execWriteKeys (rq : Req) (value mask : Word) (s : State) : Result :=
  .next (s.regWrite1 rq .mgc MGC.STORE_CMD.off value mask)

/-- RAISE_FW_FLOOR (R443): STORE_CMD 0x6. -/
def execRaiseFwFloor (rq : Req) (value mask : Word) (s : State) : Result :=
  .next (s.regWrite1 rq .mgc MGC.STORE_CMD.off value mask)

/-- WRITE_FACTORY (R443): STORE_CMD 0x8. -/
def execWriteFactory (rq : Req) (value mask : Word) (s : State) : Result :=
  .next (s.regWrite1 rq .mgc MGC.STORE_CMD.off value mask)

/-- ATT_GO (R441). -/
def execAttGo (rq : Req) (value mask : Word) (s : State) : Result :=
  .next (s.regWrite1 rq .mgc MGC.ATT_GO.off value mask)

/-- AUD_GO (R454). -/
def execAudGo (rq : Req) (value mask : Word) (s : State) : Result :=
  .next (s.regWrite1 rq .mgc MGC.AUD_GO.off value mask)

/-- AUD_CKPT (R452). -/
def execAudCkpt (rq : Req) (value mask : Word) (s : State) : Result :=
  .next (s.regWrite1 rq .mgc MGC.AUD_CKPT.off value mask)

/-- LC_TO_PROVISIONED (R446): LCS.REQ of that state. -/
def execLcToProvisioned (rq : Req) (value mask : Word) (s : State) : Result :=
  .next (s.regWrite1 rq .lcs LCS.REQ.off value mask)

/-- LC_TO_SERVICE (R446): LCS.REQ of that state. -/
def execLcToService (rq : Req) (value mask : Word) (s : State) : Result :=
  .next (s.regWrite1 rq .lcs LCS.REQ.off value mask)

/-- LC_TO_DIAGNOSE (R446): LCS.REQ of that state. -/
def execLcToDiagnose (rq : Req) (value mask : Word) (s : State) : Result :=
  .next (s.regWrite1 rq .lcs LCS.REQ.off value mask)

/-- LC_TO_RETURN (R446): LCS.REQ of that state. -/
def execLcToReturn (rq : Req) (value mask : Word) (s : State) : Result :=
  .next (s.regWrite1 rq .lcs LCS.REQ.off value mask)

/-- LC_TO_SCRAPPED (R446): LCS.REQ of that state. -/
def execLcToScrapped (rq : Req) (value mask : Word) (s : State) : Result :=
  .next (s.regWrite1 rq .lcs LCS.REQ.off value mask)

end Sys2Proof.Machine
end

