-- ==== Sys2Proof/Machine/Dispatch.lean ====
section
/-! DEFINITION. What each command does: one arm per constructor. -/

namespace Sys2Proof.Machine

/-- A command's effect on everything but the queue. -/
def exec (i : Instr) (s : State) : Host.Outcome State Fault Refusal :=
  match i with
  | .powerOn => Sys2Proof.Machine.execPowerOn s
  | .powerOnRelease boot clkm resetHigh => Sys2Proof.Machine.execPowerOnRelease boot clkm resetHigh s
  | .plinthStartupCheck ok => Sys2Proof.Machine.execPlinthStartupCheck ok s
  | .beatBoundary vin temps => Sys2Proof.Machine.execBeatBoundary vin temps s
  | .retrainCycleEnd ch margin => Sys2Proof.Machine.execRetrainCycleEnd ch margin s
  | .recordLatch halvesAgree => Sys2Proof.Machine.execRecordLatch halvesAgree s
  | .recordEmit => Sys2Proof.Machine.execRecordEmit s
  | .faultWindow => Sys2Proof.Machine.execFaultWindow s
  | .safeMark => Sys2Proof.Machine.execSafeMark s
  | .resetNFall => Sys2Proof.Machine.execResetNFall s
  | .resetNRise boot clkm => Sys2Proof.Machine.execResetNRise boot clkm s
  | .warmResetBegin => Sys2Proof.Machine.execWarmResetBegin s
  | .warmRestart => Sys2Proof.Machine.execWarmRestart s
  | .pdcOnReq rq second value mask => Sys2Proof.Machine.execPdcOnReq rq second value mask s
  | .pdcRampStart => Sys2Proof.Machine.execPdcRampStart s
  | .domainReady pd => Sys2Proof.Machine.execDomainReady pd s
  | .domainWakeTimeout pd => Sys2Proof.Machine.execDomainWakeTimeout pd s
  | .powerGoodLost pd => Sys2Proof.Machine.execPowerGoodLost pd s
  | .pdcIdleOff u => Sys2Proof.Machine.execPdcIdleOff u s
  | .sleepEnter rq value mask => Sys2Proof.Machine.execSleepEnter rq value mask s
  | .wakeTimer => Sys2Proof.Machine.execWakeTimer s
  | .wakePd38Start => Sys2Proof.Machine.execWakePd38Start s
  | .regulatorProtection => Sys2Proof.Machine.execRegulatorProtection s
  | .powerOnDetectorStop => Sys2Proof.Machine.execPowerOnDetectorStop s
  | .thermalTrip sensor => Sys2Proof.Machine.execThermalTrip sensor s
  | .aonThermalStop => Sys2Proof.Machine.execAonThermalStop s
  | .refLoss => Sys2Proof.Machine.execRefLoss s
  | .clkRevert rq value mask refPresent => Sys2Proof.Machine.execClkRevert rq value mask refPresent s
  | .clkmFirstLock => Sys2Proof.Machine.execClkmFirstLock s
  | .lossOfSignalAssert rx => Sys2Proof.Machine.execLossOfSignalAssert rx s
  | .lossOfSignalDeassert rx => Sys2Proof.Machine.execLossOfSignalDeassert rx s
  | .laserEol tx => Sys2Proof.Machine.execLaserEol tx s
  | .firmwareVerify readError => Sys2Proof.Machine.execFirmwareVerify readError s
  | .optionPass readError => Sys2Proof.Machine.execOptionPass readError s
  | .blkSwrst rq page value mask => Sys2Proof.Machine.execBlkSwrst rq page value mask s
  | .blkResetIdle page clocks => Sys2Proof.Machine.execBlkResetIdle page clocks s
  | .blkResetForced page => Sys2Proof.Machine.execBlkResetForced page s
  | .blkResetDone page => Sys2Proof.Machine.execBlkResetDone page s
  | .blkEnWrite rq page value mask => Sys2Proof.Machine.execBlkEnWrite rq page value mask s
  | .blkCommitGo rq page value mask => Sys2Proof.Machine.execBlkCommitGo rq page value mask s
  | .commitApply page ctx => Sys2Proof.Machine.execCommitApply page ctx s
  | .blkEvtStatClear rq page value mask => Sys2Proof.Machine.execBlkEvtStatClear rq page value mask s
  | .blkEvtMaskWrite rq page value mask => Sys2Proof.Machine.execBlkEvtMaskWrite rq page value mask s
  | .cntClr rq page value mask => Sys2Proof.Machine.execCntClr rq page value mask s
  | .plainRegisterWrite rq off pairs => Sys2Proof.Machine.execPlainRegisterWrite rq off pairs s
  | .regRd rq off count => Sys2Proof.Machine.execRegRd rq off count s
  | .devBeatRead rq => Sys2Proof.Machine.execDevBeatRead rq s
  | .hlBlockLock port rxLanes partnerLanes => Sys2Proof.Machine.execHlBlockLock port rxLanes partnerLanes s
  | .hello port versions lockMask width => Sys2Proof.Machine.execHello port versions lockMask width s
  | .helloResend port => Sys2Proof.Machine.execHelloResend port s
  | .cellReceive port cell fec => Sys2Proof.Machine.execCellReceive port cell fec s
  | .nak port lseq => Sys2Proof.Machine.execNak port lseq s
  | .replayTmo port => Sys2Proof.Machine.execReplayTmo port s
  | .credit port inc0 inc1 inc2 inc3 => Sys2Proof.Machine.execCredit port inc0 inc1 inc2 inc3 s
  | .idle port => Sys2Proof.Machine.execIdle port s
  | .retrain rq port value mask => Sys2Proof.Machine.execRetrain rq port value mask s
  | .retrainDone port rxLanes partnerLanes => Sys2Proof.Machine.execRetrainDone port rxLanes partnerLanes s
  | .retrainTimeout port => Sys2Proof.Machine.execRetrainTimeout port s
  | .lanesDarkTimeout port => Sys2Proof.Machine.execLanesDarkTimeout port s
  | .keepalive port => Sys2Proof.Machine.execKeepalive port s
  | .memRd rq addr len => Sys2Proof.Machine.execMemRd rq addr len s
  | .memWr rq addr data => Sys2Proof.Machine.execMemWr rq addr data s
  | .hostCompletion port tag status data => Sys2Proof.Machine.execHostCompletion port tag status data s
  | .hostTimeout port tag => Sys2Proof.Machine.execHostTimeout port tag s
  | .jobSubmit rq param body => Sys2Proof.Machine.execJobSubmit rq param body s
  | .jobIntakeAdmit port => Sys2Proof.Machine.execJobIntakeAdmit port s
  | .sessionOpen rq role => Sys2Proof.Machine.execSessionOpen rq role s
  | .sessionResponse rq signatures => Sys2Proof.Machine.execSessionResponse rq signatures s
  | .sessionResult port => Sys2Proof.Machine.execSessionResult port s
  | .lockoutEnd port => Sys2Proof.Machine.execLockoutEnd port s
  | .nonceExpire port => Sys2Proof.Machine.execNonceExpire port s
  | .sessionClose rq => Sys2Proof.Machine.execSessionClose rq s
  | .recCopy rq param => Sys2Proof.Machine.execRecCopy rq param s
  | .evtLoss port => Sys2Proof.Machine.execEvtLoss port s
  | .bootBegin rq header => Sys2Proof.Machine.execBootBegin rq header s
  | .bootBeginReady => Sys2Proof.Machine.execBootBeginReady s
  | .bootChunk rq offset data => Sys2Proof.Machine.execBootChunk rq offset data s
  | .bootEnd rq => Sys2Proof.Machine.execBootEnd rq s
  | .cpBlockLock cam => Sys2Proof.Machine.execCpBlockLock cam s
  | .cpLockLoss cam => Sys2Proof.Machine.execCpLockLoss cam s
  | .transportPacket cam packet => Sys2Proof.Machine.execTransportPacket cam packet s
  | .fs cam vc frameNo => Sys2Proof.Machine.execFs cam vc frameNo s
  | .fe cam vc frameNo => Sys2Proof.Machine.execFe cam vc frameNo s
  | .lsLe cam vc lineEnd line => Sys2Proof.Machine.execLsLe cam vc lineEnd line s
  | .longPacket cam header payload crc => Sys2Proof.Machine.execLongPacket cam header payload crc s
  | .rowDeadline stream frame row => Sys2Proof.Machine.execRowDeadline stream frame row s
  | .fsDeadline stream frame => Sys2Proof.Machine.execFsDeadline stream frame s
  | .tunPush rq value mask => Sys2Proof.Machine.execTunPush rq value mask s
  | .tunnelSend cam => Sys2Proof.Machine.execTunnelSend cam s
  | .tunnelAck cam seq status => Sys2Proof.Machine.execTunnelAck cam seq status s
  | .tunAckTmo cam => Sys2Proof.Machine.execTunAckTmo cam s
  | .portEn rq value mask => Sys2Proof.Machine.execPortEn rq value mask s
  | .ifeFrameStart ctx frame => Sys2Proof.Machine.execIfeFrameStart ctx frame s
  | .pqPush rq value mask => Sys2Proof.Machine.execPqPush rq value mask s
  | .nodeStartClock node strip => Sys2Proof.Machine.execNodeStartClock node strip s
  | .rerunStart node => Sys2Proof.Machine.execRerunStart node s
  | .nodeFlagClock node strip finished lineMem => Sys2Proof.Machine.execNodeFlagClock node strip finished lineMem s
  | .recordWrite node strip => Sys2Proof.Machine.execRecordWrite node strip s
  | .nodeDispatch u => Sys2Proof.Machine.execNodeDispatch u s
  | .nodeComplete u slot lineMem => Sys2Proof.Machine.execNodeComplete u slot lineMem s
  | .matmul u slot obs => Sys2Proof.Machine.execMatmul u slot obs s
  | .conv u slot obs => Sys2Proof.Machine.execConv u slot obs s
  | .eltwiseAdd u slot obs => Sys2Proof.Machine.execEltwiseAdd u slot obs s
  | .eltwiseSub u slot obs => Sys2Proof.Machine.execEltwiseSub u slot obs s
  | .eltwiseMul u slot obs => Sys2Proof.Machine.execEltwiseMul u slot obs s
  | .eltwiseMax u slot obs => Sys2Proof.Machine.execEltwiseMax u slot obs s
  | .eltwiseMin u slot obs => Sys2Proof.Machine.execEltwiseMin u slot obs s
  | .fma u slot obs => Sys2Proof.Machine.execFma u slot obs s
  | .scaleBias u slot obs => Sys2Proof.Machine.execScaleBias u slot obs s
  | .abs u slot obs => Sys2Proof.Machine.execAbs u slot obs s
  | .neg u slot obs => Sys2Proof.Machine.execNeg u slot obs s
  | .clamp u slot obs => Sys2Proof.Machine.execClamp u slot obs s
  | .select u slot obs => Sys2Proof.Machine.execSelect u slot obs s
  | .cmpgt u slot obs => Sys2Proof.Machine.execCmpgt u slot obs s
  | .shift u slot obs => Sys2Proof.Machine.execShift u slot obs s
  | .reduceSum u slot obs => Sys2Proof.Machine.execReduceSum u slot obs s
  | .reduceSumsq u slot obs => Sys2Proof.Machine.execReduceSumsq u slot obs s
  | .reduceMax u slot obs => Sys2Proof.Machine.execReduceMax u slot obs s
  | .reduceMin u slot obs => Sys2Proof.Machine.execReduceMin u slot obs s
  | .argmax u slot obs => Sys2Proof.Machine.execArgmax u slot obs s
  | .lutPwl u slot obs => Sys2Proof.Machine.execLutPwl u slot obs s
  | .lutDirect u slot obs => Sys2Proof.Machine.execLutDirect u slot obs s
  | .normLayer u slot obs => Sys2Proof.Machine.execNormLayer u slot obs s
  | .normRms u slot obs => Sys2Proof.Machine.execNormRms u slot obs s
  | .normL2 u slot obs => Sys2Proof.Machine.execNormL2 u slot obs s
  | .softmax u slot obs => Sys2Proof.Machine.execSoftmax u slot obs s
  | .logsoftmax u slot obs => Sys2Proof.Machine.execLogsoftmax u slot obs s
  | .gather u slot obs => Sys2Proof.Machine.execGather u slot obs s
  | .scatter u slot obs => Sys2Proof.Machine.execScatter u slot obs s
  | .transpose u slot obs => Sys2Proof.Machine.execTranspose u slot obs s
  | .permute u slot obs => Sys2Proof.Machine.execPermute u slot obs s
  | .convert u slot obs => Sys2Proof.Machine.execConvert u slot obs s
  | .copy u slot obs => Sys2Proof.Machine.execCopy u slot obs s
  | .setFlag u slot => Sys2Proof.Machine.execSetFlag u slot s
  | .decrement u slot => Sys2Proof.Machine.execDecrement u slot s
  | .fence u slot => Sys2Proof.Machine.execFence u slot s
  | .chainComplete u slot => Sys2Proof.Machine.execChainComplete u slot s
  | .orderedCombine clu => Sys2Proof.Machine.execOrderedCombine clu s
  | .openRerun u slot => Sys2Proof.Machine.execOpenRerun u slot s
  | .scrubPass arr beats corrected detIdle => Sys2Proof.Machine.execScrubPass arr beats corrected detIdle s
  | .segmentWipeDone arr seg => Sys2Proof.Machine.execSegmentWipeDone arr seg s
  | .pmCaptureDone => Sys2Proof.Machine.execPmCaptureDone s
  | .pmRelease rq value mask => Sys2Proof.Machine.execPmRelease rq value mask s
  | .ringWaitRelease u slot => Sys2Proof.Machine.execRingWaitRelease u slot s
  | .ringWatchdog u slot => Sys2Proof.Machine.execRingWatchdog u slot s
  | .streamArm rq u ch value mask => Sys2Proof.Machine.execStreamArm rq u ch value mask s
  | .streamBlockDone u ch => Sys2Proof.Machine.execStreamBlockDone u ch s
  | .streamLate u ch => Sys2Proof.Machine.execStreamLate u ch s
  | .mmuWalkDone u ch => Sys2Proof.Machine.execMmuWalkDone u ch s
  | .resumeCtx rq value mask => Sys2Proof.Machine.execResumeCtx rq value mask s
  | .pfWaitExpire u ch => Sys2Proof.Machine.execPfWaitExpire u ch s
  | .invCtx rq value mask => Sys2Proof.Machine.execInvCtx rq value mask s
  | .gddrAccessDone addr write badBytes edc reader => Sys2Proof.Machine.execGddrAccessDone addr write badBytes edc reader s
  | .bodEntWrite rq value mask => Sys2Proof.Machine.execBodEntWrite rq value mask s
  | .bodEntRead rq => Sys2Proof.Machine.execBodEntRead rq s
  | .bulkGo rq value mask => Sys2Proof.Machine.execBulkGo rq value mask s
  | .bulkDone => Sys2Proof.Machine.execBulkDone s
  | .load rq value mask => Sys2Proof.Machine.execLoad rq value mask s
  | .loadAddr rq value mask => Sys2Proof.Machine.execLoadAddr rq value mask s
  | .loadEnd => Sys2Proof.Machine.execLoadEnd s
  | .start rq value mask => Sys2Proof.Machine.execStart rq value mask s
  | .admitBegin => Sys2Proof.Machine.execAdmitBegin s
  | .stop rq value mask => Sys2Proof.Machine.execStop rq value mask s
  | .stopEffect => Sys2Proof.Machine.execStopEffect s
  | .swap rq value mask => Sys2Proof.Machine.execSwap rq value mask s
  | .cleanBoundary => Sys2Proof.Machine.execCleanBoundary s
  | .swapWaitExpire => Sys2Proof.Machine.execSwapWaitExpire s
  | .discard rq value mask => Sys2Proof.Machine.execDiscard rq value mask s
  | .fallbackEntered => Sys2Proof.Machine.execFallbackEntered s
  | .fallbackAbort => Sys2Proof.Machine.execFallbackAbort s
  | .taskStart => Sys2Proof.Machine.execTaskStart s
  | .cancelCtx rq value mask => Sys2Proof.Machine.execCancelCtx rq value mask s
  | .digLogWrite => Sys2Proof.Machine.execDigLogWrite s
  | .odometry port aon frame => Sys2Proof.Machine.execOdometry port aon frame s
  | .vtime port aon frame => Sys2Proof.Machine.execVtime port aon frame s
  | .inhibit port frame => Sys2Proof.Machine.execInhibit port frame s
  | .clear port frame => Sys2Proof.Machine.execClear port frame s
  | .plnClear rq value mask => Sys2Proof.Machine.execPlnClear rq value mask s
  | .plnInhibit rq value mask => Sys2Proof.Machine.execPlnInhibit rq value mask s
  | .rspQuantumEnd inst test signatureOk => Sys2Proof.Machine.execRspQuantumEnd inst test signatureOk s
  | .quantumCut inst test => Sys2Proof.Machine.execQuantumCut inst test s
  | .diMissed inst test => Sys2Proof.Machine.execDiMissed inst test s
  | .diExpired inst test => Sys2Proof.Machine.execDiExpired inst test s
  | .rspReq rq value mask => Sys2Proof.Machine.execRspReq rq value mask s
  | .writeFirmware rq value mask => Sys2Proof.Machine.execWriteFirmware rq value mask s
  | .writeOptions rq value mask => Sys2Proof.Machine.execWriteOptions rq value mask s
  | .writeGraph rq value mask => Sys2Proof.Machine.execWriteGraph rq value mask s
  | .eraseGraph rq value mask => Sys2Proof.Machine.execEraseGraph rq value mask s
  | .writeKeys rq value mask => Sys2Proof.Machine.execWriteKeys rq value mask s
  | .raiseFwFloor rq value mask => Sys2Proof.Machine.execRaiseFwFloor rq value mask s
  | .writeFactory rq value mask => Sys2Proof.Machine.execWriteFactory rq value mask s
  | .storeDone => Sys2Proof.Machine.execStoreDone s
  | .attGo rq value mask => Sys2Proof.Machine.execAttGo rq value mask s
  | .attDone => Sys2Proof.Machine.execAttDone s
  | .audGo rq value mask => Sys2Proof.Machine.execAudGo rq value mask s
  | .audDone => Sys2Proof.Machine.execAudDone s
  | .audCkpt rq value mask => Sys2Proof.Machine.execAudCkpt rq value mask s
  | .auditDrain => Sys2Proof.Machine.execAuditDrain s
  | .lcToProvisioned rq value mask => Sys2Proof.Machine.execLcToProvisioned rq value mask s
  | .lcToService rq value mask => Sys2Proof.Machine.execLcToService rq value mask s
  | .lcToDiagnose rq value mask => Sys2Proof.Machine.execLcToDiagnose rq value mask s
  | .lcToReturn rq value mask => Sys2Proof.Machine.execLcToReturn rq value mask s
  | .lcToScrapped rq value mask => Sys2Proof.Machine.execLcToScrapped rq value mask s
  | .lcChanged => Sys2Proof.Machine.execLcChanged s
  | .auditProgramDone => Sys2Proof.Machine.execAuditProgramDone s
  | .scrubSlow arr => Sys2Proof.Machine.execScrubSlow arr s

end Sys2Proof.Machine
end

