-- ==== Sys2Proof/WellFormed.lean ====
section
/-! DEFINITION. The well-formed commands: an operand that is a list has the length its command gives it. -/

namespace Sys2Proof

/-- A command's lists have the lengths the spec gives: fifteen junction sensors (R50), a cell of 64 bytes (R78), a packet
header of 4 bytes (R108). -/
def Instr.wf : Instr → Bool
  | .beatBoundary _ temps => temps.length = 15
  | .cellReceive _ cell _ => cell.length = 64
  | .longPacket _ header _ _ => header.length = 4
  | .powerOn | .powerOnRelease _ _ _ | .plinthStartupCheck _ | .retrainCycleEnd _ _ | .recordLatch _ | .recordEmit
  | .faultWindow | .safeMark | .resetNFall | .resetNRise _ _ | .warmResetBegin | .warmRestart | .pdcOnReq _ _ _ _
  | .pdcRampStart | .domainReady _ | .domainWakeTimeout _ | .powerGoodLost _ | .pdcIdleOff _ | .sleepEnter _ _ _
  | .wakeTimer | .wakePd38Start | .regulatorProtection | .powerOnDetectorStop | .thermalTrip _ | .aonThermalStop
  | .refLoss | .clkRevert _ _ _ _ | .clkmFirstLock | .lossOfSignalAssert _ | .lossOfSignalDeassert _ | .laserEol _
  | .firmwareVerify _ | .optionPass _ | .blkSwrst _ _ _ _ | .blkResetIdle _ _ | .blkResetForced _ | .blkResetDone _
  | .blkEnWrite _ _ _ _ | .blkCommitGo _ _ _ _ | .commitApply _ _ | .blkEvtStatClear _ _ _ _
  | .blkEvtMaskWrite _ _ _ _ | .cntClr _ _ _ _ | .plainRegisterWrite _ _ _ | .regRd _ _ _ | .devBeatRead _
  | .hlBlockLock _ _ _ | .hello _ _ _ _ | .helloResend _ | .nak _ _ | .replayTmo _ | .credit _ _ _ _ _ | .idle _
  | .retrain _ _ _ _ | .retrainDone _ _ _ | .retrainTimeout _ | .lanesDarkTimeout _ | .keepalive _ | .memRd _ _ _
  | .memWr _ _ _ | .hostCompletion _ _ _ _ | .hostTimeout _ _ | .jobSubmit _ _ _ | .jobIntakeAdmit _
  | .sessionOpen _ _ | .sessionResponse _ _ | .sessionResult _ | .lockoutEnd _ | .nonceExpire _ | .sessionClose _
  | .recCopy _ _ | .evtLoss _ | .bootBegin _ _ | .bootBeginReady | .bootChunk _ _ _ | .bootEnd _ | .cpBlockLock _
  | .cpLockLoss _ | .transportPacket _ _ | .fs _ _ _ | .fe _ _ _ | .lsLe _ _ _ _ | .rowDeadline _ _ _
  | .fsDeadline _ _ | .tunPush _ _ _ | .tunnelSend _ | .tunnelAck _ _ _ | .tunAckTmo _ | .portEn _ _ _
  | .ifeFrameStart _ _ | .pqPush _ _ _ | .nodeStartClock _ _ | .rerunStart _ | .nodeFlagClock _ _ _ _
  | .recordWrite _ _ | .nodeDispatch _ | .nodeComplete _ _ _ | .matmul _ _ _ | .conv _ _ _ | .eltwiseAdd _ _ _
  | .eltwiseSub _ _ _ | .eltwiseMul _ _ _ | .eltwiseMax _ _ _ | .eltwiseMin _ _ _ | .fma _ _ _ | .scaleBias _ _ _
  | .abs _ _ _ | .neg _ _ _ | .clamp _ _ _ | .select _ _ _ | .cmpgt _ _ _ | .shift _ _ _ | .reduceSum _ _ _
  | .reduceSumsq _ _ _ | .reduceMax _ _ _ | .reduceMin _ _ _ | .argmax _ _ _ | .lutPwl _ _ _ | .lutDirect _ _ _
  | .normLayer _ _ _ | .normRms _ _ _ | .normL2 _ _ _ | .softmax _ _ _ | .logsoftmax _ _ _ | .gather _ _ _
  | .scatter _ _ _ | .transpose _ _ _ | .permute _ _ _ | .convert _ _ _ | .copy _ _ _ | .setFlag _ _
  | .decrement _ _ | .fence _ _ | .chainComplete _ _ | .orderedCombine _ | .openRerun _ _ | .scrubPass _ _ _ _
  | .segmentWipeDone _ _ | .pmCaptureDone | .pmRelease _ _ _ | .ringWaitRelease _ _ | .ringWatchdog _ _
  | .streamArm _ _ _ _ _ | .streamBlockDone _ _ | .streamLate _ _ | .mmuWalkDone _ _ | .resumeCtx _ _ _
  | .pfWaitExpire _ _ | .invCtx _ _ _ | .gddrAccessDone _ _ _ _ _ | .bodEntWrite _ _ _ | .bodEntRead _
  | .bulkGo _ _ _ | .bulkDone | .load _ _ _ | .loadAddr _ _ _ | .loadEnd | .start _ _ _ | .admitBegin | .stop _ _ _
  | .stopEffect | .swap _ _ _ | .cleanBoundary | .swapWaitExpire | .discard _ _ _ | .fallbackEntered
  | .fallbackAbort | .taskStart | .cancelCtx _ _ _ | .digLogWrite | .odometry _ _ _ | .vtime _ _ _ | .inhibit _ _
  | .clear _ _ | .plnClear _ _ _ | .plnInhibit _ _ _ | .rspQuantumEnd _ _ _ | .quantumCut _ _ | .diMissed _ _
  | .diExpired _ _ | .rspReq _ _ _ | .writeFirmware _ _ _ | .writeOptions _ _ _ | .writeGraph _ _ _
  | .eraseGraph _ _ _ | .writeKeys _ _ _ | .raiseFwFloor _ _ _ | .writeFactory _ _ _ | .storeDone | .attGo _ _ _
  | .attDone | .audGo _ _ _ | .audDone | .audCkpt _ _ _ | .auditDrain | .lcToProvisioned _ _ _ | .lcToService _ _ _
  | .lcToDiagnose _ _ _ | .lcToReturn _ _ _ | .lcToScrapped _ _ _ | .lcChanged | .auditProgramDone | .scrubSlow _ => true

end Sys2Proof
end

