-- ==== Sys2Proof/Safety.lean ====
section
/-! DEFINITION. What a safe run is, and the terms the claims are stated in: the invariant of the machine, a register write
that every check lets through, a tensor command that may run. -/

namespace Sys2Proof

/-- The queue's front command runs and leaves a next state. -/
def Machine.State.goesOn (s : Machine.State) : Prop := ∃ t, Machine.step s = .next t

/-- Every step of a run of `k` commands goes on. -/
def Machine.State.safeFor (s : Machine.State) (k : Nat) : Prop := ∃ t, Sys2Proof.core.run k s = .next t

namespace Machine

/-- Every list with one entry per unit of the device holds exactly those entries. -/
def State.Sized (s : State) : Prop :=
  s.link.ports.length = 2 ∧ s.clusters.length = 6 ∧ s.power.domains.length = 39 ∧ s.vision.ports.length = 12
    ∧ s.vision.streams.length = 32 ∧ s.vision.ife.length = 8 ∧ s.fabric.channels.length = 144
    ∧ s.fabric.cores.length = 24 ∧ s.plinth.pairs.length = 16

/-- The invariant of the machine: memory and register files in their canonical forms, one entry per unit in every list of
units, every waiting command well-formed. -/
structure State.Inv (s : State) : Prop where
  mem : Mem.wf s.fabric.mem
  regs : RegFile.wf s.regs
  shadow : RegFile.wf s.shadow
  sized : s.Sized
  queue : ∀ c ∈ s.pending, c.wf = true

/-! ### Register writes -/

/-- A REG_WR of one word whose port is UP and which passes every check (R87, R89). -/
def State.accepts (s : State) (rq : Req) (p : Page) (w : Nat) (v m : Word) : Prop :=
  s.portUp rq.port = true ∧ (s.writeCheck rq (p.num * 4096 + w) [(v.toNat, m.toNat)]).1 = 0

/-- The mask covers bits of one field of the word and of no other. -/
def Page.only (p : Page) (w : Nat) (m : Word) (f : RField) (i j : Nat) : Prop := p.touches w m.toNat = [(f, i, j)]

/-- The completion OK of a register write, held by its audit entry (R449, R450). -/
def State.wrote (s : State) (rq : Req) (p : Page) (w : Nat) (v m : Word) : State :=
  s.completeAudited rq 0x82 0 0x20 (regAuditData (p.num * 4096 + w) [(v.toNat, m.toNat)])

/-! ### Tensor commands -/

/-- A command of a class and operation that a core may run now: its node waits for nothing, the word passes its checks,
its operands meet no segment that is being wiped, no poisoned ring input, and no ring it would wait for, read beyond
its tail or write while full. -/
structure State.MayRun (s : State) (u slot cls op : Nat) (x : Issue) : Prop where
  issue : s.issueOf u slot = some x
  valid : s.issueFault x = none
  cls : x.c.cls = cls
  op : x.c.op = op
  memory : s.meetsWipe x = false
  poison : s.meetsPoison x = false
  waits : s.ringWait x = none
  filled : s.underrun x = []
  room : s.overwrite x = []

end Machine

end Sys2Proof
end

