-- ==== Sys2Proof/Certificates/Slice0/Obligations.lean ====
section
/-! DEFINITION. The statements about the machine, for the provers. -/

section

open Sys2Proof Sys2Proof.Machine

/-! ### The machine -/

/-- A step runs the command at the front of the queue, on the state with the queue's rest. The model's own choice (log 1): a
block without a waiting command stays as it is. -/
def Obligations.StepRunsFrontCommand : Prop :=
  (∀ (c : Instr) (l : List Instr) (s : State), step { s with pending := c :: l } = exec c { s with pending := l })
  ∧ (∀ s : State, s.pending = [] → step s = .next s)

/-- What reset leaves: no power, every domain off, every field of every register at its after-reset value and no shadow written,
memory of zeros, no beat counted, no record latched, no graph set loaded or running, no challenge open, nothing sent, nothing
waiting. -/
def Obligations.ResetState : Prop :=
  (∀ (p : Page) (f : RField) (i j : Nat), State.reset.rd p f i j = f.rst ∧ State.reset.rdShadow p f i j = f.rst)
  ∧ (∀ a, memGet a State.reset.fabric.mem = 0) ∧ (∀ d, State.reset.domain d = .off)
  ∧ State.reset.power.run = .unpowered ∧ State.reset.time.beatNo = 0 ∧ State.reset.time.seq = 0
  ∧ State.reset.plinth.safe = false ∧ State.reset.plinth.latched = none ∧ State.reset.amt.running = none
  ∧ State.reset.amt.maquette = none ∧ (∀ p, (State.reset.port p).challenge = none) ∧ State.reset.pending = []
  ∧ State.reset.wire = []

/-- The state after reset meets the machine's invariant. -/
def Obligations.ResetMeetsInvariant : Prop := State.reset.Inv

/-- Every step keeps the machine's invariant: memory and register files in canonical form, one entry per unit in every list of
units, every waiting command well-formed. -/
def Obligations.StepsKeepInvariant : Prop := ∀ s t : State, s.Inv → step s = .next t → t.Inv

/-- No command touches the queue, takes back what has been sent, or hands out a free value twice. -/
def Obligations.CommandsOnlyAppend : Prop :=
  ∀ (c : Instr) (s t : State), exec c s = .next t →
    t.pending = s.pending ∧ s.wire <:+ t.wire ∧ s.draws ≤ t.draws

/-- Every well-formed command goes on to a next state; the three whose lists have a length stop where they do not have it. -/
def Obligations.WellFormedCommandsGoOn : Prop :=
  (∀ (c : Instr) (s : State), c.wf = true → ∃ t, exec c s = .next t)
  ∧ (∀ (c : Instr) (s : State), c.wf = false →
      exec c s = .fault (.illFormed "BEAT_BOUNDARY") ∨ exec c s = .fault (.illFormed "CELL_RECEIVE")
        ∨ exec c s = .fault (.illFormed "LONG_PACKET"))

/-- R6: BEAT_NO increments by exactly one at a beat boundary, and no other command changes it. It is 0 from the start of the
power on, through the release that begins beat 0, and no boundary counts before that release. -/
def Obligations.BeatsCountByOne : Prop :=
  (∀ (s t : State) (vin : BitVec 16) (temps : List Int), temps.length = 15 → (s.plinthOn = true ∨ s.power.run = .failedCheck) →
    t = s.beat vin.toNat temps →
    exec (.beatBoundary vin temps) s = .next t ∧ t.time.beatNo = s.time.beatNo + 1)
  ∧ (∀ (c : Instr) (s t : State), exec c s = .next t → (∀ vin temps, c ≠ .beatBoundary vin temps) →
    c ≠ .powerOn → c ≠ .powerOnDetectorStop → c ≠ .aonThermalStop → t.time.beatNo = s.time.beatNo)
  ∧ (∀ (c : Instr) (s t : State), exec c s = .next t → c = .powerOn ∨ c = .powerOnDetectorStop ∨ c = .aonThermalStop →
    t = s ∨ t.time.beatNo = 0)
  ∧ (∀ (s : State) (vin : BitVec 16) (temps : List Int), temps.length = 15 → s.power.run = .starting →
    exec (.beatBoundary vin temps) s = .next s)

/-- A register reads as it was last written, to the width of its field; every other place of the register file stays as it was. -/
def Obligations.RegistersHoldWrites : Prop :=
  ∀ (s : State) (p q : Page) (f g : RField) (v i j k l : Nat), RegFile.wf s.regs →
    RegFile.wf (s.wr p f v i j).regs ∧ (s.wr p f v i j).rd p f i j = v % 2 ^ f.width
    ∧ (g.key q k l ≠ f.key p i j → (s.wr p f v i j).rd q g k l = s.rd q g k l)
    ∧ s.wr p f v i j = { s with regs := (s.wr p f v i j).regs }

/-- Device memory reads as it was last written; every byte outside what was written stays as it was; wiping leaves zeros. -/
def Obligations.MemoryHoldsWrites : Prop :=
  ∀ (s : State) (a : Nat) (data : List Byte), Mem.wf s.fabric.mem →
    Mem.wf (s.store a data).fabric.mem ∧ (s.store a data).load a data.length = data
    ∧ (∀ b, b < a ∨ a + data.length ≤ b → memGet b (s.store a data).fabric.mem = memGet b s.fabric.mem)
    ∧ (∀ n b, memGet b (s.wipe a n).fabric.mem = if a ≤ b ∧ b < a + n then 0 else memGet b s.fabric.mem)

/-- Commands that store nothing: those of the host links (but what a received cell carries), the cameras' (but a row's
deadline), the sessions', the records' and a few events leave memory and everything else of the fabric, the clusters,
the self-tests, the store and the life cycle, the power domains, the shadows, the blocks in reset and the open tasks as they were. -/
def Obligations.CommandsThatStoreNothing : Prop :=
  ∀ (s t : State) (c : Instr),
    (match c with
      | .cpBlockLock _ | .cpLockLoss _ | .fs _ _ _ | .fe _ _ _ | .lsLe _ _ _ _ | .longPacket _ _ _ _ | .fsDeadline _ _
      | .tunnelSend _ | .tunnelAck _ _ _ | .tunAckTmo _ | .transportPacket _ _ | .ifeFrameStart _ _ | .recordEmit | .faultWindow
      | .safeMark | .refLoss | .clkmFirstLock | .laserEol _ | .hlBlockLock _ _ _ | .hello _ _ _ _ | .helloResend _ | .nak _ _
      | .replayTmo _ | .credit _ _ _ _ _ | .idle _ | .retrainDone _ _ _ | .lossOfSignalAssert _ | .lossOfSignalDeassert _
      | .memRd _ _ _ | .jobSubmit _ _ _ | .jobIntakeAdmit _ | .sessionOpen _ _ | .sessionResponse _ _ | .sessionResult _
      | .lockoutEnd _ | .nonceExpire _ | .sessionClose _ | .recCopy _ _ | .evtLoss _ | .bootBeginReady => True
      | _ => False) →
    exec c s = .next t →
    t.fabric = s.fabric ∧ t.clusters = s.clusters ∧ t.rasp = s.rasp ∧ t.mgc.store = s.mgc.store
      ∧ t.mgc.lifeCycle = s.mgc.lifeCycle ∧ t.power = s.power ∧ t.shadow = s.shadow ∧ t.resets = s.resets
      ∧ t.amt.tasks = s.amt.tasks

/-! ### Power, reset and supply -/

/-- R51–R53, R63, R453: power on and its loss. Everything but the store, the queue and what has been sent starts again; the
release counts the cold start and begins in beat 0; a failed check of the halves leaves the safety ports dark. -/
def Obligations.PowerOnCompletes : Prop :=
  (∀ (s t : State) (run : RunPhase), t = s.withoutPower run →
    (t.power.run = run ∧ t.time = State.reset.time ∧ t.regs = [] ∧ t.shadow = [] ∧ t.fabric = State.reset.fabric
      ∧ t.retention = State.reset.retention ∧ t.plinth = State.reset.plinth ∧ t.amt = State.reset.amt
      ∧ t.link = State.reset.link ∧ t.vision = State.reset.vision ∧ t.rasp = State.reset.rasp
      ∧ (∀ d, t.domain d = .off) ∧ t.wire = s.wire ∧ t.pending = s.pending
      ∧ t.mgc.store = (if s.mgc.toProgram.isEmpty then s.mgc.store else { s.mgc.store with auditTorn := true }))
    ∧ (s.power.run = .unpowered ∨ s.power.run = .stopped false → run = .starting → exec .powerOn s = .next t)
    ∧ (s.power.run ≠ .unpowered → run = .stopped false → exec .powerOnDetectorStop s = .next t)
    ∧ ((∀ b, s.power.run ≠ .stopped b) → s.power.run ≠ .unpowered → run = .stopped true → exec .aonThermalStop s = .next t))
  ∧ (∀ (s : State) (boot clkm : Fin 4) (high : Bool), s.power.run = .starting →
    ∃ t, exec (.powerOnRelease boot clkm high) s = .next t ∧ t.power.run = .cold ∧ t.power.resetLow = !high
      ∧ t.power.firstBeat = (if high then some 250 else none) ∧ t.power.coldPending = true
      ∧ t.mgc.store = { s.mgc.store with coldStarts := s.mgc.store.coldStarts + 1 }
      ∧ t.mgc.lifeCycle = (if s.mgc.store.scrapped then 6 else s.mgc.store.keyBlock.lifeCycle)
      ∧ t.time = s.time ∧ t.fabric = s.fabric)
  ∧ (∀ (s : State) (ok : Bool), s.power.run = .cold → s.power.checkPassed = false →
    exec (.plinthStartupCheck ok) s = .next { s with power :=
      if ok then { s.power with checkPassed := true } else { s.power with run := .failedCheck } })

/-- R50, R474, "Supply monitoring": the regulators' protection and the 120 degree comparator switch PD00–PD38 off, hold
them off and add a cause 0x02; a beat's samples of VIN and of the fifteen sensors are kept. -/
def Obligations.SupplyProtectionCompletes : Prop :=
  (∀ s : State, s.plinthOn = true → exec .regulatorProtection s = .next (s.protect.addCause 2 0x81))
  ∧ (∀ (s : State) (i : Fin 15), s.plinthOn = true →
    ∃ t u : State, exec (.thermalTrip i) s = .next t ∧ u = (s.protect.addCause 2 i.val).fault .clk 0x9013 [] true
      ∧ t = { u with sensors := { u.sensors with trips := setInsert i.val u.sensors.trips } })
  ∧ (∀ (s : State), s.domainReady 37 = true → s.rd .clk CLK.ACTIVE_SRC ≠ 0 → s.rd .clk CLK.HOLDOVER = 0 →
    exec .refLoss s = .next (((s.wr .clk CLK.HOLDOVER 1).wr .clk CLK.ACTIVE_SRC 0).fault .clk 0x9001))
  ∧ (∀ (s : State), s.domainReady 37 = true → s.rd .clk CLK.STRAP_CLKM = 2 → s.clock.hl0Locked = true →
    s.clock.firstMoveDone = false →
    exec .clkmFirstLock s
      = .next (({ s with clock := { s.clock with firstMoveDone := true } } : State).wr .clk CLK.ACTIVE_SRC 2))
  ∧ (∀ (s : State) (tx : Transmitter), s.plinthOn = true →
    (match tx with
      | .cam n => s.domainReady (camDomain n.val)
      | .hl p _ => s.domainReady (33 + p.val)
      | .sl _ => s.power.checkPassed) = true →
    exec (.laserEol tx) s
      = .next (s.fault (match tx with | .cam _ => .cpx | .hl p _ => .hlk p.val | .sl _ => .pln) 0x9030 [txPort tx]))

/-- R42–R44: the next domain in order starts its ramp, becomes ready, or has its ramp run out; a lost power-good and an
idle core switch it off. -/
def Obligations.DomainCommandsComplete : Prop :=
  (∀ (s : State) (d : Nat), s.nextRamp = some d → (∀ b, s.power.lastRamp = some b → b + 2 ≤ s.time.beatNo) →
    s.domainReady 38 = true →
    ∃ t u : State, exec .pdcRampStart s = .next t ∧ u = s.setDomain d (.ramping s.time.beatNo)
      ∧ t = { u with power := { u.power with lastRamp := some s.time.beatNo, queue := u.power.queue.filter (· ≠ d) } })
  ∧ (∀ (s : State) (pd : Fin 39) (b : Nat), s.domain pd.val = .ramping b → (pd.val = 38 → s.mgcMayStart = true) →
    exec (.domainReady pd) s = .next (s.becomeReady pd.val))
  ∧ (∀ (s : State) (pd : Fin 39) (b : Nat), s.domain pd.val = .ramping b → b + domWake pd.val < s.time.beatNo →
    exec (.domainWakeTimeout pd) s
      = .next ((((s.powerOffTree pd.val).fault .pdc 0x9040 [pd.val]).unitFailed pd.val 0x9040).checkBringup))
  ∧ (∀ (s : State) (pd : Fin 39), s.domainOff pd.val = false →
    (pd.val < 24 → exec (.powerGoodLost pd) s = .next (s.coreGood pd.val))
    ∧ (24 ≤ pd.val → pd.val < 30 → exec (.powerGoodLost pd) s = .next (s.clusterGood (pd.val - 24)))
    ∧ (pd.val = 33 ∨ pd.val = 34 → exec (.powerGoodLost pd) s = .next (s.powerOff pd.val))
    ∧ (pd.val = 30 ∨ 35 ≤ pd.val → s.lockedRuns = true → ∃ l, exec (.powerGoodLost pd) s
        = .next (((s.addCause 2 (0xC0 + pd.val)).powerOffAll l).holdOff l)))
  ∧ (∀ (s : State) (u : Fin 24) (b : Nat), s.rd .pdc PDC.AUTO_MODE = 1 → s.domainReady u.val = true → u.val ∉ s.neededCores →
    s.power.idleSince.find? (·.1 = u.val) = some (u.val, b) → b + s.rd .pdc PDC.IDLE_OFF ≤ s.time.beatNo →
    exec (.pdcIdleOff u) s = .next ((s.setRequest u.val false).powerOff u.val))

/-- R46, R47: the wake timer's beat, and the start of PD38 at a wake. -/
def Obligations.WakeCompletes : Prop :=
  (∀ s : State, s.rd .pdc PDC.IN_SLEEP = 1 → s.power.sleepExit = false → s.power.wakeAt = none →
    s.rd .pdc PDC.WAKE_TIMER_EN = 1 → s.time.beatNo = s.rd2 .pdc PDC.WAKE_BEAT_LO PDC.WAKE_BEAT_HI →
    exec .wakeTimer s
      = .next (({ s with power := { s.power with wakeAt := some (s.time.beatNo + 1) } } : State).wr .pdc PDC.LAST_WAKE 1))
  ∧ (∀ (s t : State) (b : Nat), s.power.wakeAt = some b → s.rd .pdc PDC.IN_SLEEP = 1 → s.power.sleepExit = false →
    b ≤ s.time.beatNo → s.power.warm = none → t = { s with power := { s.power with sleepExit := true } } →
    (s.domainReady 38 = true → exec .wakePd38Start s = .next t.mgcRequests.checkBringup)
    ∧ (s.domainReady 38 = false → exec .wakePd38Start s = .next t.startPd38))

/-- R53, R59, R60: RESET_N falls before b1 and after it, rises, and the warm reset's own steps. -/
def Obligations.WarmResetCompletes : Prop :=
  (∀ s : State, s.power.resetLow = false → s.power.run = .cold →
    exec .resetNFall s = .next { s with power := { s.power with resetLow := true, firstBeat := none } })
  ∧ (∀ s t : State, s.power.resetLow = false → s.power.run = .on →
    t = { s with power := { s.power with resetLow := true, warm := some ⟨s.time.beatNo + 1, false, false⟩ } } →
    exec .resetNFall s = .next ((if s.asleep then t.wr .pdc PDC.LAST_WAKE 3 else t).addCause 1 0xFF))
  ∧ (∀ (s : State) (boot clkm : Fin 4), s.power.resetLow = true → s.plinthOn = true →
    exec (.resetNRise boot clkm) s
      = .next (({ s with power := { s.power with resetLow := false, riseBeat := s.time.beatNo, firstBeat :=
          (if s.power.run = .cold then some (max 250 (s.time.beatNo + 1)) else s.power.firstBeat) } } : State).sampleStraps
          boot.val clkm.val))
  ∧ (∀ (s : State) (w : Nat), s.power.warm = some ⟨w, false, false⟩ → w ≤ s.time.beatNo →
    ∃ t, exec .warmResetBegin s = .next t ∧ t.power.warm = some ⟨w, true, false⟩ ∧ t.power.queue = []
      ∧ t.power.heldOff = [] ∧ t.power.wakeAt = none ∧ t.power.sleepExit = false ∧ t.power.sleepDomains = []
      ∧ t.power.bringupFrom = w ∧ t.power.optionsDone = false ∧ t.power.firmwareChecked = false
      ∧ t.vision = VisionState.fresh ∧ t.sensors.trips = [])
  ∧ (∀ (s : State) (w : Nat), s.power.warm = some ⟨w, true, false⟩ → s.power.resetLow = false →
    max (s.power.riseBeat + 1) (w + 4) ≤ s.time.beatNo →
    exec .warmRestart s
      = .next (({ s with power := { s.power with warm := some ⟨w, true, true⟩ } } : State).startPd38))

/-- R56, R57, R58, R67: the firmware check and the option pass while PD38 ramps. -/
def Obligations.BootChecksComplete : Prop :=
  (∀ (s : State) (b : Nat) (h : List Byte), s.domain 38 = .ramping b → s.power.firmwareChecked = false →
    s.power.linkBoot = false → s.rd .rstc RSTC.STRAP_BOOT < 2 → h = s.mgc.store.fwHeader →
    exec (.firmwareVerify true) s = .next (((s.fault .mgc 0x1050).fault .mgc 0x8010).awaitBoot)
    ∧ ((s.mgc.store.fwSigned h && fwBodyOk h s.mgc.store.firmware) = false →
        exec (.firmwareVerify false) s = .next ((s.fault .mgc 0x8010).awaitBoot))
    ∧ ((s.mgc.store.fwSigned h && fwBodyOk h s.mgc.store.firmware) = true →
        (fwVersionOf h < s.mgc.store.keyBlock.fwFloor → exec (.firmwareVerify false) s = .next ((s.fault .mgc 0x8011).awaitBoot))
        ∧ (s.mgc.store.keyBlock.fwFloor ≤ fwVersionOf h → exec (.firmwareVerify false) s = .next (s.runFirmware h))))
  ∧ (∀ s : State, s.passRunning = true →
    exec (.optionPass true) s = .next ((s.wr .opl OPL.STATE 1).passFailed 3 0xFFFF))
  ∧ (∀ (s t t2 : State) (fac rs : List OptRec), s.passRunning = true → s.optPlan = (false, false) →
    fac = s.mgc.store.factory.layer.map (fun x => OptRec.mk x.1 x.2.1 x.2.2.1 (x.2.2.2.testBit 0)) →
    rs = optRecords s.mgc.store.options → s.mgc.store.factory.valid = true →
    optLayer false fac 0 s.optStart = .ok t → optImageFail s.mgc.store.options = 0 → optLayer true rs 0 t = .ok t2 →
    exec (.optionPass false) s
      = .next ((((s.wr .opl OPL.STATE 1).applyOptions t2).passDone 2 (fac.length + rs.length)
          (sha256 (slice s.mgc.store.options 64 (16 * rs.length)))).afterOptions))

/-! ### The host links -/

/-- R75–R77, R83: a port's lane lock, HELLO and its repetition, up to the moment it comes UP. -/
def Obligations.LinkComesUp : Prop :=
  (∀ (s t : State) (port : Fin 2) (rx partner : BitVec 4) (p : Nat), p = port.val → s.hlkOn p = true →
    (s.rd (.hlk p) HLK.LINK_STATE = 1 ∨ s.rd (.hlk p) HLK.LINK_STATE = 2) →
    (rx.toNat &&& 3 = 3 ∨ rx.toNat &&& 12 = 12) → t = s.setRxLock p rx.toNat →
    (t.chooseWidth p (rx.toNat &&& partner.toNat) = none → exec (.hlBlockLock port rx partner) s = .next (t.linkState p 2))
    ∧ (∀ w, t.chooseWidth p (rx.toNat &&& partner.toNat) = some w →
        exec (.hlBlockLock port rx partner) s = .next (t.negotiate p w)))
  ∧ (∀ (s : State) (port : Fin 2) (versions : BitVec 16) (lock : BitVec 4) (width : BitVec 2) (w p : Nat), p = port.val →
    s.rd (.hlk p) HLK.LINK_STATE = 3 → s.chooseWidth p ((s.port p).rxLock &&& lock.toNat) = some w →
    (versions.toNat.testBit 1 = true →
      exec (.hello port versions lock width) s = .next ((s.wr (.hlk p) HLK.WIDTH w).comeUp p))
    ∧ (versions.toNat.testBit 1 = false → (s.port p).versionNoneSent = false →
      exec (.hello port versions lock width) s
        = .next ((((s.wr (.hlk p) HLK.WIDTH w).setPort p { s.port p with versionNoneSent := true }).fault (.hlk p) 0x2030))))
  ∧ (∀ (s : State) (port : Fin 2), s.rd (.hlk port.val) HLK.LINK_STATE = 3 →
    (s.port port.val).lastHello + (if (s.port port.val).versionNoneSent then 500 else 10) ≤ s.time.beatNo →
    exec (.helloResend port) s = .next (s.sendHello port.val))

/-- R78, R79: a received cell. One that fails its CRC or its codeword is discarded and counted; one that holds is taken. -/
def Obligations.CellReceiveCompletes : Prop :=
  ∀ (s t : State) (port : Fin 2) (cell : List Byte) (fec : FecResult), cell.length = 64 → s.hlkOn port.val = true →
    (s.rd (.hlk port.val) HLK.LINK_STATE = 3 ∨ s.rd (.hlk port.val) HLK.LINK_STATE = 4) → t = s.takeFec port.val fec →
    (fec ≠ .uncorrectable → field cell 60 4 = crc32c (cell.take 60) →
      exec (.cellReceive port cell fec) s = .next (t.takeCell port cell))
    ∧ ((fec = .uncorrectable ∨ field cell 60 4 ≠ crc32c (cell.take 60)) →
      exec (.cellReceive port cell fec) s = .next (t.discardCell port.val))

/-- R79, R83: a NAK frees what came before it and starts a replay; a replay time-out starts one at the oldest cell;
received credits are added and what waited for them leaves; an idle port sends an IDLE cell. -/
def Obligations.LinkControlCompletes : Prop :=
  ∀ (s : State) (port : Fin 2) (p : Nat), p = port.val → s.portUp p = true →
    (∀ lseq : BitVec 12,
      exec (.nak port lseq) s = .next ((s.takeAck p ((lseq.toNat + 4095) % 4096)).replayFrom p lseq.toNat))
    ∧ (∀ (c : TxCell) (r : List TxCell), (s.port p).replay = c :: r →
      (s.port p).lastAckProgress + s.rd (.hlk p) HLK.REPLAY_TMO ≤ s.time.beatNo →
      exec (.replayTmo port) s = .next (s.replayFrom p c.lseq))
    ∧ (∀ (a b c d : BitVec 16) (x : List Nat), x = (s.port p).txCredits →
      exec (.credit port a b c d) s
        = .next ((s.setPort p { s.port p with txCredits :=
            [nth x 0 + a.toNat, nth x 1 + b.toNat, nth x 2, nth x 3 + d.toNat] }).pump p))
    ∧ exec (.idle port) s
        = .next ((s.setPort p { s.port p with lastTx := s.time.beatNo }).emit (.cell p (controlCell (s.port p) 0 [])))

/-- R80–R82, R34: the end of a retrain, and what takes a port down: a retrain that lasts, dark lanes, no cell within
KEEPALIVE. -/
def Obligations.LinkGoesDown : Prop :=
  ∀ (s : State) (port : Fin 2) (p : Nat), p = port.val →
    (∀ (rx partner : BitVec 4) (t u : State) (w : Nat), s.rd (.hlk p) HLK.LINK_STATE = 5 →
      s.time.beatNo ≤ (s.port p).retrainSince + 500 → t = s.setRxLock p rx.toNat →
      t.chooseWidth p (rx.toNat &&& partner.toNat) = some w →
      u = ((t.wr (.hlk p) HLK.WIDTH w).wr (.hlk p) HLK.LINK_STATE 4).fault (.hlk p)
        (if s.rd (.hlk p) HLK.WIDTH = 3 && w ≠ 3 then 0x2021 else 0x2020) →
      exec (.retrainDone port rx partner) s
        = .next (((u.setPort p { u.port p with lastRx := u.time.beatNo }).resendFrom p (u.port p).replay).pump p))
    ∧ (s.rd (.hlk p) HLK.LINK_STATE = 5 → (s.port p).retrainSince + 500 < s.time.beatNo →
      exec (.retrainTimeout port) s = .next (s.linkDown p 1))
    ∧ (∀ b, (s.port p).darkSince = some b → s.hlkOn p = true → b + 5 ≤ s.time.beatNo →
      exec (.lanesDarkTimeout port) s = .next (s.linkDown p 1))
    ∧ (s.portUp p = true → (s.port p).lastRx + s.rd (.hlk p) HLK.KEEPALIVE ≤ s.time.beatNo →
      exec (.keepalive port) s = .next (s.linkDown p 1))

/-- R34: loss of signal and its end at every receiver. -/
def Obligations.SignalCommandsComplete : Prop :=
  (∀ (s : State) (n : Fin 12), exec (.lossOfSignalAssert (.cam n)) s = .next (s.camLoseSignal n.val)
    ∧ exec (.lossOfSignalDeassert (.cam n)) s
        = .next (s.wr .cpx CPX.LOS (putBits (s.rd .cpx CPX.LOS) n.val 1 0)))
  ∧ (∀ (s : State) (p : Fin 2) (lane : Fin 4), s.hlkOn p.val = true →
    exec (.lossOfSignalAssert (.hl p lane)) s = .next (s.laneDark p.val lane.val)
    ∧ ∃ t : State, exec (.lossOfSignalDeassert (.hl p lane)) s = .next t
        ∧ t.regs = (s.wr (.hlk p.val) HLK.LANE_LOS (putBits (s.rd (.hlk p.val) HLK.LANE_LOS) lane.val 1 0)).regs
        ∧ t = { s with regs := t.regs, link := t.link } ∧ (s.Sized → t.port p.val = { s.port p.val with darkSince := none }))
  ∧ (∀ (s : State) (p : Fin 2), s.plinthOn = true →
    exec (.lossOfSignalAssert (.sl p)) s
      = .next ((s.wr .pln PLN.SL_LOS (putBits (s.rd .pln PLN.SL_LOS) p.val 1 1)).fault .pln 0x2201 [p.val])
    ∧ exec (.lossOfSignalDeassert (.sl p)) s = .next (s.wr .pln PLN.SL_LOS (putBits (s.rd .pln PLN.SL_LOS) p.val 1 0)))

/-! ### Messages of the host -/

/-- R90, R91: an accepted MEM_WR stores exactly its bytes, and nothing else changes but what leaves the device; an accepted
MEM_RD answers the bytes that stand there and leaves memory alone. -/
def Obligations.BulkMemoryCompletes : Prop :=
  (∀ (s : State) (rq : Req) (addr : BitVec 64) (data : List Byte), s.portUp rq.port = true →
    s.memWriteStatus rq addr.toNat data.length = 0 → Mem.wf s.fabric.mem →
    ∃ t : State, exec (.memWr rq addr data) s = .next t
      ∧ t = { s with fabric := t.fabric, link := t.link, wire := t.wire }
      ∧ t.fabric = (s.store addr.toNat data).fabric
      ∧ (∀ (i : Nat) (h : i < data.length), memGet (addr.toNat + i) t.fabric.mem = data[i])
      ∧ (∀ a, a < addr.toNat ∨ addr.toNat + data.length ≤ a → memGet a t.fabric.mem = memGet a s.fabric.mem))
  ∧ (∀ (s : State) (rq : Req) (addr : BitVec 64) (len : BitVec 16), s.portUp rq.port = true → s.sidStatus rq = 0 →
    s.memStatus addr.toNat len.toNat = 0 → s.memBusy addr.toNat len.toNat = false →
    ∃ (t : State) (bad : Nat), exec (.memRd rq addr len) s = .next t ∧ bad = s.poisonMap addr.toNat len.toNat
      ∧ t = s.complete rq 0xB0 (if bad = 0 then 0 else 0x09) bad (s.load addr.toNat len.toNat)
      ∧ t = { s with link := t.link, wire := t.wire })

/-- R86, R92–R94: the host's completion of a device read stores its data where it was wanted, a write's ends the request, one that
does not come in time fails it. A valid job message spends a VC2 credit and waits for the writes before it; once they have
completed the oldest one enters the intake queue. -/
def Obligations.HostTransfersComplete : Prop :=
  (∀ (s : State) (port : Fin 2) (tag : BitVec 16) (r : HostReq) (p : Nat), p = port.val →
    (s.port p).hostReqs.find? (·.tag = tag.toNat) = some r →
    (∀ (data : List Byte) (t : State), s.portUp p = true →
      t = s.setPort p { s.port p with hostReqs := (s.port p).hostReqs.filter (·.tag ≠ tag.toNat) } →
      (r.write = false → data.length = r.len →
        exec (.hostCompletion port tag 0 data) s = .next ((t.markWrite r.ctx r.dest).store r.dest data))
      ∧ (r.write = true → exec (.hostCompletion port tag 0 data) s = .next t))
    ∧ (r.beat + s.rd (.hlk p) HLK.HOST_TMO ≤ s.time.beatNo → exec (.hostTimeout port tag) s = .next (s.hostFailed p r)))
  ∧ (∀ (s : State) (rq : Req) (param : BitVec 16) (body : List Byte), s.portUp rq.port = true →
    s.rd (.hlk rq.port) HLK.VC2_GRANTED ≠ 0 → s.jobValid rq param.toNat body = true →
    exec (.jobSubmit rq param body) s
      = .next ((s.wr (.hlk rq.port) HLK.VC2_GRANTED (s.rd (.hlk rq.port) HLK.VC2_GRANTED - 1)).setPort rq.port
          { s.port rq.port with jobs := (s.port rq.port).jobs ++ [⟨rq.port, rq.sid, param.toNat, body, (s.port rq.port).tickets⟩] }))
  ∧ (∀ (s : State) (port : Fin 2) (j : JobMsg) (l : List JobMsg), (s.port port.val).jobs = j :: l → j.waits = [] →
    s.pageOn .amt = true → s.Sized →
    ∃ t : State, exec (.jobIntakeAdmit port) s = .next t ∧ t.link.intake = s.link.intake ++ [j.job]
      ∧ t.port port.val = { s.port port.val with jobs := l } ∧ t = { s with link := t.link })

/-- R98–R101: the messages of a session, the device's decision on a response, and the times that end a lockout and a nonce. A
verified response opens the role's session and zeroes the port's failures; the third failure in a row locks the port out. -/
def Obligations.SessionCommandsComplete : Prop :=
  (∀ (s : State) (rq : Req) (role : Fin 4), s.portUp rq.port = true → rq.sid = 0 → s.openBusy rq.port role = false →
    role.val ≠ 0 → s.power.linkBoot = false → (s.lifeCycle = 6 → role.val = 3) →
    exec (.sessionOpen rq role) s
      = .next (((s.drawBytes 32).2.setPort rq.port { (s.drawBytes 32).2.port rq.port with
          challenge := some ⟨(s.drawBytes 32).1, s.time.beatNo, role⟩ }).complete rq 0x90 0 0 (s.drawBytes 32).1))
  ∧ (∀ (s : State) (rq : Req) (sig : List Byte) (c : Challenge), s.portUp rq.port = true → rq.sid = 0 →
    (s.port rq.port).response = none → (s.port rq.port).challenge = some c → s.time.beatNo < c.beat + 5000000 →
    exec (.sessionResponse rq sig) s
      = .next (s.setPort rq.port { s.port rq.port with challenge := none, response := some ⟨some c, rq.tag.toNat, sig⟩ }))
  ∧ (∀ (s t : State) (port : Fin 2) (r : Response) (rq : Req), (s.port port.val).response = some r →
    t = s.setPort port.val { s.port port.val with response := none } → rq = ⟨port, 0, BitVec.ofNat 16 r.tag⟩ →
    (∀ role, s.responseOk port.val r = some role → exec (.sessionResult port) s = .next (t.sessionOpened rq role))
    ∧ (∀ c, s.responseOk port.val r = none → r.challenge = some c →
        exec (.sessionResult port) s = .next (t.sessionFailed rq c.role)))
  ∧ (∀ (s : State) (port : Fin 2) (e : Nat), (s.port port.val).lockoutEnd = some e → e ≤ s.time.beatNo →
    exec (.lockoutEnd port) s
      = .next (((s.setPort port.val { s.port port.val with lockoutEnd := none }).wr (.hlk port.val) HLK.LOCKOUT 0).wr
          (.hlk port.val) HLK.AUTH_FAILS 0))
  ∧ (∀ (s : State) (port : Fin 2) (c : Challenge), (s.port port.val).challenge = some c →
    c.beat + 5000000 ≤ s.time.beatNo →
    exec (.nonceExpire port) s = .next (s.setPort port.val { s.port port.val with challenge := none }))
  ∧ (∀ (s t : State) (rq : Req), s.portUp rq.port = true → rq.sid ≠ 0 → s.sessionOpen rq.port rq.sid = true →
    t = { s with mgc := { s.mgc with nextTicket := s.mgc.nextTicket + 1 } } →
    exec (.sessionClose rq) s
      = .next ((t.endSession rq.port rq.sid rq.sid (some s.mgc.nextTicket)).complete rq 0x92 0 0 [] (some s.mgc.nextTicket)))
  ∧ (∀ (s : State) (rq : Req) (param : BitVec 16), s.portUp rq.port = true → rq.sid ≠ 0 → rq.sid ≠ 3 →
    s.sessionOpen rq.port rq.sid = true → param.toNat < 2 →
    exec (.recCopy rq param) s
      = .next (((s.setPort rq.port { s.port rq.port with recSubs :=
          (if param.toNat = 1 then setInsert rq.sid.val (s.port rq.port).recSubs else []) }).wr (.hlk rq.port) HLK.REC_SUB
          param.toNat).complete rq 0x93 0))
  ∧ (∀ (s : State) (port : Fin 2), (s.port port.val).lossPending = true → (s.port port.val).eventQ.length < 256 →
    exec (.evtLoss port) s
      = .next ((s.setPort port.val { s.port port.val with lossPending := false }).queueEvent port.val 0x54
          (leBytes 4 (s.rd (.hlk port.val) HLK.CNT_EVT_LOST) ++ leBytes 4 (s.rd (.hlk port.val) HLK.CNT_REC_DROP))))

/-- R102: a link boot's four commands, without a session that is not open (R85). -/
def Obligations.LinkBootCompletes : Prop :=
  (∀ (s : State) (rq : Req) (h : List Byte), s.portUp rq.port = true → s.foreignSid rq = false →
    s.power.linkBoot = true → s.link.boot = none →
    h.length = fwHeaderLen → s.mgc.store.fwSigned h = true → s.mgc.store.keyBlock.fwFloor ≤ fwVersionOf h →
    exec (.bootBegin rq h) s
      = .next ((({ s with link := { s.link with boot := some ⟨rq.port, rq.tag.toNat, h, false, []⟩ } } : State).wr
          (.hlk rq.port) HLK.BOOT_PORT 1).requestOn 35))
  ∧ (∀ (s : State) (b : BootSession), s.link.boot = some b → b.ready = false → s.domainReady 35 = true →
    exec .bootBeginReady s
      = .next (({ s with link := { s.link with boot := some { b with ready := true } } } : State).complete b.req 0xA0 0))
  ∧ (∀ (s : State) (b : BootSession) (rq : Req) (off : BitVec 64) (data : List Byte), s.portUp rq.port = true →
    s.foreignSid rq = false → s.link.boot = some b → s.power.linkBoot = true → b.port = rq.port → b.ready = true → data.length = 4096 →
    off.toNat % 4096 = 0 → off.toNat < fwLenOf b.header →
    exec (.bootChunk rq off data) s
      = .next ((({ s with link := { s.link with boot := some { b with chunks := setInsert off.toNat b.chunks } } } :
          State).store off.toNat data).complete rq 0xA1 0))
  ∧ (∀ (s t : State) (b : BootSession) (rq : Req), s.portUp rq.port = true → s.foreignSid rq = false →
    s.link.boot = some b → s.power.linkBoot = true → b.port = rq.port → b.ready = true →
    t = ({ s with link := { s.link with boot := none } } : State).wr (.hlk rq.port) HLK.BOOT_PORT 0 →
    (s.bootBodyOk b = false → exec (.bootEnd rq) s = .next ((t.fault .mgc 0x8010).complete rq 0xA2 0x0E))
    ∧ (s.bootBodyOk b = true → ∃ u v : State, exec (.bootEnd rq) s = .next u
        ∧ v = (t.complete rq 0xA2 0).runFirmware b.header ∧ v.mgc.fwVersion = fwVersionOf b.header
        ∧ v.mgc.fwDigest = slice b.header 16 32 ∧ v.power.linkBoot = false
        ∧ u = ((({ v with link := { v.link with bootedFirmware := some (fwVersionOf b.header, slice b.header 16 32) } } :
            State).setPort rq.port { (v.port rq.port).restart with rxLock := (v.port rq.port).rxLock })).negotiate rq.port
            (v.rd (.hlk rq.port) HLK.WIDTH)))

/-! ### Accepted register writes -/

/-- R43, R45, R49: an accepted write of the PDC's request registers, of SLEEP_ENTER and of CLK.REVERT. -/
def Obligations.PowerWritesComplete : Prop :=
  (∀ (rq : Req) (second : Bool) (v m : Word) (s : State) (f : RField),
    f = (if second then PDC.ON_REQ1 else PDC.ON_REQ0) → s.accepts rq .pdc f.off v m → Page.pdc.only f.off m f 0 0 →
    exec (.pdcOnReq rq second v m) s
      = .next ((onReqAct s second (f.merge (s.rd .pdc f) v.toNat m.toNat)).wrote rq .pdc f.off v m))
  ∧ (∀ (rq : Req) (v m : Word) (s : State),
    s.accepts rq .pdc PDC.SLEEP_ENTER.off v m → Page.pdc.only PDC.SLEEP_ENTER.off m PDC.SLEEP_ENTER 0 0 →
    PDC.SLEEP_ENTER.given v.toNat m.toNat = 1 → s.power.warm = none → s.asleep = false → s.domainReady 38 = true →
    ∃ t u : State, exec (.sleepEnter rq v m) s = .next (t.wrote rq .pdc PDC.SLEEP_ENTER.off v m)
      ∧ u = (s.abortTasks (s.amt.tasks.map (·.ctx)) 0).wr .pdc PDC.IN_SLEEP 1
      ∧ t = { u with power := { u.power with sleepDomains := (List.range 39).filter s.domainUp, wakeAt := none
                                             sleepPos := (u.plinth.odo.head?).map (·.pos) } })
  ∧ (∀ (rq : Req) (v m : Word) (s : State),
    s.accepts rq .clk CLK.REVERT.off v m → Page.clk.only CLK.REVERT.off m CLK.REVERT 0 0 →
    CLK.REVERT.given v.toNat m.toNat = 1 → s.rd .clk CLK.HOLDOVER = 1 →
    (s.rd .clk CLK.STRAP_CLKM ≠ 2 ∨ s.clock.hl0Locked = true → exec (.clkRevert rq v m true) s
      = .next (((s.wr .clk CLK.HOLDOVER 0).wr .clk CLK.ACTIVE_SRC (s.rd .clk CLK.STRAP_CLKM)).wrote rq .clk CLK.REVERT.off v m))
    ∧ exec (.clkRevert rq v m false) s = .next (s.wrote rq .clk CLK.REVERT.off v m))

/-- R80, R121, R124, R150, R320, R327, R347, R365, R370, R374: an accepted write of RETRAIN, PORT_EN, TUN_PUSH3, PQ_ADDR_HI,
PM_RELEASE, ARM_COUNT, RESUME_CTX, INV_CTX, ENT_HI and BULK_GO. -/
def Obligations.PortAndFabricWritesComplete : Prop :=
  (∀ (rq : Req) (port : Fin 2) (v m : Word) (s : State),
    s.accepts rq (.hlk port.val) HLK.RETRAIN.off v m → (Page.hlk port.val).only HLK.RETRAIN.off m HLK.RETRAIN 0 0 →
    HLK.RETRAIN.given v.toNat m.toNat = 1 → s.rd (.hlk port.val) HLK.LINK_STATE = 4 →
    ∃ t : State, exec (.retrain rq port v m) s = .next (t.wrote rq (.hlk port.val) HLK.RETRAIN.off v m)
      ∧ t.regs = ((s.wr (.hlk port.val) HLK.LINK_STATE 5).count (.hlk port.val) HLK.CNT_RETRAIN).regs
      ∧ t = { s with regs := t.regs, link := t.link }
      ∧ (port.val < s.link.ports.length →
          (t.port port.val) = { s.port port.val with retrainSince := s.time.beatNo, replayRun := 0 }))
  ∧ (∀ (rq : Req) (v m : Word) (s : State),
    s.accepts rq .cpx CPX.PORT_EN.off v m → Page.cpx.only CPX.PORT_EN.off m CPX.PORT_EN 0 0 →
    exec (.portEn rq v m) s
      = .next ((portEnAct s (CPX.PORT_EN.merge (s.rd .cpx CPX.PORT_EN) v.toNat m.toNat)).wrote rq .cpx CPX.PORT_EN.off v m))
  ∧ (∀ (rq : Req) (v m : Word) (s t : State),
    s.accepts rq .cpx (CPX.TUN_PUSH.off + 12) v m → Page.cpx.only (CPX.TUN_PUSH.off + 12) m CPX.TUN_PUSH 0 3 →
    t = s.wr .cpx CPX.TUN_PUSH (CPX.TUN_PUSH.merge (s.rd .cpx CPX.TUN_PUSH 0 3) v.toNat m.toNat) 0 3 →
    exec (.tunPush rq v m) s = .next ((t.pushTunnel t.tunnelWords).wrote rq .cpx (CPX.TUN_PUSH.off + 12) v m))
  ∧ (∀ (rq : Req) (v m : Word) (s t : State),
    s.accepts rq .ife IFE.PQ_ADDR_HI.off v m → Page.ife.only IFE.PQ_ADDR_HI.off m IFE.PQ_ADDR_HI 0 0 →
    t = s.wr .ife IFE.PQ_ADDR_HI (IFE.PQ_ADDR_HI.merge (s.rd .ife IFE.PQ_ADDR_HI) v.toNat m.toNat) →
    exec (.pqPush rq v m) s
      = .next ((t.queueParams (t.rd .ife IFE.PQ_CTX) (t.rd .ife IFE.PQ_CLASS) (t.rd .ife IFE.PQ_FRAME) t.pqAddr
          (t.rd .ife IFE.PQ_LINKED = 1)).wrote rq .ife IFE.PQ_ADDR_HI.off v m))
  ∧ (∀ (rq : Req) (v m : Word) (s : State),
    s.accepts rq .pmc PMC.PM_RELEASE.off v m → Page.pmc.only PMC.PM_RELEASE.off m PMC.PM_RELEASE 0 0 →
    PMC.PM_RELEASE.given v.toNat m.toNat = 1 →
    exec (.pmRelease rq v m) s
      = .next (((({ s with retention := { s.retention with pm := [] } } : State).wr .pmc PMC.PM_FULL 0).wr .pmc
          PMC.PM_MISSED 0).wrote rq .pmc PMC.PM_RELEASE.off v m))
  ∧ (∀ (rq : Req) (u : Fin 24) (ch : Fin 8) (v m : Word) (s : State) (w : Nat),
    u.val % 4 ≠ 3 → w = STR.ARM_COUNT.off + STR.ARM_COUNT.s1 * ch.val → s.accepts rq (.str u.val) w v m →
    (Page.str u.val).only w m STR.ARM_COUNT ch.val 0 →
    STR.ARM_COUNT.given v.toNat m.toNat ≠ 0 →
    exec (.streamArm rq u ch v m) s
      = .next ((s.armList u.val ch.val ⟨s.rd (.str u.val) STR.ARM_ADDR_LO ch.val + 2 ^ 32 * s.rd (.str u.val)
          STR.ARM_ADDR_HI ch.val, STR.ARM_COUNT.given v.toNat m.toNat⟩).wrote rq (.str u.val) w v m))
  ∧ (∀ (rq : Req) (v m : Word) (s t : State) (c : Channel) (l : StreamList) (ctx : Nat),
    s.accepts rq .mmu MMU.RESUME_CTX.off v m → Page.mmu.only MMU.RESUME_CTX.off m MMU.RESUME_CTX 0 0 →
    ctx = MMU.RESUME_CTX.given v.toNat m.toNat →
    s.fabric.channels.find? (fun c => c.ctx = some ctx ∧ c.stalled.isSome) = some c → c.active = some l →
    (s.xlateAll ctx false (cutRanges (s.blockAt l c.pos).runs)).2 = (none, t) →
    exec (.resumeCtx rq v m) s
      = .next ((t.setChan { c with stalled := none, resumed := true, walked := true }).wrote rq .mmu MMU.RESUME_CTX.off v m))
  ∧ (∀ (rq : Req) (v m : Word) (s : State),
    s.accepts rq .mmu MMU.INV_CTX.off v m → Page.mmu.only MMU.INV_CTX.off m MMU.INV_CTX 0 0 →
    exec (.invCtx rq v m) s
      = .next (({ s with fabric := { s.fabric with tlb := s.fabric.tlb.filter (·.ctx ≠ MMU.INV_CTX.given v.toNat m.toNat) } } :
          State).wrote rq .mmu MMU.INV_CTX.off v m))
  ∧ (∀ (rq : Req) (v m : Word) (s t : State),
    s.accepts rq .bod BOD.ENT_HI.off v m → Page.bod.only BOD.ENT_HI.off m BOD.ENT_HI 0 0 →
    t = s.wr .bod BOD.ENT_HI (BOD.ENT_HI.merge (s.rd .bod BOD.ENT_HI) v.toNat m.toNat) →
    exec (.bodEntWrite rq v m) s
      = .next ((t.bodStore (t.rd .bod BOD.ENT_SEL) (t.rd .bod BOD.ENT_LO + 2 ^ 32 * BOD.ENT_HI.merge (t.rd .bod BOD.ENT_HI)
          v.toNat m.toNat)).wrote rq .bod BOD.ENT_HI.off v m))
  ∧ (∀ (rq : Req) (v m : Word) (s : State),
    s.accepts rq .bod BOD.BULK_GO.off v m → Page.bod.only BOD.BULK_GO.off m BOD.BULK_GO 0 0 →
    BOD.BULK_GO.given v.toNat m.toNat = 1 →
    exec (.bulkGo rq v m) s
      = .next ((({ s with fabric := { s.fabric with bulk := some ⟨s.rd2 .bod BOD.BULK_ADDR_LO BOD.BULK_ADDR_HI,
          s.rd .bod BOD.BULK_FIRST, s.rd .bod BOD.BULK_COUNT⟩ } } : State).wr .bod BOD.BULK_BUSY 1).wrote rq .bod
          BOD.BULK_GO.off v m))

/-- R247–R251: an accepted write of OP_CMD, INST_CMD and CANCEL_CTX: the Maquette begins to load, a start, stop or swap
waits for its beat, the Maquette empties, an open task is dropped. -/
def Obligations.ArmatureWritesComplete : Prop :=
  ∀ (rq : Req) (v m : Word) (s : State),
    (s.accepts rq .amt AMT.OP_CMD.off v m → Page.amt.only AMT.OP_CMD.off m AMT.OP_CMD 0 0 →
      (AMT.OP_CMD.given v.toNat m.toNat = 1 →
        exec (.load rq v m) s
          = .next ((({ s with amt := { s.amt with load := some ⟨lookupD [] (s.rd .amt AMT.LOAD_SLOT) s.mgc.store.graphs, true,
              rq.port, rq.sid⟩ } } : State).wr .amt AMT.MAQ_STATE 1).wrote rq .amt AMT.OP_CMD.off v m))
      ∧ (∀ (p : Package) (e0 e : Nat) (t : State), AMT.OP_CMD.given v.toNat m.toNat = 2 → s.amt.maquette = some (p, e0) →
        e = (s.chooseEntry p).getD 0 →
        t = { s with amt := { s.amt with
                maquette := some (p, e), op := some (.start (s.rd2 .amt AMT.AT_BEAT_LO AMT.AT_BEAT_HI)) } } →
        exec (.start rq v m) s
          = .next ((((((t.writeSet p e).lockPages s (p.pages e)).sendLists p).wr .amt AMT.RUN_STATE 1).auditOp rq.sid rq.port 0
              p.gset 0).wrote rq .amt AMT.OP_CMD.off v m))
      ∧ (∀ r : RunSet, AMT.OP_CMD.given v.toNat m.toNat = 3 → s.amt.running = some r →
        exec (.stop rq v m) s
          = .next (((({ s with amt := { s.amt with op := some (.stop (s.rd2 .amt AMT.AT_BEAT_LO AMT.AT_BEAT_HI)) } } :
              State).wr .amt AMT.RUN_STATE 2).auditOp rq.sid rq.port 0 r.pkg.gset 0).wrote rq .amt AMT.OP_CMD.off v m))
      ∧ (∀ (p : Package) (e0 e : Nat) (t : State), AMT.OP_CMD.given v.toNat m.toNat = 4 → s.amt.maquette = some (p, e0) →
        e = (s.chooseEntry p).getD 0 →
        t = { s with amt := { s.amt with
                maquette := some (p, e), op := some (.swap s.time.beatNo (s.rd2 .amt AMT.AT_BEAT_LO AMT.AT_BEAT_HI)) } } →
        exec (.swap rq v m) s
          = .next ((((t.sendLists p).wr .amt AMT.RUN_STATE 3).auditOp rq.sid rq.port 0 p.gset 0).wrote rq .amt
              AMT.OP_CMD.off v m))
      ∧ (∀ (p : Package) (e0 : Nat), AMT.OP_CMD.given v.toNat m.toNat = 5 → s.amt.maquette = some (p, e0) →
        exec (.discard rq v m) s
          = .next ((((({ s with amt := { s.amt with maquette := none } } : State).wr .amt AMT.MAQ_STATE 0).wr .amt
              AMT.GSET_MAQ 0).auditOp rq.sid rq.port 0 p.gset 0).wrote rq .amt AMT.OP_CMD.off v m)))
    ∧ (s.accepts rq .amt AMT.INST_CMD.off v m → Page.amt.only AMT.INST_CMD.off m AMT.INST_CMD 0 0 →
      AMT.INST_CMD.given v.toNat m.toNat ≠ 0 →
      exec (.loadAddr rq v m) s
        = .next ((({ s with amt := { s.amt with load := some ⟨s.packageAt (s.rd2 .amt AMT.LOAD_ADDR_LO AMT.LOAD_ADDR_HI),
            false, rq.port, rq.sid⟩ } } : State).wr .amt AMT.MAQ_STATE 1).wrote rq .amt AMT.INST_CMD.off v m))
    ∧ (s.accepts rq .amt AMT.CANCEL_CTX.off v m → Page.amt.only AMT.CANCEL_CTX.off m AMT.CANCEL_CTX 0 0 →
      exec (.cancelCtx rq v m) s
        = .next ((dropTasks 32 [(AMT.CANCEL_CTX.given v.toNat m.toNat, 0x0011, 0)] s).wrote rq .amt AMT.CANCEL_CTX.off v m))

/-- R410, R412, R413, R425: an accepted write of PLN.CLEAR, PLN.INHIBIT and RSP.REQ. A refused clear (`clearCode` not 0) leaves
its code and the event; an accepted one has the effect of R413. -/
def Obligations.PlinthWritesComplete : Prop :=
  ∀ (rq : Req) (v m : Word) (s : State),
    (s.accepts rq .pln PLN.CLEAR.off v m → Page.pln.only PLN.CLEAR.off m PLN.CLEAR 0 0 →
      PLN.CLEAR.given v.toNat m.toNat = 1 →
      (s.clearCode = 0 →
        exec (.plnClear rq v m) s
          = .next ((((s.wr .pln PLN.CLEAR_RESULT 0).plinthAudit 0x50 rq.sid rq.port 0 (leBytes 2 0)).acceptClear
              (2 ^ 16)).wrote rq .pln PLN.CLEAR.off v m))
      ∧ (s.clearCode ≠ 0 →
        exec (.plnClear rq v m) s
          = .next ((((s.wr .pln PLN.CLEAR_RESULT s.clearCode).plinthAudit 0x50 rq.sid rq.port s.clearCode
              (leBytes 2 0)).raise .pln 3).wrote rq .pln PLN.CLEAR.off v m)))
    ∧ (s.accepts rq .pln PLN.INHIBIT.off v m → Page.pln.only PLN.INHIBIT.off m PLN.INHIBIT 0 0 →
      ∀ n, n = PLN.INHIBIT.merge (s.rd .pln PLN.INHIBIT) v.toNat m.toNat →
      exec (.plnInhibit rq v m) s
        = .next ((((s.wr .pln PLN.INHIBIT n).plinthAudit 0x51 rq.sid rq.port 0 (leBytes 2 0 ++ leBytes 1 n)).followInhibit).wrote
            rq .pln PLN.INHIBIT.off v m))
    ∧ (s.accepts rq .rsp RSP.REQ.off v m → Page.rsp.only RSP.REQ.off m RSP.REQ 0 0 →
      RSP.REQ.given v.toNat m.toNat = 1 →
      exec (.rspReq rq v m) s
        = .next (((unitInst ((v.toNat &&& m.toNat) % 32)).foldl (fun s i => s.startMode i 1) s).wrote rq .rsp RSP.REQ.off v m))

/-- R443–R446: an accepted write of STORE_CMD with a command starts it, whichever row names it: its image is read, its
result decided, its target erased when it will succeed, STORE_BUSY set. -/
def Obligations.StoreWritesComplete : Prop :=
  ∀ (rq : Req) (v m : Word) (s : State) (c slot : Nat),
    s.accepts rq .mgc MGC.STORE_CMD.off v m →
    (Page.mgc.touches MGC.STORE_CMD.off m.toNat = [(MGC.STORE_CMD, 0, 0)]
      ∨ Page.mgc.touches MGC.STORE_CMD.off m.toNat = [(MGC.STORE_CMD, 0, 0), (MGC.STORE_SLOT, 0, 0)]) →
    c = MGC.STORE_CMD.given v.toNat m.toNat → c ≠ 0 → slot = bits (v.toNat &&& m.toNat) 10 8 →
    ∃ t : State,
      (c = 1 → exec (.writeFirmware rq v m) s = .next (t.wrote rq .mgc MGC.STORE_CMD.off v m))
      ∧ (c = 2 → exec (.writeOptions rq v m) s = .next (t.wrote rq .mgc MGC.STORE_CMD.off v m))
      ∧ (c = 3 → exec (.writeGraph rq v m) s = .next (t.wrote rq .mgc MGC.STORE_CMD.off v m))
      ∧ (c = 4 → exec (.eraseGraph rq v m) s = .next (t.wrote rq .mgc MGC.STORE_CMD.off v m))
      ∧ (c = 5 → exec (.writeKeys rq v m) s = .next (t.wrote rq .mgc MGC.STORE_CMD.off v m))
      ∧ (c = 6 → exec (.raiseFwFloor rq v m) s = .next (t.wrote rq .mgc MGC.STORE_CMD.off v m))
      ∧ (c = 8 → exec (.writeFactory rq v m) s = .next (t.wrote rq .mgc MGC.STORE_CMD.off v m))
      ∧ t = { s with regs := t.regs, mgc := t.mgc } ∧ t.regs = (s.wr .mgc MGC.STORE_BUSY 1).regs
      ∧ ∃ (b : List Byte) (r : Nat),
          b = (if storeReads c then s.load s.storeSrc (s.rd .mgc MGC.STORE_LEN) else [])
          ∧ r = s.storeResult c rq.sid b (s.rd .mgc MGC.STORE_LEN)
          ∧ t.mgc.storeCmd = some { cmd := c, slot := slot, image := b, len := s.rd .mgc MGC.STORE_LEN, result := r
                                    role := rq.sid, port := rq.port }
          ∧ t.mgc.store = (if r = 0 then s.mgc.store.erase c slot else s.mgc.store)

/-- R441, R452, R454, R446: an accepted write of ATT_GO, AUD_GO, AUD_CKPT and of LCS.REQ. -/
def Obligations.ControllerWritesComplete : Prop :=
  ∀ (rq : Req) (v m : Word) (s : State),
    (s.accepts rq .mgc MGC.ATT_GO.off v m → Page.mgc.only MGC.ATT_GO.off m MGC.ATT_GO 0 0 →
      MGC.ATT_GO.given v.toNat m.toNat = 1 →
      ∃ t : State, exec (.attGo rq v m) s = .next (t.wrote rq .mgc MGC.ATT_GO.off v m)
        ∧ t = { s.wr .mgc MGC.ATT_BUSY 1 with mgc := { s.mgc with attest := some {
                nonce := (List.range 8).flatMap fun i => leBytes 4 (s.rd .mgc MGC.ATT_NONCE 0 i)
                addr := s.attAddr, role := rq.sid, port := rq.port } } })
    ∧ (s.accepts rq .mgc MGC.AUD_GO.off v m → Page.mgc.only MGC.AUD_GO.off m MGC.AUD_GO 0 0 →
      MGC.AUD_GO.given v.toNat m.toNat = 1 →
      exec (.audGo rq v m) s
        = .next (({ s with mgc := { s.mgc with audCopy := some {
            first := s.rd2 .mgc MGC.AUD_FIRST_LO MGC.AUD_FIRST_HI, count := s.rd .mgc MGC.AUD_COUNT
            addr := s.audAddr, checkpoints := s.rd .mgc MGC.AUD_CKPT_COPY = 1 } } } : State).wrote rq .mgc MGC.AUD_GO.off v m))
    ∧ (s.accepts rq .mgc MGC.AUD_CKPT.off v m → Page.mgc.only MGC.AUD_CKPT.off m MGC.AUD_CKPT 0 0 →
      MGC.AUD_CKPT.given v.toNat m.toNat = 1 → s.lifeCycle ≠ 6 →
      (s.mgc.attest = none → exec (.audCkpt rq v m) s = .next (s.writeCheckpoint.wrote rq .mgc MGC.AUD_CKPT.off v m))
      ∧ (s.mgc.attest ≠ none →
        exec (.audCkpt rq v m) s
          = .next (({ s with mgc := { s.mgc with checkpointDue := true } } : State).wrote rq .mgc MGC.AUD_CKPT.off v m)))
    ∧ (∀ (n : Nat) (t : State), s.accepts rq .lcs LCS.REQ.off v m → Page.lcs.only LCS.REQ.off m LCS.REQ 0 0 →
      n = LCS.REQ.given v.toNat m.toNat → n ≠ 0 →
      t = { s.wr .lcs LCS.CHANGING 1 with mgc := { s.mgc with change := some { target := n, role := rq.sid, port := rq.port } } } →
      (n = 2 → exec (.lcToProvisioned rq v m) s = .next (t.wrote rq .lcs LCS.REQ.off v m))
      ∧ (n = 3 → exec (.lcToService rq v m) s = .next (t.wrote rq .lcs LCS.REQ.off v m))
      ∧ (n = 4 → exec (.lcToDiagnose rq v m) s = .next (t.wrote rq .lcs LCS.REQ.off v m))
      ∧ (n = 5 → exec (.lcToReturn rq v m) s = .next (t.wrote rq .lcs LCS.REQ.off v m))
      ∧ (n = 6 → exec (.lcToScrapped rq v m) s = .next (t.wrote rq .lcs LCS.REQ.off v m)))

/-- R71, R464, R465, R466: an accepted write of a header field of any page. -/
def Obligations.HeaderWritesComplete : Prop :=
  ∀ (rq : Req) (page : BitVec 12) (p : Page) (v m : Word) (s : State), pageAt page.toNat = some p →
    (∀ t : State, s.accepts rq p HDR.SWRST.off v m → p.only HDR.SWRST.off m HDR.SWRST 0 0 →
      HDR.SWRST.given v.toNat m.toNat = 1 → p.blockClass.isSome = true → s.resetting p = false → s.inLockedUse p = false →
      t = ((({ s.absorb p with resets := (s.absorb p).resets ++ [⟨p.num, s.time.beatNo, rq.sid, false, 0, false, false⟩] } :
            State).wr p HDR.SWRST 1).wr p HDR.IDLE_REQ 1) →
      exec (.blkSwrst rq page v m) s = .next ((if p.plinthGroup then t.addCause 1 0xFF else t).wrote rq p HDR.SWRST.off v m))
    ∧ (s.accepts rq p HDR.EN.off v m → p.only HDR.EN.off m HDR.EN 0 0 →
      exec (.blkEnWrite rq page v m) s
        = .next ((s.wr p HDR.EN (HDR.EN.merge (s.rd p HDR.EN) v.toNat m.toNat)).wrote rq p HDR.EN.off v m))
    ∧ (s.accepts rq p HDR.GO.off v m → p.only HDR.GO.off m HDR.GO 0 0 → HDR.GO.given v.toNat m.toNat = 1 →
      exec (.blkCommitGo rq page v m) s
        = .next ((((((({ s with commits := s.commits ++ p.contexts.map fun k => (p.num, k) } : State).wr p HDR.PENDING 1).wr p
            HDR.REJECTED 0).wr p HDR.REJECT_CODE 0).wr p HDR.REJECT_WORD 0)).wrote rq p HDR.GO.off v m))
    ∧ (s.accepts rq p HDR.BLK_EVT_STAT.off v m → p.only HDR.BLK_EVT_STAT.off m HDR.BLK_EVT_STAT 0 0 →
      exec (.blkEvtStatClear rq page v m) s
        = .next ((s.wr p HDR.BLK_EVT_STAT (s.rd p HDR.BLK_EVT_STAT &&& (2 ^ 32 - 1 - (v &&& m).toNat))).wrote rq p
            HDR.BLK_EVT_STAT.off v m))
    ∧ (∀ t : State, s.accepts rq p HDR.BLK_EVT_MASK.off v m → p.only HDR.BLK_EVT_MASK.off m HDR.BLK_EVT_MASK 0 0 →
      t = s.wr p HDR.BLK_EVT_MASK (HDR.BLK_EVT_MASK.merge (s.rd p HDR.BLK_EVT_MASK) v.toNat m.toNat) →
      exec (.blkEvtMaskWrite rq page v m) s
        = .next (({ t with events := if (t.rd p HDR.BLK_EVT_MASK &&& t.rd p HDR.BLK_EVT_STAT)
              &&& (2 ^ 32 - 1 - s.rd p HDR.BLK_EVT_MASK) ≠ 0 then setInsert p.num t.events else t.events } : State).wrote rq p
            HDR.BLK_EVT_MASK.off v m))
    ∧ (∀ f : RField, p.cntClr = some f → s.accepts rq p f.off v m → p.only f.off m f 0 0 → f.given v.toNat m.toNat = 1 →
      exec (.cntClr rq page v m) s = .next ((s.clearCounters p).wrote rq p f.off v m))

/-- R88, R89, R472, R327: a register write of any size that every check lets through, and the reads: bytes of the words
as they stand, BEAT_LO with BEAT_HI latched, ENT_LO with ENT_HI. -/
def Obligations.RegisterAccessCompletes : Prop :=
  (∀ (rq : Req) (off : BitVec 24) (pairs : List (Word × Word)) (s t : State) (p : Page) (l : List (Nat × Nat)),
    t = s.draw.2 → l = pairs.map (fun x => (x.1.toNat, x.2.toNat)) → t.portUp rq.port = true →
    (t.writeCheck rq off.toNat l).1 = 0 → pageAt (off.toNat / 4096) = some p → p.writesBit (off.toNat % 4096) l = true →
    exec (.plainRegisterWrite rq off pairs) s
      = .next ((t.pairsAct p rq.sid rq.port (decide (s.draw.1 % 2 = 1)) (off.toNat % 4096) l).completeAudited rq 0x82 0 0x20
          (regAuditData off.toNat l)))
  ∧ (∀ (rq : Req) (off : BitVec 24) (n : BitVec 5) (s : State) (p : Page),
    s.portUp rq.port = true → (rq.sid = 0 ∨ s.sessionOpen rq.port rq.sid = true) → 1 ≤ n.toNat → n.toNat ≤ 16 →
    off.toNat % 4 = 0 → off.toNat % 4096 + 4 * n.toNat ≤ 4096 → inRetention off.toNat = false →
    pageAt (off.toNat / 4096) = some p → s.pageStatus p (off.toNat % 4096 + 4 * n.toNat - 4) = 0 →
    (rq.sid ≠ 0 ∨ p.isOpen = true ∨ off.toNat % 4096 + 4 * n.toNat - 4 < 0x40) →
    exec (.regRd rq off n) s
      = .next ((s.readWords p (off.toNat % 4096) n.toNat).2.complete rq 0x81 0 0 (s.readWords p (off.toNat % 4096) n.toNat).1))
  ∧ (∀ (rq : Req) (s : State),
    s.portUp rq.port = true → (rq.sid = 0 ∨ s.sessionOpen rq.port rq.sid = true) →
    exec (.devBeatRead rq) s
      = .next ((s.wr .dev DEV.BEAT_HI (s.time.beatNo / 2 ^ 32)).complete rq 0x81 0 0 (leBytes 4 s.time.beatNo)))
  ∧ (∀ (rq : Req) (s : State) (e : Nat),
    s.portUp rq.port = true → s.sessionOpen rq.port rq.sid = true → s.pageOn .bod = true →
    e = s.bodEntry (s.rd .bod BOD.ENT_SEL) →
    exec (.bodEntRead rq) s
      = .next (((s.wr .bod BOD.ENT_LO (e % 2 ^ 32)).wr .bod BOD.ENT_HI (e / 2 ^ 32)).complete rq 0x81 0 0 (leBytes 4 e)))

/-! ### Camera ports and the image front end -/

/-- R107, R115–R120: lock and its loss, and the packets of a camera whose light and lock stand; a line start or line end has no
effect; a row that has not come by its due beat is missing; a frame that has not opened in its time loses framing. -/
def Obligations.CameraCommandsComplete : Prop :=
  (∀ (s : State) (cam : Fin 12), s.camEnabled cam = true → s.camLos cam = false → s.rd .cpx CPP.LOCK cam = 0 →
    exec (.cpBlockLock cam) s = .next ((s.wr .cpx CPP.LOCK 1 cam).resendConfig cam))
  ∧ (∀ (s : State) (cam : Fin 12) (vc : Fin 16) (n : BitVec 16) (lineEnd : Bool) (row : BitVec 16),
    exec (.lsLe cam vc lineEnd row) s = .next s
    ∧ (s.camDelivers cam = true →
      exec (.cpLockLoss cam) s = .next ((s.wr .cpx CPP.LOCK 0 cam).loseFraming cam 0x2102 s.time.beatNo)
      ∧ exec (.fs cam vc n) s = .next (s.fsPacket cam vc n.toNat)
      ∧ exec (.fe cam vc n) s = .next (s.fePacket cam vc)))
  ∧ (∀ (s : State) (cam : Fin 12) (header payload : List Byte) (crc : BitVec 16), header.length = 4 →
    s.camDelivers cam = true →
    exec (.longPacket cam header payload crc) s = .next (s.longPacket cam header payload crc.toNat)
    ∧ exec (.transportPacket cam (1#8 :: (header ++ payload ++ leBytes 2 crc.toNat))) s
        = exec (.longPacket cam header payload crc) s)
  ∧ (∀ (s : State) (cam : Fin 12) (payload : List Byte) (code : BitVec 8),
    s.camDelivers cam = true → exec (.transportPacket cam []) s = .next (s.count .cpx CPP.CNT_UNSUPP 1 cam)
    ∧ (code.toNat ≠ 1 → code.toNat ≠ 2 →
      exec (.transportPacket cam (code :: payload)) s = .next (s.count .cpx CPP.CNT_UNSUPP 1 cam)))
  ∧ (∀ (s t : State) (stream : Fin 32) (frame row : Nat) (r : StreamRun), r = s.run stream → r.active = true →
    s.cps CPS.TRIGGERED stream = 1 → row < s.frameRows stream → s.rowDue r frame row ≤ s.time.beatNo →
    (r.frame frame).seen row = none → t = s.missRow r frame row →
    exec (.rowDeadline stream frame row) s
      = .next (if t.time.phase = .early then t.admitStrips t.time.beatNo else t))
  ∧ (∀ (s : State) (stream : Fin 32) (frame : Nat) (r : StreamRun), r = s.run stream → r.active = true →
    s.cps CPS.TRIGGERED stream = 1 → s.cps CPS.LINESCAN stream = 0 →
    r.trigger frame + s.cps CPS.FS_MAX stream + 1 = s.time.beatNo → (r.frame frame).opened = false →
    exec (.fsDeadline stream frame) s = .next (s.loseFraming (s.cps CPS.PORT stream) 0x2102 s.time.beatNo))

/-- R122, R123: the tunnel sends one unacknowledged frame a beat at most; its acknowledgement, a busy camera, a time-out, and a repeat
that had to wait for the next beat. -/
def Obligations.TunnelCommandsComplete : Prop :=
  (∀ (s t : State) (cam : Fin 12) (d : TunnelDesc) (p : CamPort) (w e : Nat) (f : TunnelFrame), s.camEnabled cam = true →
    (s.cam cam).outstanding = none → (s.cam cam).sentBeat ≠ some s.time.beatNo → (s.cam cam).head = some (d, p) →
    s.sendNow cam d = some (w, e) → f = ⟨d, (s.cam cam).nextSeq, s.time.beatNo, 1, w, e, false⟩ →
    t = (s.setCam cam { p with nextSeq := ((s.cam cam).nextSeq + 1) % 256 }).emitTunnel cam f →
    exec (.tunnelSend cam) s = .next (if d.keyed then (t.report cam ⟨d.cls, d.target, some e⟩).lateSetting d e else t))
  ∧ (∀ (s : State) (cam : Fin 12) (seq status : Nat) (f : TunnelFrame), (s.cam cam).outstanding = some f →
    (s.camDelivers cam = true →
      (f.seq ≠ seq → exec (.tunnelAck cam seq status) s = .next s)
      ∧ (f.seq = seq → status = 0 → exec (.tunnelAck cam seq status) s = .next (s.confirmTunnel cam f))
      ∧ (f.seq = seq → status = 1 ∨ status = 2 → exec (.tunnelAck cam seq status) s = .next (s.failTunnel cam f))
      ∧ (f.seq = seq → status = 3 → exec (.tunnelAck cam seq status) s = .next (s.retryTunnel cam f)))
    ∧ (f.sent + s.rd .cpx CPX.TUN_ACK_TMO ≤ s.time.beatNo →
      exec (.tunAckTmo cam) s = .next (s.retryTunnel cam f)
      ∧ (3 ≤ f.tries → exec (.tunAckTmo cam) s = .next (s.failTunnel cam f)))
    ∧ (s.camEnabled cam = true → (s.cam cam).sentBeat ≠ some s.time.beatNo → f.again = true →
      exec (.tunnelSend cam) s = .next (s.retryTunnel cam f)))

/-- R148, R149: an IFE frame takes the parameters queued for it and drops the stale ones. -/
def Obligations.IfeFrameStartCompletes : Prop :=
  ∀ (s : State) (ctx : Fin 8) (frame : Nat), s.rd .ife HDR.EN = 1 → s.rd .ife IFX.EN ctx = 1 → s.domainReady 30 = true →
    (∀ n, (s.ife ctx).frame = some n → n < frame) → s.Sized →
    ∃ t : State, exec (.ifeFrameStart ctx frame) s = .next t
      ∧ (t.ife ctx).frame = some frame
      ∧ (t.ife ctx).params = ((s.ife ctx).queue.filter (·.due frame)).foldl (fun p e => mergeBlock p e.block) (s.ife ctx).block
      ∧ (t.ife ctx).queue = (s.ife ctx).queue.filter (fun e => !(e.due frame) && !(e.stale frame))
      ∧ t = { s with regs := t.regs, events := t.events, vision := t.vision }

/-! ### Nodes, tasks and streams -/

/-- R231, R237, R244–R247, R262, R263, R338: a node's start and flag clock, a record-write node, the rerun of a locked node, the
dispatch and the completion of a node of an open task, the start of a task. -/
def Obligations.NodeCommandsComplete : Prop :=
  (∀ (s : State) (node strip : Nat) (r : RunSet) (d : NodeDesc) (x : Strip), s.runOf node strip false = some (r, d, x) →
    (d.cls ≠ .recordWrite → exec (.nodeStartClock node strip) s = .next (s.startRun r d x))
    ∧ (d.cls = .recordWrite → exec (.recordWrite node strip) s = .next (s.recordWrite r d x)))
  ∧ (∀ (s : State) (node strip : Nat) (finished : Bool) (line : LineCheck) (r : RunSet) (d : NodeDesc) (x : Strip) (n : NodeRun),
    s.runOf node strip true = some (r, d, x) → s.findRun r.key node strip = some n →
    exec (.nodeFlagClock node strip finished line) s = .next (s.flagRun r d x n finished line))
  ∧ (∀ (s : State) (node u : Nat) (n : CoreNode), u < 24 → (s.core u).nodes = [n] → n.locked = true → n.node = node →
    n.reran = false → n.noRerun = false → n.needsRerun = true → (∀ k, k ≠ u → (s.core k).nodes = []) →
    exec (.rerunStart node) s = .next (s.restart u n))
  ∧ (∀ (s t : State) (u : Fin 24) (c : Nat) (r : ReadyNode) (l : List ReadyNode) (k : Task) (d : NodeDesc), c = u.val / 4 →
    s.coreOpen u.val = true → (s.core u.val).nodes = [] →
    (s.fabric.wiping.any fun g => if g.inCmem then g.owner = c else g.owner = u.val) = false →
    (s.clu c).readyOf (u.val % 4) = r :: l → s.task? r.ctx = some k → k.nodes[r.node]? = some d →
    s.nodeEngines d &&& s.enginesBusy u.val = 0 →
    t = (s.setClu c { s.clu c with ready := (s.clu c).ready.erase r }).movePending c (u.val % 4) →
    ∃ n : CoreNode, exec (.nodeDispatch u) s = .next (t.setCore u.val ((t.core u.val).nodes ++ [n]))
      ∧ n.ctx = r.ctx ∧ n.node = r.node ∧ n.cmd = 0 ∧ n.slot = 0 ∧ n.locked = false ∧ n.busy = false)
  ∧ (∀ (s : State) (u : Fin 24) (slot : Nat) (line : LineCheck) (n : CoreNode) (d : NodeDesc), s.slotNode u.val slot = some n →
    s.nodeOf n = some d → n.locked = false → d.cls = .tensor → n.finished = true →
    exec (.nodeComplete u slot line) s = .next (s.openDone u.val n d))
  ∧ (∀ (s t : State) (j : Job) (skipped : List Job) (ctx c : Nat) (b : List Byte) (k : Task), s.takesJobs = true →
    s.pickJob [] s.jobOrder = some (j, skipped, ctx, c) → b = s.jobDesc j → s.taskBad b = false → k = s.taskOf j b ctx c →
    t = s.leaveIntake j skipped →
    (k.nodes.any (({ t with amt := { t.amt with tasks := t.amt.tasks ++ [k] } } : State).openNodeBad ctx c)) = false →
    s.policyBad j c k.nodes = false → s.settingsLocked c k.settings k.nodes = false →
    exec .taskStart s = .next ((t.startTask k b).grantVc2))

/-- R365, R368–R374: a block of a stream moves; a locked stream that is late poisons its node; a walk that ends lets
the list be written or aborts it; a page fault that waited too long aborts it. -/
def Obligations.StreamCommandsComplete : Prop :=
  (∀ (s : State) (u : Fin 24) (ch : Fin 8) (c : Channel) (l : StreamList), c = s.chan u.val ch.val → c.active = some l →
    s.rd (.str u.val) STR.EN ch.val = 1 → c.stalled = none → s.chanWaits c = false →
    (∀ (b : Block) (r : RingRef), c.ctx = none → b = s.blockAt l c.pos → s.chanIn c.unit c.number = true →
      r = s.chanRing c.unit c.number → s.ringGap r (s.ringH r) (s.ringT r) < s.ringN r →
      (b.runs.any fun x => !s.inWindows x.1 x.2) = false → s.badIn b.runs = none →
      exec (.streamBlockDone u ch) s = .next (s.landBlock c (s.gatherBytes b.runs)))
    ∧ (c.ctx = none → exec (.streamBlockDone u ch) s = .next (s.lockedBlock c l))
    ∧ (∀ k, c.ctx = some k → c.heldFault = none → exec (.streamBlockDone u ch) s = .next (s.openBlock c l)))
  ∧ (∀ (s t : State) (u : Fin 24) (ch : Fin 8) (c : Channel) (l : StreamList) (r : RingRef), c = s.chan u.val ch.val →
    c.active = some l → c.ctx = none → t = s.streamPoison c (.str u.val) 0x3045 0x21 [] → r = s.chanRing u.val ch.val →
    exec (.streamLate u ch) s
      = .next (if s.chanIn u.val ch.val then t.landBlock c (s.load (s.ringAddr r (s.ringT r)) (s.ringSlot r))
        else t.sentBlock c))
  ∧ (∀ (s t : State) (u : Fin 24) (ch : Fin 8) (c : Channel) (l : StreamList) (ctx : Nat) (b : Block)
      (x : List (Nat × Nat)), c = s.chan u.val ch.val → c.active = some l →
    c.ctx = some ctx → c.stalled = none → c.walked = false → b = s.blockAt l c.pos →
    b.invalid (s.ringSlot (s.chanRing u.val ch.val)) = false →
    (s.xlateAll ctx (!s.chanIn u.val ch.val) (cutRanges b.runs) = (x, none, t) →
      exec (.mmuWalkDone u ch) s = .next (t.setChan { c with walked := true }))
    ∧ (∀ f, s.xlateAll ctx (!s.chanIn u.val ch.val) (cutRanges b.runs) = (x, some f, t) →
      exec (.mmuWalkDone u ch) s = .next (t.streamXlateFault c b f)))
  ∧ (∀ (s : State) (u : Fin 24) (ch : Fin 8) (c : Channel) (a code since : Nat) (b : Block), c = s.chan u.val ch.val →
    c.stalled = some (a, code, since) → since + s.rd .mmu MMU.PF_WAIT ≤ s.time.beatNo →
    b = (match c.active with | some l => s.blockAt l c.pos | none => parseBlock []) →
    exec (.pfWaitExpire u ch) s
      = .next ((s.raise .mmu 1).streamAbort { c with stalled := none } .mmu code (streamDetails c.pos 0 b.coord a false)))

/-- R327, R345–R347, R359, R360, R362, R390: a capture, a log block, a wiped segment, a bulk load, a GDDR6 access and a retraining step
that end. -/
def Obligations.MemoryEventsComplete : Prop :=
  (∀ (s : State) (c : Capture), s.fabric.capture = some c →
    ∃ t : State, exec .pmCaptureDone s = .next t ∧ t = { s with fabric := t.fabric, retention := t.retention, regs := t.regs }
      ∧ t.fabric = { s.fabric with capture := none } ∧ t.regs = (s.wr .pmc PMC.PM_FULL 1).regs
      ∧ t.retention = { s.retention with pm := (s.pmHeader 1 c ++ (List.range 4).flatMap fun i =>
          s.load (spmBase c.unit + 64 * s.rd .pmc PMC.WIN_OFS 0 i) (64 * s.rd .pmc PMC.WIN_LEN 0 i)) })
  ∧ (∀ (s : State) (b : List Byte) (l : List (List Byte)) (base size : Nat), s.fabric.logBuffer = b :: l →
    s.logRing = (base, size) → s.rd .dig DIG.LOG_EN = 1 → s.domainReady (35 + base / 2 ^ 33) = true →
    ∃ t : State, exec .digLogWrite s = .next t ∧ t = { s with fabric := t.fabric, regs := t.regs }
      ∧ t.fabric = { (s.store (base + s.fabric.logPos % size) b).fabric with
          logBuffer := l, logPos := (s.fabric.logPos + 64) % size }
      ∧ t.regs = (s.wr .dig DIG.LOG_WRITTEN (s.rd .dig DIG.LOG_WRITTEN + 1)).regs)
  ∧ (∀ (s : State) (arr : SramArray) (seg : Nat) (g : WipeSeg),
    g = (match arr with | .scratchpad u => ⟨false, u, seg⟩ | .clusterMem c => ⟨true, c, seg⟩) →
    g ∈ s.fabric.wiping → s.wipeHeld g = false → Mem.wf s.fabric.mem →
    ∃ t : State, exec (.segmentWipeDone arr seg) s = .next t ∧ t = { s with fabric := t.fabric }
      ∧ t.fabric.wiping = setErase g s.fabric.wiping
      ∧ (∀ a, memGet a t.fabric.mem = if g.addr ≤ a ∧ a < g.addr + 65536 then 0 else memGet a s.fabric.mem))
  ∧ (∀ (s : State) (b : BulkLoad), s.fabric.bulk = some b → s.openGddr b.addr (8 * b.count) = true →
    s.badIn [(b.addr, 8 * b.count)] = none →
    (∀ i, i < b.count → s.bodRefused (b.first + i) (s.loadNat (b.addr + 8 * i) 8) = false) →
    ∃ t : State, exec .bulkDone s = .next t ∧ t.fabric.bulk = none ∧ t.fabric.mem = s.fabric.mem
      ∧ t = { s with regs := t.regs, events := t.events, fabric := t.fabric }
      ∧ t.fabric.bod = ((List.range b.count).foldl (fun (u : State) i =>
          u.bodStore (b.first + i) (s.loadNat (b.addr + 8 * i) 8)) s).fabric.bod)
  ∧ (∀ (s : State) (a : BitVec 64) (write : Bool) (reader : MemReader) (line : Nat), s.isGddr a.toNat = true →
    line = a.toNat / 64 →
    exec (.gddrAccessDone a write 0 .clean reader) s = .next s
    ∧ (s.fabric.eccOn.getD (gddrChannel a.toNat / 8) true = true →
      exec (.gddrAccessDone a false 1 .clean .patrol) s = .next (s.mcgCount (gddrChannel a.toNat) MCG.CNT_ECC_CORR)))
  ∧ (∀ (s : State) (ch : Fin 16) (margin : Nat), s.domainReady (35 + ch.val / 8) = true →
    (s.rd (.mcg (ch.val / 8)) MCG.MARGIN_MIN ≤ margin →
      exec (.retrainCycleEnd ch margin) s = .next (s.wr (.mcg (ch.val / 8)) MCG.MARGIN margin (ch.val % 8)))
    ∧ (margin < s.rd (.mcg (ch.val / 8)) MCG.MARGIN_MIN →
      exec (.retrainCycleEnd ch margin) s
        = .next ((s.wr (.mcg (ch.val / 8)) MCG.MARGIN margin (ch.val % 8)).fault (.mcg (ch.val / 8)) 0x1043)))

/-- R65, R71, R72, R466: a committed context takes its shadows; a block in reset becomes idle, is forced at its class's time-out, and
ends its reset with its registers at their reset values. -/
def Obligations.BlockCommandsComplete : Prop :=
  (∀ (s t : State) (page : BitVec 12) (ctx : Nat) (p : Page), pageAt page.toNat = some p → (p.num, ctx) ∈ s.commits →
    t = { s.applyShadows p ctx with commits := setErase (p.num, ctx) (s.applyShadows p ctx).commits } → t.committing p = true →
    exec (.commitApply page ctx) s = .next t)
  ∧ (∀ (s : State) (page : BitVec 12) (p : Page) (r : BlkReset) (clocks : Nat), pageAt page.toNat = some p →
    s.resets = [r] → r.page = page.toNat →
    (r.done = false →
      exec (.blkResetIdle page clocks) s = .next { s with resets := [{ r with done := true, clocks := clocks }] })
    ∧ (∀ (c : BlockClass) (t : State), r.done = false → p.blockClass = some c → r.beat + c.timeout ≤ s.time.beatNo →
      t = ({ s with resets := [{ r with done := true, forced := true, clocks := 2500 * c.timeout }] } : State).fault p 0x3050 →
      exec (.blkResetForced page) s = .next (t.abortTasks (t.blockTasks p) 0x3050))
    ∧ (r.done = true → r.off = false → p.plinthGroup = false →
      exec (.blkResetDone page) s
        = .next ((({ s with resets := [] } : State).resetBlock p).logReset r (if r.forced then 1 else 0))))

/-! ### Tensor cores -/

/-- R260–R262, R267–R275: a command of the matrix engine, the vector engine or a linewise class that may run, runs on its operands; it
is counted, its engines' clocks are counted, and its chain goes on or waits for its completion. -/
def Obligations.TensorComputesComplete : Prop :=
  ∀ (s : State) (u : Fin 24) (slot : Nat) (x : Issue),
    (s.MayRun u slot 1 0 x → exec (.matmul u slot .clean) s = .next ((s.runMxe x).ranCmd x))
    ∧ (s.MayRun u slot 2 0 x → exec (.conv u slot .clean) s = .next ((s.runMxe x).ranCmd x))
    ∧ (∀ p ∈ [(0, Instr.eltwiseAdd u slot .clean), (1, .eltwiseSub u slot .clean), (2, .eltwiseMul u slot .clean),
          (3, .eltwiseMax u slot .clean), (4, .eltwiseMin u slot .clean), (5, .fma u slot .clean),
          (6, .scaleBias u slot .clean), (7, .abs u slot .clean), (8, .neg u slot .clean), (9, .clamp u slot .clean),
          (10, .select u slot .clean), (11, .cmpgt u slot .clean), (12, .shift u slot .clean)],
        s.MayRun u slot 3 p.1 x → exec p.2 s = .next ((s.runEltwise x).ranCmd x))
    ∧ (∀ p ∈ [(0, Instr.reduceSum u slot .clean), (1, .reduceSumsq u slot .clean), (2, .reduceMax u slot .clean),
          (3, .reduceMin u slot .clean), (4, .argmax u slot .clean)],
        s.MayRun u slot 4 p.1 x → exec p.2 s = .next ((s.runReduce x).ranCmd x))
    ∧ (∀ p ∈ [(0, Instr.lutPwl u slot .clean), (1, .lutDirect u slot .clean)],
        s.MayRun u slot 5 p.1 x → exec p.2 s = .next ((s.runLut x).ranCmd x))
    ∧ (∀ p ∈ [(0, Instr.normLayer u slot .clean), (1, .normRms u slot .clean), (2, .normL2 u slot .clean)],
        s.MayRun u slot 6 p.1 x → exec p.2 s = .next ((s.runLinewise x).ranCmd x))
    ∧ (∀ p ∈ [(0, Instr.softmax u slot .clean), (1, .logsoftmax u slot .clean)],
        s.MayRun u slot 7 p.1 x → exec p.2 s = .next ((s.runLinewise x).ranCmd x))

/-- R284, R302, R313, R323–R325: a command that moves data and may run moves it; where an address it uses is refused, the
fault ends its chain. -/
def Obligations.TensorMovesComplete : Prop :=
  ∀ (s t : State) (u : Fin 24) (slot : Nat) (x : Issue),
    (s.MayRun u slot 9 0 x → exec (.transpose u slot .clean) s = .next ((s.runPermute x).ranCmd x))
    ∧ (s.MayRun u slot 9 1 x → exec (.permute u slot .clean) s = .next ((s.runPermute x).ranCmd x))
    ∧ (s.MayRun u slot 10 0 x → exec (.convert u slot .clean) s = .next ((s.runConvert x).ranCmd x))
    ∧ (∀ f, s.MayRun u slot 8 0 x → s.runGather x = (t, f) →
        exec (.gather u slot .clean) s = .next (match f with | none => t.ranCmd x | some f => t.endChain x f))
    ∧ (∀ f, s.MayRun u slot 8 1 x → s.runScatter x = (t, f) →
        exec (.scatter u slot .clean) s = .next (match f with | none => t.ranCmd x | some f => t.endChain x f))
    ∧ (∀ f, s.MayRun u slot 11 0 x → s.runCopy x = (t, f) →
        exec (.copy u slot .clean) s = .next (match f with | none => t.ranCmd x | some f => t.endChain x f))

/-- R242, R244, R267, R279, R283, R339, R341–R343: SET_FLAG and DECREMENT of an open node, FENCE, the end of a chain (an open
node's passes its ring slots on), the ordered combining, an open node's re-run, a ring wait that is released and one that lasts. -/
def Obligations.TensorControlCompletes : Prop :=
  (∀ (s : State) (u : Fin 24) (slot : Nat) (x : Issue) (k : Cluster), s.MayRun u slot 12 0 x → k = s.clu (u.val / 4) →
    x.n.locked = false → x.c.imm0 < 2048 → x.c.imm0 ∉ k.lockedFlags →
    exec (.setFlag u slot) s = .next ((s.setClu (u.val / 4) { k with
      flags := assocSet x.c.imm0 ⟨x.n.strip % 256, x.c.imm1 % 16, true, false, 0, 0⟩ k.flags }).ranCmd x))
  ∧ (∀ (s : State) (u : Fin 24) (slot : Nat) (x : Issue) (t : Task), s.MayRun u slot 12 1 x →
    x.n.locked = false → s.task? x.n.ctx = some t →
    exec (.decrement u slot) s
      = .next ((s.taskDecrement x.n.ctx (t.held.getD x.c.imm0 1024) x.u x.n.node).ranCmd x))
  ∧ (∀ (s : State) (u : Fin 24) (slot : Nat) (x : Issue), s.MayRun u slot 12 2 x →
    exec (.fence u slot) s = .next (s.ranCmd x))
  ∧ (∀ (s : State) (u : Fin 24) (slot : Nat) (n : CoreNode) (d : NodeDesc) (c : Cmd), s.slotNode u.val slot = some n →
    n.busy = true → n.stage = none → s.stillWriting u.val n = false → s.nodeOf n = some d → (s.cmdsOf d)[n.cmd]? = some c →
    (n.locked = true → exec (.chainComplete u slot) s
      = .next (s.setSlot u.val { n with busy := false, cmd := n.cmd + 1, finished := c.last }))
    ∧ (n.locked = false → exec (.chainComplete u slot) s
      = .next ((s.passSlots u.val d false n.consumer (chainOf (s.cmdsOf d) n.cmd)).setSlot u.val
          { n with busy := false, cmd := n.cmd + 1, finished := c.last })))
  ∧ (∀ (s t : State) (clu : Fin 6) (c : Contribution) (k : Task) (d : Nat × State), s.fabric.combine = [c] →
    s.task? c.ctx = some k → k.cluster = clu.val → k.earlierOpen c.core = false →
    d = ({ s with fabric := { s.fabric with combine := [] } } : State).draw →
    t = d.2.applyContribution c →
    exec (.orderedCombine clu) s = .next (t.count (.tc (4 * clu.val + c.core)) TC.CNT_ORDERED_STALL d.1))
  ∧ (∀ (s : State) (u : Fin 24) (slot : Nat) (n : CoreNode), s.slotNode u.val slot = some n → n.locked = false →
    n.needsRerun = true → exec (.openRerun u slot) s = .next (s.restart u.val n))
  ∧ (∀ (s : State) (u : Fin 24) (slot : Nat) (n : CoreNode) (d : NodeDesc) (c : Cmd) (r : RingRef),
    s.slotNode u.val slot = some n → n.waiting = some r → s.nodeOf n = some d → (s.cmdsOf d)[n.cmd]? = some c →
    exec (.ringWaitRelease u slot) s
      = .next (s.setSlot u.val { n with waiting := s.ringWait ⟨u.val, n, d, s.cmdsOf d, c⟩ })
    ∧ (∀ p, p = Page.cmem (u.val / 4) → n.waitSince + s.rd p CMEM.RING_WDOG ≤ s.time.beatNo → s.wdogHeld r = false →
      exec (.ringWatchdog u slot) s
        = .next ((s.count p CMEM.CNT_WDOG).taskFault p 0x3042 n.ctx u.val n.node [r.ring, s.ringH r, s.ringT r, s.ringR r])))

/-! ### Self-test and scrubbing -/

/-- R336, R421–R428: a test quantum that passes, its last one, a signature that fails once and twice, a quantum cut short, a
diagnostic interval missed and expired; a scrub pass that is slow and one that ends. -/
def Obligations.SelfTestCompletes : Prop :=
  (∀ (s : State) (inst : TestInstance) (test : Nat) (x : TestState) (r : TestRun), s.testOf inst test = some x →
    s.instOn inst = true → r = x.current →
    (r.repeating = false → r.pos + 1 < testQuanta test →
      exec (.rspQuantumEnd inst test true) s
        = .next (s.setTest (x.setRun { r with pos := r.pos + 1, cuts := 0, repeating := false })))
    ∧ (r.repeating = false → testQuanta test ≤ r.pos + 1 →
      exec (.rspQuantumEnd inst test true) s = .next (s.passTest x r))
    ∧ (r.repeating = false →
      exec (.rspQuantumEnd inst test false) s = .next (s.setTest (x.setRun { r with repeating := true, cuts := 0 })))
    ∧ (r.repeating = true →
      exec (.rspQuantumEnd inst test false) s = .next ((s.testFault 0x7001 x r).failTest x r))
    ∧ (r.cuts < 2 →
      exec (.quantumCut inst test) s = .next ((s.count .rsp RSP.CNT_INCOMPLETE).setTest (x.setRun { r with cuts := r.cuts + 1 })))
    ∧ (2 ≤ r.cuts →
      exec (.quantumCut inst test) s
        = .next (((s.count .rsp RSP.CNT_INCOMPLETE).testFault 0x7003 x r).failTest x r)))
  ∧ (∀ (s : State) (inst : TestInstance) (test b : Nat) (x y : TestState), s.testOf inst test = some x → x.last = some b →
    (x.missed = false → b + s.rd .rsp RSP.DI_BEATS < s.time.beatNo →
      exec (.diMissed inst test) s
        = .next (((((s.setTest { x with missed := true }).showLatent).testFault 0x7004 x x.current).count .rsp
            RSP.CNT_DI_MISSED).raise .rsp 1))
    ∧ (x.expired = false → b + 4 * s.rd .rsp RSP.DI_BEATS < s.time.beatNo → y = { x with expired := true } →
      exec (.diExpired inst test) s = .next (((s.setTest y).testFault 0x7005 y y.rotation).failTest y y.rotation)))
  ∧ (∀ (s : State) (arr : SramArray) (x : Scrubber), s.arrayOn arr = true → x = s.scrubber arr →
    (x.slow = false → exec (.scrubSlow arr) s = .next ((s.reportSlow arr).setScrubber { x with slow := true }))
    ∧ (∀ (u : Fin 24) (beats n : Nat) (t : State), arr = .scratchpad u → beats ≤ s.scrubLimit arr →
        t = ((((s.setScrubber { x with passes := ([] :: x.passes).take 2, slow := false }).count (arrayPage arr) SPM.CNT_CORR 0).count
          (arrayPage arr) SPM.CNT_DET_IDLE n).wr (arrayPage arr) SPM.SCRUB_PASS (min beats 0xFFFFFF)) →
        exec (.scrubPass arr beats [] n) s
          = .next { t with rasp := { t.rasp with slowScrubs := setErase (arrayIs arr) t.rasp.slowScrubs } }))

/-! ### The management core's work -/

/-- R441, R443–R447, R449–R454: the events that end an audit entry's programming, a store command, an attestation, a copy of the log and
a change of life cycle. -/
def Obligations.ManagementEventsComplete : Prop :=
  (∀ (s t : State) (e : AuditReq) (r : List AuditReq), s.mgc.toProgram = e :: r →
    t = ({ s with mgc := { s.mgc with toProgram := r } } : State).program e →
    exec .auditProgramDone s = .next (match e.ticket with | some k => t.releaseTicket k | none => t))
  ∧ (∀ (s : State), s.domainReady 38 = true → s.plinth.auditLost = 0 →
    exec .auditDrain s
      = .next (s.plinth.auditQ.foldl (fun t e => t.program e) { s with plinth := { s.plinth with auditQ := [] } }))
  ∧ (∀ (s t u : State) (c : StoreCmd), s.mgc.storeCmd = some c →
    t = { s with mgc := { s.mgc with storeCmd := none } } →
    u = (((if c.result = 0 then t.setStore (t.mgc.store.program c) else t.fault .mgc 0x8030).wr .mgc MGC.STORE_BUSY 0).wr .mgc
      MGC.STORE_RESULT c.result) →
    exec .storeDone s
      = .next (((u.wr .mgc MGC.FW_FLOOR u.mgc.store.keyBlock.fwFloor).audit 0x30 c.role c.port c.result
          (leBytes 1 c.cmd ++ leBytes 1 c.slot ++ zeros 2 ++ sha256 c.image)).raise .mgc 1))
  ∧ (∀ (s t u : State) (a : Attest) (sig : List Byte), s.mgc.attest = some a → s.mgc.checkpointDue = false →
    s.ownBlock = (sig, t) → t.openGddr a.addr reportLen = true → u = t.store a.addr (s.attReport a.nonce ++ sig) →
    exec .attDone s
      = .next ((((({ u with mgc := { u.mgc with attest := none, checkpointDue := false } } : State).wr .mgc MGC.ATT_BUSY 0).audit
          0x90 a.role a.port 0 []).raise .mgc 0)))
  ∧ (∀ (s t : State) (c : AuditCopy), s.mgc.audCopy = some c → t = { s with mgc := { s.mgc with audCopy := none } } →
    t.openGddr c.addr (c.count * audSize c.checkpoints) = true →
    exec .audDone s = .next ((t.store c.addr (t.mgc.store.copyBytes c)).raise .mgc 2))
  ∧ (∀ (s t : State) (c : LifeChange), s.mgc.change = some c →
    t = (((((((s.setStore (s.mgc.store.move c.target)).powerOffAll (List.range 38)).wipeAon.loadFactory).mgcLost.setDomain 38
      .off).startPd38).wr .lcs LCS.CHANGING 0).wr .lcs LCS.RESULT 0).wr .lcs LCS.STATE c.target →
    exec .lcChanged s
      = .next ((t.audit 0x60 c.role c.port 0 (leBytes 1 s.lifeCycle ++ leBytes 1 c.target)).raise .lcs 0))

/-! ### The Armature -/

/-- R248–R255: a load that passes its checks fills the maquette, one that fails is refused with its code; a graph set begins,
stops, is swapped; a swap that waited too long, and a fallback, end. -/
def Obligations.ArmatureEventsComplete : Prop :=
  (∀ (s t : State) (l : LoadOp) (p : Package), s.amt.load = some l → t = { s with amt := { s.amt with load := none } } →
    p = parsePackage l.bytes →
    (t.loadFail l.bytes = none →
      exec .loadEnd s
        = .next (((t.fillMaquette l.bytes p ((t.chooseEntry p).getD 0)).raise .amt 0).auditOp l.role l.port 0 p.gset 0))
    ∧ (∀ c sec node, t.loadFail l.bytes = some (c, sec, node) →
      exec .loadEnd s
        = .next ((((t.wr .amt AMT.MAQ_STATE 0).noteRefusal c (refusalDetail sec node)).raise .amt 1).auditOp l.role l.port 0x0B
            (field l.bytes 6 2) c)))
  ∧ (∀ (s t : State) (b e m : Nat) (p : Package), s.amt.op = some (.start b) → s.amt.maquette = some (p, m) →
    b ≤ s.time.beatNo → s.time.phase = .early → s.listsAcked p = true → s.chooseEntry p = some e → s.amt.running = none →
    t = { s with amt := { s.amt with draining := s.amt.draining ++ [] } } →
    exec .admitBegin s
      = .next (((t.runMaquette p e s.time.beatNo s.time.beatNo none).wr .amt AMT.MAQ_STATE 0).raise .amt 2))
  ∧ (∀ (s t : State) (b : Nat) (r : RunSet), s.amt.op = some (.stop b) → s.amt.running = some r → b ≤ s.time.beatNo →
    s.time.phase = .early →
    t = { s with amt := { s.amt with op := none, running := some { r with lastAdmit := some s.time.beatNo } } } →
    exec .stopEffect s
      = .next ((((r.pkg.sec.streams.foldl (fun (s : State) (d : StreamDesc) => s.stopStream d.entry) t).wr .amt AMT.RUN_STATE
          4).raise .amt 4).settleRunning))
  ∧ (∀ (s t : State) (w e m : Nat) (p : Package) (r old : RunSet), w = s.time.beatNo → s.amt.maquette = some (p, m) →
    s.amt.running = some r → s.swapsAt w = true → s.time.phase = .early → s.chooseEntry p = some e →
    old = { r with lastAdmit := some w } →
    t = ({ s with amt := { s.amt with draining := s.amt.draining ++ [old], running := none } } : State).runMaquette p e w (w + 1)
      (some old) →
    exec .cleanBoundary s
      = .next ((((t.wr .amt AMT.MAQ_STATE 3).wr2 .amt AMT.LAST_SWAP_BEAT_LO AMT.LAST_SWAP_BEAT_HI w).raise .amt
          3).settleDraining))
  ∧ (∀ (s : State) (c b : Nat), s.amt.op = some (.swap c b) → c + s.rd .amt AMT.SWAP_WAIT ≤ s.time.beatNo →
    exec .swapWaitExpire s = .next (s.dropOp 0x18 (refusalDetail 0xFF 0xFFFF) 2))
  ∧ (∀ (s : State) (m : Retiring) (r : RunSet), s.amt.retiring = some m → s.amt.running = some r → r.released = false →
    (m.aborted = false → m.d + 1 ≤ s.time.beatNo →
      ∃ (t : State), exec .fallbackAbort s = .next t
        ∧ t.amt.retiring = some { m with aborted := true, entry := s.chooseEntry r.pkg })
    ∧ (m.s ≤ s.time.beatNo → s.time.phase = .early →
      ∀ (t : State), t = { s with amt := { s.amt with retiring := none } } →
        (∀ e, s.chooseEntry r.pkg = some e → e ≠ r.entry →
          exec .fallbackEntered s = .next (t.moveTo r e s.time.beatNo))
        ∧ (s.chooseEntry r.pkg = none → exec .fallbackEntered s = .next (t.addCause 6 0xFF t.inUseUnits))))

/-! ### The Plinth -/

/-- R11, R22, R396: a record's latch, its emission on both uplinks with the frame check over its bytes, the fault window after it,
and a SAFE mark. -/
def Obligations.RecordCommandsComplete : Prop :=
  (∀ (s t u : State) (k b : Nat) (e : Evaluated) (under reason : Nat × Nat), k = s.time.beatNo → s.power.run = .on →
    s.time.phase = .early → s.power.firstBeat = some b → b ≤ k → s.evaluateRecord k = (t, e) → under = pickReason e.conds →
    u = (t.endBudget (verdictOf under.1)).checkBudget (verdictOf under.1) →
    reason = (if u.plinth.safe then u.safeReason else under) →
    ∃ v w : State, exec (.recordLatch true) s = .next w
      ∧ v = (u.countInvalid (verdictOf reason.1 = 2)).wr .pln PLN.REASON reason.1
      ∧ w = { v with plinth := w.plinth, time := { v.time with phase := .latched } }
      ∧ w.plinth = { v.plinth with chosen := e.choices
                                   latched := some ⟨k, v.recordBody k e (verdictOf reason.1) reason⟩ })
  ∧ (∀ (s t : State) (r : LatchedRecord), s.plinth.latched = some r → s.time.phase = .latched →
    t = s.emitSl (1 :: r.bytes s.time.seq) →
    exec .recordEmit s = .next { t with
      plinth := { t.plinth with latched := none, lastRecord := r.bytes s.time.seq }
      time := { t.time with phase := .emitted, seq := t.time.seq + 1, recordsSent := t.time.recordsSent + 1 } })
  ∧ (∀ (s : State), s.time.phase = .emitted → s.time.windowDone = false → s.plinth.acks = [] →
    ∃ (l : List (List Byte)) (n : Nat) (t : State), exec .faultWindow s = .next ((t.copyRecord 0).copyRecord 1)
      ∧ l = ((s.plinth.faultQ.take 4).map fun f => slFrame 2 f.bytes) ∧ n = (fitFrames 300 l).1
      ∧ t.plinth = { s.plinth with faultQ := s.plinth.faultQ.drop n }
      ∧ t.wire = ((l.take n).foldl (fun s f => s.emitSl f) s).wire
      ∧ t = { s with plinth := t.plinth, wire := t.wire, time := { s.time with windowDone := true } })
  ∧ (∀ (s : State) (m : SafeMark) (l : List SafeMark), s.plinth.marks = m :: l → s.power.run = .on → s.time.recordsSent ≠ 0 →
    exec .safeMark s = .next (({ s with plinth := { s.plinth with marks := l } } : State).emitSl m.frame))

/-- R20, R21, R397, R399, R410, R412: a downlink frame. One that fails its check is counted on its port; one the other uplink has
already brought is used once; a new odometry or vehicle-time message is used; an INHIBIT is followed and a CLEAR decided. -/
def Obligations.DownlinkCommandsComplete : Prop :=
  (∀ (s : State) (port : Fin 2) (aon : Nat) (frame : List Byte), s.power.checkPassed = true →
    (s.rd .pln PLN.SL_LOS).testBit port.val = false → downFrame frame = none → ∀ c : Instr,
    c = .odometry port aon frame ∨ c = .vtime port aon frame ∨ c = .inhibit port frame ∨ c = .clear port frame →
    exec c s = .next (s.count .pln (if port.val = 0 then PLN.CNT_SL0_CRC else PLN.CNT_SL1_CRC)))
  ∧ (∀ (s t : State) (port : Fin 2) (aon k seq : Nat) (frame b : List Byte), s.power.checkPassed = true →
    (s.rd .pln PLN.SL_LOS).testBit port.val = false → downFrame frame = some (k, b) → seq = field b 1 2 →
    (k = 0x11 ∨ k = 0x12 → s.frameLater k seq = true →
      t = { s with plinth := { s.plinth with used := (⟨k, seq, port.val, b⟩ :: s.plinth.used).take 65536 } } →
      (k = 0x11 → exec (.odometry port aon frame) s
        = .next (t.useOdo (50 * s.time.beatNo + aon % 50) seq (toInt 64 (field b 3 8))))
      ∧ (k = 0x12 → exec (.vtime port aon frame) s = .next (t.useVt (50 * s.time.beatNo + aon % 50) (field b 3 8))))
    ∧ (s.cmdNew seq = true →
      t = ({ s with plinth := { s.plinth with cmdSeen := true } } : State).wr .pln PLN.CMD_SEQ seq →
      (k = 0x13 → exec (.inhibit port frame) s
        = .next (((t.wr .pln PLN.SL_INHIBIT (field b 3 1)).plinthAudit 0x51 5 (2 + port.val) 0
            (leBytes 2 seq ++ slice b 3 1)).followInhibit))
      ∧ (k = 0x14 → ∃ u v : State, exec (.clear port frame) s = .next v
          ∧ u = t.decideClear 5 (2 + port.val) seq (seq + 2 ^ 17 * port.val)
          ∧ v = { u with plinth := { u.plinth with acks := u.plinth.acks ++ [⟨seq, t.clearCode, s.time.beatNo⟩] } })))

/-! ### Rules of the records and of safe state -/

/-- R23: the check of a record. The model's `crc32c` is the CRC of the reflected polynomial 0x82F63B78, bit by bit, with initial
value and final XOR of ones; its check value is the rule's; a record is 124 bytes and their CRC, little-endian. -/
def Obligations.RecordCheckIsCrc32c : Prop :=
  crc32c ([0x31, 0x32, 0x33, 0x34, 0x35, 0x36, 0x37, 0x38, 0x39].map (BitVec.ofNat 8)) = 0xE3069283
  ∧ (∀ l : List Byte, crc32c l = Nat.xor (crcR 0x82F63B78 0xFFFFFFFF l) 0xFFFFFFFF)
  ∧ (∀ (l : List Byte) (b : Byte) (c : Nat),
      crcR 0x82F63B78 c (b :: l) = crcR 0x82F63B78 ((List.range 8).foldl (fun x _ => Nat.xor (x / 2) (x % 2 * 0x82F63B78))
        (Nat.xor c b.toNat)) l)
  ∧ (∀ (r : LatchedRecord) (seq : BitVec 32), r.body.length = 120 →
      (r.bytes seq).length = 128 ∧ (r.bytes seq).take 124 = r.body ++ leBytes 4 seq.toNat
      ∧ (r.bytes seq).drop 124 = leBytes 4 (crc32c ((r.bytes seq).take 124)))

/-- R15: the reason of a record is the lowest of the codes whose condition holds, with the lowest item; code 0x00 only where no
condition holds; and the verdict is the one of the code. -/
def Obligations.ReasonIsLowestCode : Prop :=
  (∀ l : List (Nat × Nat), (∀ c ∈ l, c.1 ≠ 0) →
    (l = [] → (pickReason l).1 = 0)
    ∧ (l ≠ [] → pickReason l ∈ l ∧ ∀ c ∈ l, (pickReason l).1 < c.1 ∨ ((pickReason l).1 = c.1 ∧ (pickReason l).2 ≤ c.2)))
  ∧ (∀ c, c = 0 ∨ 0x30 ≤ c → verdictOf c = 1) ∧ (∀ c, 0x20 ≤ c → c < 0x30 → verdictOf c = 2)
  ∧ (∀ c, 0x10 ≤ c → c < 0x20 → verdictOf c = 3) ∧ (∀ c, 0 < c → c < 0x10 → verdictOf c = 4)

/-- R412, R413: the result of a clear, and what an accepted one does: it ends safe state, frees every pair, sets the budget's
counts and SAFE_UNITS to zero, writes fault record 0x6041 and leaves the tests as they are; one that is not accepted changes
nothing but its result, its
event bit and the audit log. -/
def Obligations.ClearFollowsItsResult : Prop :=
  (∀ s : State,
    (s.plinth.safe = false → s.clearCode = 1)
    ∧ (s.plinth.safe = true → s.plinth.causes ≠ [] → s.clearCode = 2)
    ∧ (s.plinth.safe = true → s.plinth.causes = [] → s.checkerFresh = true → s.clearCode = 0)
    ∧ (s.plinth.safe = true → s.plinth.causes = [] → s.checkerFresh = false → s.clearCode = 3))
  ∧ (∀ (s : State) (detail : Nat), RegFile.wf s.regs →
    (s.acceptClear detail).plinth.safe = false
    ∧ (∀ p ∈ (s.acceptClear detail).plinth.pairs, p.oob = [] ∧ p.persist = 0 ∧ p.gap = 0 ∧ p.withheld = false)
    ∧ (s.acceptClear detail).plinth.pairs.length = s.plinth.pairs.length
    ∧ (s.acceptClear detail).plinth.history = [] ∧ (s.acceptClear detail).rasp = s.rasp
    ∧ (∃ t : State, s.acceptClear detail = (t.faultRec .pln 0x6041 0 [detail, 0, 0, 0] true).raise .pln 2
        ∧ t.rd .pln PLN.INV_RUN = 0 ∧ t.rd .pln PLN.INV_WIN = 0 ∧ t.rd .pln PLN.SAFE_UNITS = 0 ∧ t.rd .pln PLN.SAFE = 0
        ∧ t = { s with regs := t.regs, plinth := t.plinth }))
  ∧ (∀ (s : State) (actor port seq detail : Nat), s.clearCode ≠ 0 →
    s.decideClear actor port seq detail
      = ((s.wr .pln PLN.CLEAR_RESULT s.clearCode).plinthAudit 0x50 actor port s.clearCode (leBytes 2 seq)).raise .pln 3)

/-- R414: INV_RUN and INV_WIN count the INVALID records, and a ninth in a row, or one too many among the latest 64, is a cause of
safe state. -/
def Obligations.BudgetCountsInvalidRecords : Prop :=
  (∀ s : State, RegFile.wf s.regs →
    (s.rd .pln PLN.INV_RUN < 15 → (s.countInvalid true).rd .pln PLN.INV_RUN = s.rd .pln PLN.INV_RUN + 1)
    ∧ (s.countInvalid false).rd .pln PLN.INV_RUN = 0
    ∧ (∀ b, (s.countInvalid b).plinth.history = (b :: s.plinth.history).take 64
        ∧ (s.countInvalid b).rd .pln PLN.INV_WIN = (((b :: s.plinth.history).take 64).filter id).length))
  ∧ (∀ s : State,
    (s.checkBudget 2 = s ∨ s.checkBudget 2 = s.addCause 6 0xFF s.inUseUnits)
    ∧ (8 ≤ s.rd .pln PLN.INV_RUN → s.checkBudget 2 = s.addCause 6 0xFF s.inUseUnits)
    ∧ (s.rd .pln PLN.INV_WIN_MAX < ((s.plinth.history.take 63).filter id).length + 1 →
        s.checkBudget 2 = s.addCause 6 0xFF s.inUseUnits)
    ∧ (∀ v, v ≠ 2 → s.checkBudget v = s))

/-! ### Rules of the arithmetic -/

/-- R140, R142: white balance and the colour matrix, at every pixel of a row that is not missing. -/
def Obligations.ColourArithmetic : Prop :=
  ∀ (f : IfeFrame) (r c : Nat), r < f.h → c < f.w → r ∉ f.missing →
    (∀ p : Plane, (f.balance p).at r c
      = max 0 (min 65535 ((p.at r c * u16 f.par (0x110 + 2 * f.chan r c) + 2048) / 4096)))
    ∧ (∀ (x : Rgb) (i : Nat), i < 3 →
      ([(f.matrix x).r, (f.matrix x).g, (f.matrix x).b].getD i []).at r c
        = max 0 (min 65535 ((s16 f.par (0x130 + 6 * i) * x.r.at r c + s16 f.par (0x130 + 6 * i + 2) * x.g.at r c
            + s16 f.par (0x130 + 6 * i + 4) * x.b.at r c + 2048) / 4096 + s16 f.par (0x142 + 2 * i))))

/-- R209, R210, R221: the source point of a warped pixel, its bilinear value, and a level of the pyramid: the binomial sum of the
finer one at every second site, taps outside reflected. -/
def Obligations.ResamplingArithmetic : Prop :=
  (∀ (t : Warp) (y x : Nat),
    (∀ k, t.source y x k
      = ((16 - (x % 16 : Nat)) * (16 - (y % 16 : Nat)) * t.node (x / 16) (y / 16) k
        + (x % 16 : Nat) * (16 - (y % 16 : Nat)) * t.node (x / 16 + 1) (y / 16) k
        + (16 - (x % 16 : Nat)) * (y % 16 : Nat) * t.node (x / 16) (y / 16 + 1) k
        + (x % 16 : Nat) * (y % 16 : Nat) * t.node (x / 16 + 1) (y / 16 + 1) k + 128) / 256)
    ∧ (∀ (ix iy ax ay d : Int) (p : Int → Int → Int), t.bicubic = false → ix = t.source y x 0 / 256 → ax = t.source y x 0 % 256 →
      iy = t.source y x 1 / 256 → ay = t.source y x 1 % 256 → d = t.tap 0 iy ix → (∀ u v, p u v = t.tap d v u) →
      t.pixel y x = ((256 - ax) * (256 - ay) * p ix iy + ax * (256 - ay) * p (ix + 1) iy + (256 - ax) * ay * p ix (iy + 1)
        + ax * ay * p (ix + 1) (iy + 1) + 32768) / 65536))
  ∧ (∀ (l : Level) (y x : Nat) (g : Int → Int → Int), y < l.reduce.h → x < l.reduce.w → l.missing = [] →
    (∀ u v, g u v = l.p.at (reflect l.h v) (reflect l.w u)) →
    l.reduce.w = (l.w + 1) / 2 ∧ l.reduce.h = (l.h + 1) / 2
    ∧ l.reduce.p.at y x = (((List.range 5).map fun (j : Nat) => ((List.range 5).map fun (i : Nat) =>
        ([1, 4, 6, 4, 1] : List Int).getD i 0 * ([1, 4, 6, 4, 1] : List Int).getD j 0
          * g (2 * (x : Int) + i - 2) (2 * (y : Int) + j - 2)).sum).sum + 128) / 256)

/-- R298: the stochastic rounding generator, in 64-bit words. -/
def Obligations.RoundingGenerator : Prop :=
  ∀ (seed graph node cmd step elem : BitVec 64) (mix : BitVec 64 → BitVec 64) (gold : BitVec 64),
    gold = 0x9E3779B97F4A7C15 →
    (∀ z : BitVec 64, ∃ a b : BitVec 64, a = (z ^^^ (z >>> 30)) * 0xBF58476D1CE4E5B9 ∧ b = (a ^^^ (a >>> 27)) * 0x94D049BB133111EB
      ∧ mix z = b ^^^ (b >>> 31)) →
    graph < 256 → node < 65536 → cmd < 1024 → step < 0x1000000000000 → elem < 0x1000000000000 →
    srGen seed.toNat graph.toNat node.toNat cmd.toNat step.toNat elem.toNat
      = (mix ((mix ((mix ((mix (seed + gold) ^^^ ((graph <<< 56) ||| (node <<< 40) ||| (cmd <<< 30))) + gold) ^^^ step) + gold)
          ^^^ elem) + gold) >>> 32).toNat

/-! ### Rules of the address space -/

/-- R331, R457: what lies at a device address. -/
def Obligations.AddressMap : Prop :=
  (∀ (s : State) (c k o : Nat), c < 6 →
    (o < 0x400000 → s.place (0x10000000000 + c * 0x1000000 + o) = .cmem c o)
    ∧ (k < 3 → o < 0x200000 → s.place (0x10000000000 + c * 0x1000000 + 0x400000 + k * 0x200000 + o) = .spm (4 * c + k) o)
    ∧ (0xA00000 ≤ o → o < 0x1000000 → s.place (0x10000000000 + c * 0x1000000 + o) = .nothing))
  ∧ (∀ (s : State) (a : Nat),
    (a < 0x400000000 → s.place a = .gddr (a / 2 ^ 33) ∨ s.place a = .hole)
    ∧ (0xF0000000000 ≤ a → a ≤ 0xF0000FFFFFF → s.place a = .csr)
    ∧ (0x800000000000 ≤ a → a ≤ 0xFFFFFFFFFFFF → s.place a = .host)
    ∧ (0x400000000 ≤ a → a < 0x10000000000 → s.place a = .nothing)
    ∧ (0x10006000000 ≤ a → a < 0xF0000000000 → s.place a = .nothing)
    ∧ (0xF0001000000 ≤ a → a < 0x800000000000 → s.place a = .nothing))

/-- R352, R353: the channel of a GDDR6 address: an aligned 8 KiB range places sixteen consecutive lines on each of its group's
eight channels; and the addresses of a group that inline ECC leaves. -/
def Obligations.ChannelInterleave : Prop :=
  (∀ (b : Nat) (ch : Nat), b < 2 ^ 21 → ch < 8 →
    ((List.range 128).filter fun i => gddrChannel (8192 * b + 64 * i) = 8 * (8192 * b / 2 ^ 33) + ch).length = 16)
  ∧ (∀ (s : State) (g a : Nat), g < 2 → a < 2 ^ 33 →
    (s.fabric.eccOn.getD g true = true → (s.place (g * 2 ^ 33 + a) = .gddr g ↔ a < 0x1E0000000))
    ∧ (s.fabric.eccOn.getD g true = false → s.place (g * 2 ^ 33 + a) = .gddr g))

/-! ### Number formats -/

/-- R296, R297: a finite value, an infinity and a NaN converted to an integer format, in every rounding mode: an integer of the
range is itself, one beyond it becomes the limit and is counted. -/
def Obligations.IntegerConversion : Prop :=
  ∀ (fmt mode r : Nat) (lo hi : Int), fmt ≤ 6 → (lo, hi) = intRange fmt →
    (∀ v : Int, lo ≤ v → v ≤ hi → encodeElem fmt mode r (Num.ofInt v) = ⟨ofInt (fmtBits fmt) v, 0, 0⟩)
    ∧ (∀ v : Int, hi < v → encodeElem fmt mode r (Num.ofInt v) = ⟨ofInt (fmtBits fmt) hi, 1, 0⟩)
    ∧ (∀ v : Int, v < lo → encodeElem fmt mode r (Num.ofInt v) = ⟨ofInt (fmtBits fmt) lo, 1, 0⟩)
    ∧ encodeElem fmt mode r (.inf false) = ⟨ofInt (fmtBits fmt) hi, 1, 0⟩
    ∧ encodeElem fmt mode r (.inf true) = ⟨ofInt (fmtBits fmt) lo, 1, 0⟩
    ∧ encodeElem fmt mode r .nan = ⟨0, 0, 1⟩

/-- R290, R296: every finite code of a floating-point format converts to itself, in every rounding mode and with every word of the
rounding generator. -/
def Obligations.FloatCodesRoundTrip : Prop :=
  ∀ (fmt code mode r : Nat), 7 ≤ fmt → fmt ≤ 14 → code < 2 ^ fmtBits fmt → (decodeElem fmt code).nonFinite = false →
    encodeElem fmt mode r (decodeElem fmt code) = ⟨code, 0, 0⟩

/-- R460–R463: every field of every register page lies within its word and its page, and its after-reset value within the
field. -/
def Obligations.FieldsFitTheirWords : Prop :=
  ∀ p ∈ allPages, ∀ f ∈ p.fields, f.lo + f.width ≤ 32 ∧ 0 < f.width ∧ f.rst < 2 ^ f.width ∧ f.off % 4 = 0
    ∧ f.off + (f.n1 - 1) * f.s1 + (f.n2 - 1) * f.s2 < 4096

end
end

