-- ==== Sys2Proof/Laws/Aside.lean ====
section
/-! SUPPORT. Commands that store nothing: what the operations of the links, the cameras, the sessions and the records
leave alone, as one relation between a state and a later one. -/

set_option Elab.async false

namespace Sys2Proof.Machine

/-- `t` has the memory and streams, clusters, self-tests, store, life cycle, power, shadows, blocks in reset and tasks
of `s`. -/
def Aside (s t : State) : Prop :=
  t.fabric = s.fabric ∧ t.clusters = s.clusters ∧ t.rasp = s.rasp ∧ t.mgc.store = s.mgc.store ∧ t.mgc.lifeCycle = s.mgc.lifeCycle
    ∧ t.power = s.power ∧ t.shadow = s.shadow ∧ t.resets = s.resets ∧ t.amt.tasks = s.amt.tasks

namespace Aside
variable {s t u : State}
theorem refl (s : State) : Aside s s := ⟨rfl, rfl, rfl, rfl, rfl, rfl, rfl, rfl, rfl⟩
theorem trans (h : Aside s t) (k : Aside t u) : Aside s u := by
  unfold Aside at *
  obtain ⟨a, b, c, d, e, f, g, i, j⟩ := h
  obtain ⟨a', b', c', d', e', f', g', i', j'⟩ := k
  exact ⟨a'.trans a, b'.trans b, c'.trans c, d'.trans d, e'.trans e, f'.trans f, g'.trans g, i'.trans i, j'.trans j⟩
/-- A single operation. -/
theorem step (h : Aside s t) (k : Aside t u) : Aside s u := h.trans k
theorem cut {b : Prop} (h : Aside s t) (k : Aside s t → b) : b := k h
theorem ite {c : Prop} [Decidable c] (h : Aside s t) (k : Aside s u) : Aside s (if c then t else u) := by
  split
  · exact h
  · exact k
theorem foldl {α : Type} {f : State → α → State} {l : List α} (h : Aside s t) (hf : ∀ u x, Aside s u → Aside s (f u x)) :
    Aside s (l.foldl f t) := by
  induction l generalizing t with
  | nil => exact h
  | cons x l ih => exact ih (hf t x h)
theorem foldl_fst {α β : Type} {f : State × β → α → State × β} {l : List α} {t : State × β} (h : Aside s t.1)
    (hf : ∀ u x, Aside s u.1 → Aside s (f u x).1) : Aside s (l.foldl f t).1 := by
  induction l generalizing t with
  | nil => exact h
  | cons x l ih => exact ih (hf t x h)
theorem foldl_snd {α β : Type} {f : β × State → α → β × State} {l : List α} {t : β × State} (h : Aside s t.2)
    (hf : ∀ u x, Aside s u.2 → Aside s (f u x).2) : Aside s (l.foldl f t).2 := by
  induction l generalizing t with
  | nil => exact h
  | cons x l ih => exact ih (hf t x h)
end Aside

theorem State.wr_aside {z0 z1 : State} {a1 a2 a3 a4 a5} (h1 : Aside z0 z1) : Aside z0 (State.wr z1 a1 a2 a3 a4 a5) := by
  exact h1.step ⟨rfl, rfl, rfl, rfl, rfl, rfl, rfl, rfl, rfl⟩

theorem State.count_aside {z0 z1 : State} {a1 a2 a3 a4 a5} (h1 : Aside z0 z1) : Aside z0 (State.count z1 a1 a2 a3 a4 a5) := by
  unfold State.count
  refine State.wr_aside ?_
  assumption

theorem State.draw_aside {z0 z1 : State} (h1 : Aside z0 z1) : Aside z0 (State.draw z1).2 := by
  exact h1.step ⟨rfl, rfl, rfl, rfl, rfl, rfl, rfl, rfl, rfl⟩

theorem State.drawBytes_aside {z0 z1 : State} {a1} (h1 : Aside z0 z1) : Aside z0 (State.drawBytes z1 a1).2 := by
  exact h1.step ⟨rfl, rfl, rfl, rfl, rfl, rfl, rfl, rfl, rfl⟩

theorem State.setPort_aside {z0 z1 : State} {a1 a2} (h1 : Aside z0 z1) : Aside z0 (State.setPort z1 a1 a2) := by
  unfold State.setPort
  refine Aside.step ?_ ⟨rfl, rfl, rfl, rfl, rfl, rfl, rfl, rfl, rfl⟩
  assumption

theorem State.emit_aside {z0 z1 : State} {a1} (h1 : Aside z0 z1) : Aside z0 (State.emit z1 a1) := by
  exact h1.step ⟨rfl, rfl, rfl, rfl, rfl, rfl, rfl, rfl, rfl⟩

theorem pumpN_aside {z0 z1 : State} {a1 a2} (h1 : Aside z0 z1) : Aside z0 (pumpN a1 a2 z1) := by
  induction a2 generalizing z1 with
  | zero => exact h1
  | succ n ih =>
    unfold pumpN
    extract_lets
    split
    · exact State.setPort_aside h1
    · exact ih (State.emit_aside (State.setPort_aside h1))

theorem State.pump_aside {z0 z1 : State} {a1} (h1 : Aside z0 z1) : Aside z0 (State.pump z1 a1) := by
  unfold State.pump
  split
  · refine pumpN_aside ?_
    assumption
  · assumption

theorem State.queueMsg_aside {z0 z1 : State} {a1 a2} (h1 : Aside z0 z1) : Aside z0 (State.queueMsg z1 a1 a2) := by
  unfold State.queueMsg
  extract_lets +onlyGivenNames x0
  extract_lets +onlyGivenNames x1
  refine State.pump_aside ?_
  refine State.setPort_aside ?_
  assumption

theorem State.complete_aside {z0 z1 : State} {a1 a2 a3 a4 a5 a6} (h1 : Aside z0 z1) : Aside z0 (State.complete z1 a1 a2 a3 a4 a5 a6) := by
  unfold State.complete
  refine State.queueMsg_aside ?_
  assumption

theorem State.queueEvent_aside {z0 z1 : State} {a1 a2 a3} (h1 : Aside z0 z1) : Aside z0 (State.queueEvent z1 a1 a2 a3) := by
  unfold State.queueEvent
  extract_lets +onlyGivenNames x0
  split
  · refine State.setPort_aside ?_
    refine State.count_aside ?_
    assumption
  · extract_lets +onlyGivenNames x1
    refine State.pump_aside ?_
    refine State.setPort_aside ?_
    assumption

theorem State.broadcast_aside {z0 z1 : State} {a1 a2} (h1 : Aside z0 z1) : Aside z0 (State.broadcast z1 a1 a2) := by
  unfold State.broadcast
  refine Aside.foldl ?_ (fun _ _ _ => ?_)
  · assumption
  · split
    · refine State.queueEvent_aside ?_
      assumption
    · assumption

theorem State.jobDone_aside {z0 z1 : State} {a1 a2 a3 a4} (h1 : Aside z0 z1) : Aside z0 (State.jobDone z1 a1 a2 a3 a4) := by
  unfold State.jobDone
  extract_lets +onlyGivenNames x0
  extract_lets +onlyGivenNames x1
  split
  · refine State.queueEvent_aside ?_
    assumption
  · split
    · refine State.queueEvent_aside ?_
      assumption
    · refine Aside.step ?_ ⟨rfl, rfl, rfl, rfl, rfl, rfl, rfl, rfl, rfl⟩
      assumption

theorem State.keepFault_aside {z0 z1 : State} {a1} (h1 : Aside z0 z1) : Aside z0 (State.keepFault z1 a1) := by
  unfold State.keepFault
  extract_lets +onlyGivenNames x0
  extract_lets +onlyGivenNames x1
  extract_lets +onlyGivenNames x2
  refine Aside.cut (s := z0) (t := x2) ?_ (fun _ => ?_)
  · subst x2
    refine Aside.step ?_ ⟨rfl, rfl, rfl, rfl, rfl, rfl, rfl, rfl, rfl⟩
    assumption
  clear_value x2
  refine State.count_aside ?_
  refine State.wr_aside ?_
  assumption

theorem State.headFault_aside {z0 z1 : State} {a1 a2} (h1 : Aside z0 z1) : Aside z0 (State.headFault z1 a1 a2) := by
  unfold State.headFault
  refine State.count_aside ?_
  refine State.wr_aside ?_
  assumption

theorem State.slFault_aside {z0 z1 : State} {a1} (h1 : Aside z0 z1) : Aside z0 (State.slFault z1 a1) := by
  unfold State.slFault
  split
  · refine State.count_aside ?_
    assumption
  · refine Aside.step ?_ ⟨rfl, rfl, rfl, rfl, rfl, rfl, rfl, rfl, rfl⟩
    assumption

theorem State.details_aside {z0 z1 : State} {a1} (h1 : Aside z0 z1) : Aside z0 (State.details z1 a1).2 := by
  unfold State.details
  split
  · exact h1.step ⟨rfl, rfl, rfl, rfl, rfl, rfl, rfl, rfl, rfl⟩
  · exact h1

theorem State.faultRec_aside {z0 z1 : State} {a1 a2 a3 a4 a5} (h1 : Aside z0 z1) : Aside z0 (State.faultRec z1 a1 a2 a3 a4 a5) := by
  unfold State.faultRec
  extract_lets +onlyGivenNames x0
  refine Aside.cut (s := z0) (t := x0.2) ?_ (fun _ => ?_)
  · subst x0
    refine State.details_aside ?_
    assumption
  clear_value x0
  extract_lets +onlyGivenNames x1
  extract_lets +onlyGivenNames x2
  refine Aside.cut (s := z0) (t := x2) ?_ (fun _ => ?_)
  · subst x2
    refine State.broadcast_aside ?_
    refine State.headFault_aside ?_
    refine State.keepFault_aside ?_
    assumption
  clear_value x2
  split
  · refine State.slFault_aside ?_
    assumption
  · assumption

theorem State.fault_aside {z0 z1 : State} {a1 a2 a3 a4} (h1 : Aside z0 z1) : Aside z0 (State.fault z1 a1 a2 a3 a4) := by
  unfold State.fault
  refine State.faultRec_aside ?_
  assumption

theorem State.audit_aside {z0 z1 : State} {a1 a2 a3 a4 a5 a6} (h1 : Aside z0 z1) : Aside z0 (State.audit z1 a1 a2 a3 a4 a5 a6) := by
  unfold State.audit
  extract_lets +onlyGivenNames x0
  refine Aside.step ?_ ⟨rfl, rfl, rfl, rfl, rfl, rfl, rfl, rfl, rfl⟩
  assumption

theorem State.raise_aside {z0 z1 : State} {a1 a2} (h1 : Aside z0 z1) : Aside z0 (State.raise z1 a1 a2) := by
  unfold State.raise
  extract_lets +onlyGivenNames x0
  split
  · assumption
  · extract_lets +onlyGivenNames x1
    refine Aside.cut (s := z0) (t := x1) ?_ (fun _ => ?_)
    · subst x1
      refine State.wr_aside ?_
      assumption
    clear_value x1
    split
    · refine Aside.step ?_ ⟨rfl, rfl, rfl, rfl, rfl, rfl, rfl, rfl, rfl⟩
      assumption
    · assumption

theorem State.setCam_aside {z0 z1 : State} {a1 a2} (h1 : Aside z0 z1) : Aside z0 (State.setCam z1 a1 a2) := by
  unfold State.setCam
  refine Aside.step ?_ ⟨rfl, rfl, rfl, rfl, rfl, rfl, rfl, rfl, rfl⟩
  assumption

theorem State.setRun_aside {z0 z1 : State} {a1 a2} (h1 : Aside z0 z1) : Aside z0 (State.setRun z1 a1 a2) := by
  unfold State.setRun
  refine Aside.step ?_ ⟨rfl, rfl, rfl, rfl, rfl, rfl, rfl, rfl, rfl⟩
  assumption

theorem State.orphan_aside {z0 z1 : State} {a1} (h1 : Aside z0 z1) : Aside z0 (State.orphan z1 a1) := by
  unfold State.orphan
  refine State.count_aside ?_
  assumption

theorem State.showLost_aside {z0 z1 : State} {a1 a2} (h1 : Aside z0 z1) : Aside z0 (State.showLost z1 a1 a2) := by
  unfold State.showLost
  refine State.wr_aside ?_
  assumption

theorem State.stopFrames_aside {z0 z1 : State} {a1} (h1 : Aside z0 z1) : Aside z0 (State.stopFrames z1 a1) := by
  unfold State.stopFrames
  refine Aside.foldl ?_ (fun _ _ _ => ?_)
  · assumption
  · refine State.setRun_aside ?_
    assumption

theorem State.loseFraming_aside {z0 z1 : State} {a1 a2 a3} (h1 : Aside z0 z1) : Aside z0 (State.loseFraming z1 a1 a2 a3) := by
  unfold State.loseFraming
  split
  · assumption
  · refine State.fault_aside ?_
    refine State.stopFrames_aside ?_
    refine State.showLost_aside ?_
    refine State.setCam_aside ?_
    assumption

theorem State.resendConfig_aside {z0 z1 : State} {a1} (h1 : Aside z0 z1) : Aside z0 (State.resendConfig z1 a1) := by
  unfold State.resendConfig
  extract_lets +onlyGivenNames x0
  split
  · assumption
  · refine State.setCam_aside ?_
    assumption

theorem State.camLoseSignal_aside {z0 z1 : State} {a1} (h1 : Aside z0 z1) : Aside z0 (State.camLoseSignal z1 a1) := by
  unfold State.camLoseSignal
  extract_lets +onlyGivenNames x0
  refine Aside.cut (s := z0) (t := x0) ?_ (fun _ => ?_)
  · subst x0
    refine State.wr_aside ?_
    refine State.wr_aside ?_
    assumption
  clear_value x0
  split
  · refine State.loseFraming_aside ?_
    assumption
  · assumption

theorem State.camGainSignal_aside {z0 z1 : State} {a1} (h1 : Aside z0 z1) : Aside z0 (State.camGainSignal z1 a1) := by
  unfold State.camGainSignal
  refine State.wr_aside ?_
  assumption

theorem execCpBlockLock_aside {z0 z1 t0 : State} {a1} (h1 : Aside z0 z1) (ht : execCpBlockLock a1 z1 = .next t0) :
    Aside z0 t0 := by
  unfold execCpBlockLock at ht
  cases ht
  split
  · refine State.resendConfig_aside ?_
    refine State.wr_aside ?_
    assumption
  · assumption

theorem execCpLockLoss_aside {z0 z1 t0 : State} {a1} (h1 : Aside z0 z1) (ht : execCpLockLoss a1 z1 = .next t0) :
    Aside z0 t0 := by
  unfold execCpLockLoss at ht
  cases ht
  split
  · refine State.loseFraming_aside ?_
    refine State.wr_aside ?_
    assumption
  · assumption

theorem State.checkFn_aside {z0 z1 : State} {a1 a2 a3} (h1 : Aside z0 z1) : Aside z0 (State.checkFn z1 a1 a2 a3) := by
  unfold State.checkFn
  extract_lets +onlyGivenNames x0
  extract_lets +onlyGivenNames x1
  refine Aside.cut (s := z0) (t := x1) ?_ (fun _ => ?_)
  · subst x1
    refine State.wr_aside ?_
    assumption
  clear_value x1
  split
  · split
    · split
      · refine State.count_aside ?_
        assumption
      · assumption
    · split
      · refine State.count_aside ?_
        assumption
      · assumption
  · assumption

theorem State.openFrameAt_aside {z0 z1 : State} {a1 a2 a3} (h1 : Aside z0 z1) : Aside z0 (State.openFrameAt z1 a1 a2 a3) := by
  unfold State.openFrameAt
  extract_lets +onlyGivenNames x0
  extract_lets +onlyGivenNames x1
  extract_lets +onlyGivenNames x2
  extract_lets +onlyGivenNames x3
  refine State.wr_aside ?_
  refine State.setRun_aside ?_
  assumption

theorem State.frameStart_aside {z0 z1 : State} {a1 a2 a3} (h1 : Aside z0 z1) : Aside z0 (State.frameStart z1 a1 a2 a3) := by
  unfold State.frameStart
  extract_lets +onlyGivenNames x0
  refine Aside.cut (s := z0) (t := x0) ?_ (fun _ => ?_)
  · subst x0
    refine State.checkFn_aside ?_
    assumption
  clear_value x0
  split
  · refine State.openFrameAt_aside ?_
    assumption
  · split
    · refine State.openFrameAt_aside ?_
      assumption
    · refine State.count_aside ?_
      refine State.setRun_aside ?_
      assumption

theorem State.frameEnd_aside {z0 z1 : State} {a1} (h1 : Aside z0 z1) : Aside z0 (State.frameEnd z1 a1) := by
  unfold State.frameEnd
  split
  · refine State.setRun_aside ?_
    assumption
  · assumption

theorem State.onVc_aside {z0 z1 : State} {a1 a2 a3} (h1 : Aside z0 z1) (hf : ∀ s r, Aside z0 s → Aside z0 (a3 s r)) : Aside z0 (State.onVc z1 a1 a2 a3) := by
  unfold State.onVc
  dsimp only
  split
  · exact State.orphan_aside h1
  · exact Aside.foldl h1 fun _ _ h => hf _ _ h

theorem State.fsPacket_aside {z0 z1 : State} {a1 a2 a3} (h1 : Aside z0 z1) : Aside z0 (State.fsPacket z1 a1 a2 a3) := by
  unfold State.fsPacket
  refine State.onVc_aside ?_ ?_
  · assumption
  · intro _
    intro _
    intro _
    refine State.frameStart_aside ?_
    assumption

theorem State.fePacket_aside {z0 z1 : State} {a1 a2} (h1 : Aside z0 z1) : Aside z0 (State.fePacket z1 a1 a2) := by
  unfold State.fePacket
  refine State.onVc_aside ?_ ?_
  · assumption
  · intro _
    intro _
    intro _
    refine State.frameEnd_aside ?_
    assumption

theorem execFs_aside {z0 z1 t0 : State} {a1 a2 a3} (h1 : Aside z0 z1) (ht : execFs a1 a2 a3 z1 = .next t0) :
    Aside z0 t0 := by
  unfold execFs at ht
  cases ht
  split
  · refine State.fsPacket_aside ?_
    assumption
  · assumption

theorem execFe_aside {z0 z1 t0 : State} {a1 a2 a3} (h1 : Aside z0 z1) (ht : execFe a1 a2 a3 z1 = .next t0) :
    Aside z0 t0 := by
  unfold execFe at ht
  cases ht
  split
  · refine State.fePacket_aside ?_
    assumption
  · assumption

theorem execLsLe_aside {z0 z1 t0 : State} {a1 a2 a3 a4} (h1 : Aside z0 z1) (ht : execLsLe a1 a2 a3 a4 z1 = .next t0) :
    Aside z0 t0 := by
  unfold execLsLe at ht
  cases ht
  assumption

theorem State.putRow_aside {z0 z1 : State} {a1 a2 a3 a4 a5} (h1 : Aside z0 z1) : Aside z0 (State.putRow z1 a1 a2 a3 a4 a5) := by
  unfold State.putRow
  refine Aside.step ?_ ⟨rfl, rfl, rfl, rfl, rfl, rfl, rfl, rfl, rfl⟩
  assumption

theorem State.takeRow_aside {z0 z1 : State} {a1 a2 a3 a4} (h1 : Aside z0 z1) : Aside z0 (State.takeRow z1 a1 a2 a3 a4) := by
  unfold State.takeRow
  split
  · extract_lets +onlyGivenNames x0
    extract_lets +onlyGivenNames x1
    refine State.putRow_aside ?_
    refine State.setRun_aside ?_
    assumption
  · refine State.setRun_aside ?_
    assumption

theorem State.frameRow_aside {z0 z1 : State} {a1 a2 a3} (h1 : Aside z0 z1) : Aside z0 (State.frameRow z1 a1 a2 a3) := by
  unfold State.frameRow
  split
  · refine State.orphan_aside ?_
    assumption
  · extract_lets +onlyGivenNames x0
    split
    · refine State.orphan_aside ?_
      assumption
    · extract_lets +onlyGivenNames x1
      refine State.takeRow_aside ?_
      assumption

theorem State.lineRow_aside {z0 z1 : State} {a1 a2 a3} (h1 : Aside z0 z1) : Aside z0 (State.lineRow z1 a1 a2 a3) := by
  unfold State.lineRow
  split
  · refine State.orphan_aside ?_
    assumption
  · extract_lets +onlyGivenNames x0
    extract_lets +onlyGivenNames x1
    refine State.wr_aside ?_
    refine State.takeRow_aside ?_
    assumption

theorem State.rowPacket_aside {z0 z1 : State} {a1 a2 a3 a4 a5 a6} (h1 : Aside z0 z1) : Aside z0 (State.rowPacket z1 a1 a2 a3 a4 a5 a6) := by
  unfold State.rowPacket
  split
  · assumption
  · split
    · refine State.orphan_aside ?_
      assumption
    · split
      · refine State.orphan_aside ?_
        assumption
      · split
        · assumption
        · extract_lets +onlyGivenNames x0
          extract_lets +onlyGivenNames x1
          extract_lets +onlyGivenNames x2
          refine Aside.cut (s := z0) (t := x2) ?_ (fun _ => ?_)
          · subst x2
            split
            · assumption
            · refine State.count_aside ?_
              assumption
          clear_value x2
          extract_lets +onlyGivenNames x3
          refine Aside.cut (s := z0) (t := x3) ?_ (fun _ => ?_)
          · subst x3
            split
            · refine State.count_aside ?_
              assumption
            · assumption
          clear_value x3
          extract_lets +onlyGivenNames x4
          split
          · refine State.lineRow_aside ?_
            assumption
          · refine State.frameRow_aside ?_
            assumption

theorem State.longChecked_aside {z0 z1 : State} {a1 a2 a3 a4} (h1 : Aside z0 z1) : Aside z0 (State.longChecked z1 a1 a2 a3 a4) := by
  unfold State.longChecked
  split
  · refine State.count_aside ?_
    assumption
  · extract_lets +onlyGivenNames x0
    refine Aside.cut (s := z0) (t := x0) ?_ (fun _ => ?_)
    · subst x0
      split
      · refine State.count_aside ?_
        assumption
      · assumption
    clear_value x0
    refine State.rowPacket_aside ?_
    assumption

theorem State.longPacket_aside {z0 z1 : State} {a1 a2 a3 a4} (h1 : Aside z0 z1) : Aside z0 (State.longPacket z1 a1 a2 a3 a4) := by
  unfold State.longPacket
  refine State.longChecked_aside ?_
  assumption

theorem execLongPacket_aside {z0 z1 t0 : State} {a1 a2 a3 a4} (h1 : Aside z0 z1) (ht : execLongPacket a1 a2 a3 a4 z1 = .next t0) :
    Aside z0 t0 := by
  unfold execLongPacket at ht
  split at ht
  · cases ht
    split
    · refine State.longPacket_aside ?_
      assumption
    · assumption
  · cases ht

theorem execFsDeadline_aside {z0 z1 t0 : State} {a1 a2} (h1 : Aside z0 z1) (ht : execFsDeadline a1 a2 z1 = .next t0) :
    Aside z0 t0 := by
  unfold execFsDeadline at ht
  extract_lets +onlyGivenNames x0 at ht
  cases ht
  split
  · refine State.loseFraming_aside ?_
    assumption
  · assumption

theorem State.report_aside {z0 z1 : State} {a1 a2} (h1 : Aside z0 z1) : Aside z0 (State.report z1 a1 a2) := by
  unfold State.report
  extract_lets +onlyGivenNames x0
  extract_lets +onlyGivenNames x1
  refine Aside.cut (s := z0) (t := x1) ?_ (fun _ => ?_)
  · subst x1
    refine State.setCam_aside ?_
    assumption
  clear_value x1
  extract_lets +onlyGivenNames x2
  refine Aside.step ?_ ⟨rfl, rfl, rfl, rfl, rfl, rfl, rfl, rfl, rfl⟩
  assumption

theorem State.lateSetting_aside {z0 z1 : State} {a1 a2} (h1 : Aside z0 z1) : Aside z0 (State.lateSetting z1 a1 a2) := by
  unfold State.lateSetting
  split
  · refine State.count_aside ?_
    refine State.raise_aside ?_
    assumption
  · assumption

theorem State.emitTunnel_aside {z0 z1 : State} {a1 a2} (h1 : Aside z0 z1) : Aside z0 (State.emitTunnel z1 a1 a2) := by
  unfold State.emitTunnel
  extract_lets +onlyGivenNames x0
  refine State.emit_aside ?_
  refine State.setCam_aside ?_
  assumption

theorem State.failTunnel_aside {z0 z1 : State} {a1 a2} (h1 : Aside z0 z1) : Aside z0 (State.failTunnel z1 a1 a2) := by
  unfold State.failTunnel
  extract_lets +onlyGivenNames x0
  extract_lets +onlyGivenNames x1
  refine Aside.cut (s := z0) (t := x1) ?_ (fun _ => ?_)
  · subst x1
    refine State.fault_aside ?_
    refine State.count_aside ?_
    refine State.setCam_aside ?_
    assumption
  clear_value x1
  split
  · refine State.report_aside ?_
    assumption
  · assumption

theorem State.retryTunnel_aside {z0 z1 : State} {a1 a2} (h1 : Aside z0 z1) : Aside z0 (State.retryTunnel z1 a1 a2) := by
  unfold State.retryTunnel
  extract_lets +onlyGivenNames x0
  split
  · split
    · refine State.setCam_aside ?_
      assumption
    · refine State.emitTunnel_aside ?_
      assumption
  · refine State.failTunnel_aside ?_
    assumption

theorem execTunnelSend_aside {z0 z1 t0 : State} {a1} (h1 : Aside z0 z1) (ht : execTunnelSend a1 z1 = .next t0) :
    Aside z0 t0 := by
  unfold execTunnelSend at ht
  extract_lets +onlyGivenNames x0 at ht
  cases ht
  split
  · split
    · split
      · refine State.retryTunnel_aside ?_
        assumption
      · assumption
    · assumption
    · split
      · assumption
      · extract_lets +onlyGivenNames x1
        extract_lets +onlyGivenNames x2
        refine Aside.cut (s := z0) (t := x2) ?_ (fun _ => ?_)
        · subst x2
          refine State.emitTunnel_aside ?_
          refine State.setCam_aside ?_
          assumption
        clear_value x2
        split
        · refine State.lateSetting_aside ?_
          refine State.report_aside ?_
          assumption
        · assumption
  · assumption

theorem State.confirmTunnel_aside {z0 z1 : State} {a1 a2} (h1 : Aside z0 z1) : Aside z0 (State.confirmTunnel z1 a1 a2) := by
  unfold State.confirmTunnel
  extract_lets +onlyGivenNames x0
  extract_lets +onlyGivenNames x1
  refine State.setCam_aside ?_
  assumption

theorem State.tunnelAck_aside {z0 z1 : State} {a1 a2 a3} (h1 : Aside z0 z1) : Aside z0 (State.tunnelAck z1 a1 a2 a3) := by
  unfold State.tunnelAck
  split
  · assumption
  · split
    · assumption
    · split
      · refine State.confirmTunnel_aside ?_
        assumption
      · split
        · refine State.retryTunnel_aside ?_
          assumption
        · split
          · refine State.failTunnel_aside ?_
            assumption
          · assumption

theorem execTunnelAck_aside {z0 z1 t0 : State} {a1 a2 a3} (h1 : Aside z0 z1) (ht : execTunnelAck a1 a2 a3 z1 = .next t0) :
    Aside z0 t0 := by
  unfold execTunnelAck at ht
  cases ht
  split
  · refine State.tunnelAck_aside ?_
    assumption
  · assumption

theorem execTunAckTmo_aside {z0 z1 t0 : State} {a1} (h1 : Aside z0 z1) (ht : execTunAckTmo a1 z1 = .next t0) :
    Aside z0 t0 := by
  unfold execTunAckTmo at ht
  cases ht
  split
  · split
    · refine State.retryTunnel_aside ?_
      assumption
    · assumption
  · assumption

theorem State.shortChecked_aside {z0 z1 : State} {a1 a2} (h1 : Aside z0 z1) : Aside z0 (State.shortChecked z1 a1 a2) := by
  unfold State.shortChecked
  split
  · refine State.count_aside ?_
    assumption
  · extract_lets +onlyGivenNames x0
    refine Aside.cut (s := z0) (t := x0) ?_ (fun _ => ?_)
    · subst x0
      split
      · refine State.count_aside ?_
        assumption
      · assumption
    clear_value x0
    extract_lets +onlyGivenNames x1
    extract_lets +onlyGivenNames x2
    split
    · refine State.fsPacket_aside ?_
      assumption
    · split
      · refine State.fePacket_aside ?_
        assumption
      · split
        · assumption
        · refine State.orphan_aside ?_
          assumption

theorem State.shortPacket_aside {z0 z1 : State} {a1 a2} (h1 : Aside z0 z1) : Aside z0 (State.shortPacket z1 a1 a2) := by
  unfold State.shortPacket
  refine State.shortChecked_aside ?_
  assumption

theorem State.transport_aside {z0 z1 : State} {a1 a2} (h1 : Aside z0 z1) : Aside z0 (State.transport z1 a1 a2) := by
  unfold State.transport
  extract_lets +onlyGivenNames x0
  split
  · refine State.orphan_aside ?_
    assumption
  · split
    · split
      · refine State.shortPacket_aside ?_
        assumption
      · split
        · refine State.longPacket_aside ?_
          assumption
        · refine State.orphan_aside ?_
          assumption
    · split
      · refine State.tunnelAck_aside ?_
        assumption
      · refine State.orphan_aside ?_
        assumption

theorem execTransportPacket_aside {z0 z1 t0 : State} {a1 a2} (h1 : Aside z0 z1) (ht : execTransportPacket a1 a2 z1 = .next t0) :
    Aside z0 t0 := by
  unfold execTransportPacket at ht
  cases ht
  split
  · refine State.transport_aside ?_
    assumption
  · assumption

theorem State.setIfe_aside {z0 z1 : State} {a1 a2} (h1 : Aside z0 z1) : Aside z0 (State.setIfe z1 a1 a2) := by
  unfold State.setIfe
  refine Aside.step ?_ ⟨rfl, rfl, rfl, rfl, rfl, rfl, rfl, rfl, rfl⟩
  assumption

theorem State.startIfeFrame_aside {z0 z1 : State} {a1 a2} (h1 : Aside z0 z1) : Aside z0 (State.startIfeFrame z1 a1 a2) := by
  unfold State.startIfeFrame
  extract_lets +onlyGivenNames x0
  extract_lets +onlyGivenNames x1
  extract_lets +onlyGivenNames x2
  extract_lets +onlyGivenNames x3
  extract_lets +onlyGivenNames x4
  extract_lets +onlyGivenNames x5
  extract_lets +onlyGivenNames x6
  extract_lets +onlyGivenNames x7
  refine Aside.cut (s := z0) (t := x7) ?_ (fun _ => ?_)
  · subst x7
    refine State.wr_aside ?_
    refine State.wr_aside ?_
    refine State.setIfe_aside ?_
    assumption
  clear_value x7
  extract_lets +onlyGivenNames x8
  refine Aside.cut (s := z0) (t := x8) ?_ (fun _ => ?_)
  · subst x8
    refine State.wr_aside ?_
    assumption
  clear_value x8
  split
  · refine State.raise_aside ?_
    assumption
  · assumption

theorem execIfeFrameStart_aside {z0 z1 t0 : State} {a1 a2} (h1 : Aside z0 z1) (ht : execIfeFrameStart a1 a2 z1 = .next t0) :
    Aside z0 t0 := by
  unfold execIfeFrameStart at ht
  cases ht
  split
  · split
    · refine State.startIfeFrame_aside ?_
      assumption
    · assumption
  · split
    · refine State.startIfeFrame_aside ?_
      assumption
    · assumption

theorem State.emitSl_aside {z0 z1 : State} {a1} (h1 : Aside z0 z1) : Aside z0 (State.emitSl z1 a1) := by
  unfold State.emitSl
  refine State.emit_aside ?_
  refine State.emit_aside ?_
  assumption

theorem execRecordEmit_aside {z0 z1 t0 : State} (h1 : Aside z0 z1) (ht : execRecordEmit z1 = .next t0) :
    Aside z0 t0 := by
  unfold execRecordEmit at ht
  cases ht
  split
  · assumption
  · split
    · assumption
    · extract_lets +onlyGivenNames x0
      extract_lets +onlyGivenNames x1
      refine Aside.cut (s := z0) (t := x1) ?_ (fun _ => ?_)
      · subst x1
        refine State.emitSl_aside ?_
        assumption
      clear_value x1
      refine Aside.step ?_ ⟨rfl, rfl, rfl, rfl, rfl, rfl, rfl, rfl, rfl⟩
      assumption

theorem State.copyRecord_aside {z0 z1 : State} {a1} (h1 : Aside z0 z1) : Aside z0 (State.copyRecord z1 a1) := by
  unfold State.copyRecord
  extract_lets +onlyGivenNames x0
  split
  · assumption
  · extract_lets +onlyGivenNames x1
    split
    · refine State.pump_aside ?_
      refine State.setPort_aside ?_
      refine State.count_aside ?_
      assumption
    · refine State.pump_aside ?_
      refine State.setPort_aside ?_
      assumption

theorem execFaultWindow_aside {z0 z1 t0 : State} (h1 : Aside z0 z1) (ht : execFaultWindow z1 = .next t0) :
    Aside z0 t0 := by
  unfold execFaultWindow at ht
  cases ht
  split
  · assumption
  · extract_lets +onlyGivenNames x0
    extract_lets +onlyGivenNames x1
    extract_lets +onlyGivenNames x2
    extract_lets +onlyGivenNames x3
    extract_lets +onlyGivenNames x4
    refine Aside.cut (s := z0) (t := x4) ?_ (fun _ => ?_)
    · subst x4
      refine Aside.foldl ?_ (fun _ _ _ => ?_)
      · assumption
      · refine State.emitSl_aside ?_
        assumption
    clear_value x4
    extract_lets +onlyGivenNames x5
    extract_lets +onlyGivenNames x6
    extract_lets +onlyGivenNames x7
    refine Aside.cut (s := z0) (t := x7) ?_ (fun _ => ?_)
    · subst x7
      refine Aside.step ?_ ⟨rfl, rfl, rfl, rfl, rfl, rfl, rfl, rfl, rfl⟩
      assumption
    clear_value x7
    refine State.copyRecord_aside ?_
    refine State.copyRecord_aside ?_
    assumption

theorem execSafeMark_aside {z0 z1 t0 : State} (h1 : Aside z0 z1) (ht : execSafeMark z1 = .next t0) :
    Aside z0 t0 := by
  unfold execSafeMark at ht
  cases ht
  split
  · assumption
  · split
    · assumption
    · refine State.emitSl_aside ?_
      refine Aside.step ?_ ⟨rfl, rfl, rfl, rfl, rfl, rfl, rfl, rfl, rfl⟩
      assumption

theorem State.sessionEvent_aside {z0 z1 : State} {a1 a2 a3} (h1 : Aside z0 z1) : Aside z0 (State.sessionEvent z1 a1 a2 a3) := by
  unfold State.sessionEvent
  extract_lets +onlyGivenNames x0
  refine Aside.cut (s := z0) (t := x0.2) ?_ (fun _ => ?_)
  · subst x0
    refine State.draw_aside ?_
    assumption
  clear_value x0
  refine State.queueEvent_aside ?_
  assumption

theorem State.unsubscribe_aside {z0 z1 : State} {a1 a2} (h1 : Aside z0 z1) : Aside z0 (State.unsubscribe z1 a1 a2) := by
  unfold State.unsubscribe
  extract_lets +onlyGivenNames x0
  extract_lets +onlyGivenNames x1
  extract_lets +onlyGivenNames x2
  refine Aside.cut (s := z0) (t := x2) ?_ (fun _ => ?_)
  · subst x2
    refine State.setPort_aside ?_
    assumption
  clear_value x2
  split
  · refine State.wr_aside ?_
    assumption
  · assumption

theorem State.endSession_aside {z0 z1 : State} {a1 a2 a3 a4} (h1 : Aside z0 z1) : Aside z0 (State.endSession z1 a1 a2 a3 a4) := by
  unfold State.endSession
  split
  · extract_lets +onlyGivenNames x0
    extract_lets +onlyGivenNames x1
    refine Aside.cut (s := z0) (t := x1) ?_ (fun _ => ?_)
    · subst x1
      refine State.wr_aside ?_
      assumption
    clear_value x1
    refine State.sessionEvent_aside ?_
    refine State.audit_aside ?_
    refine State.unsubscribe_aside ?_
    assumption
  · assumption

theorem State.linkState_aside {z0 z1 : State} {a1 a2} (h1 : Aside z0 z1) : Aside z0 (State.linkState z1 a1 a2) := by
  unfold State.linkState
  refine State.wr_aside ?_
  refine State.wr_aside ?_
  refine State.wr_aside ?_
  assumption

theorem State.loseRef_aside {z0 z1 : State} (h1 : Aside z0 z1) : Aside z0 (State.loseRef z1) := by
  unfold State.loseRef
  split
  · refine State.fault_aside ?_
    refine State.wr_aside ?_
    refine State.wr_aside ?_
    assumption
  · assumption

theorem execRefLoss_aside {z0 z1 t0 : State} (h1 : Aside z0 z1) (ht : execRefLoss z1 = .next t0) :
    Aside z0 t0 := by
  unfold execRefLoss at ht
  cases ht
  refine State.loseRef_aside ?_
  assumption

theorem execClkmFirstLock_aside {z0 z1 t0 : State} (h1 : Aside z0 z1) (ht : execClkmFirstLock z1 = .next t0) :
    Aside z0 t0 := by
  unfold execClkmFirstLock at ht
  cases ht
  split
  · refine State.wr_aside ?_
    refine Aside.step ?_ ⟨rfl, rfl, rfl, rfl, rfl, rfl, rfl, rfl, rfl⟩
    assumption
  · assumption

theorem execLaserEol_aside {z0 z1 t0 : State} {a1} (h1 : Aside z0 z1) (ht : execLaserEol a1 z1 = .next t0) :
    Aside z0 t0 := by
  unfold execLaserEol at ht
  extract_lets +onlyGivenNames x0 at ht
  extract_lets +onlyGivenNames x1 at ht
  cases ht
  split
  · refine State.fault_aside ?_
    assumption
  · assumption

theorem State.setRxLock_aside {z0 z1 : State} {a1 a2} (h1 : Aside z0 z1) : Aside z0 (State.setRxLock z1 a1 a2) := by
  unfold State.setRxLock
  extract_lets +onlyGivenNames x0
  extract_lets +onlyGivenNames x1
  refine Aside.cut (s := z0) (t := x1) ?_ (fun _ => ?_)
  · subst x1
    refine State.setPort_aside ?_
    assumption
  clear_value x1
  split
  · refine Aside.step ?_ ⟨rfl, rfl, rfl, rfl, rfl, rfl, rfl, rfl, rfl⟩
    assumption
  · assumption

theorem State.sendControl_aside {z0 z1 : State} {a1 a2 a3} (h1 : Aside z0 z1) : Aside z0 (State.sendControl z1 a1 a2 a3) := by
  unfold State.sendControl
  extract_lets +onlyGivenNames x0
  refine State.emit_aside ?_
  refine State.setPort_aside ?_
  assumption

theorem State.sendHello_aside {z0 z1 : State} {a1} (h1 : Aside z0 z1) : Aside z0 (State.sendHello z1 a1) := by
  unfold State.sendHello
  extract_lets +onlyGivenNames x0
  extract_lets +onlyGivenNames x1
  refine Aside.cut (s := z0) (t := x1) ?_ (fun _ => ?_)
  · subst x1
    refine State.sendControl_aside ?_
    assumption
  clear_value x1
  refine State.setPort_aside ?_
  assumption

theorem State.sendCredit_aside {z0 z1 : State} {a1 a2 a3 a4} (h1 : Aside z0 z1) : Aside z0 (State.sendCredit z1 a1 a2 a3 a4) := by
  unfold State.sendCredit
  refine State.sendControl_aside ?_
  assumption

theorem State.grantVc2Port_aside {z0 z1 : State} {a1} (h1 : Aside z0 z1) : Aside z0 (State.grantVc2Port z1 a1) := by
  unfold State.grantVc2Port
  extract_lets +onlyGivenNames x0
  extract_lets +onlyGivenNames x1
  split
  · refine State.sendCredit_aside ?_
    refine State.wr_aside ?_
    assumption
  · assumption

theorem State.grantVc2_aside {z0 z1 : State} (h1 : Aside z0 z1) : Aside z0 (State.grantVc2 z1) := by
  unfold State.grantVc2
  refine State.grantVc2Port_aside ?_
  refine State.grantVc2Port_aside ?_
  assumption

theorem State.resendFrom_aside {z0 z1 : State} {a1 a2} (h1 : Aside z0 z1) : Aside z0 (State.resendFrom z1 a1 a2) := by
  unfold State.resendFrom
  extract_lets +onlyGivenNames x0
  refine Aside.foldl ?_ (fun _ _ _ => ?_)
  · refine State.setPort_aside ?_
    assumption
  · refine State.emit_aside ?_
    assumption

theorem State.enterRetrain_aside {z0 z1 : State} {a1} (h1 : Aside z0 z1) : Aside z0 (State.enterRetrain z1 a1) := by
  unfold State.enterRetrain
  split
  · extract_lets +onlyGivenNames x0
    refine Aside.cut (s := z0) (t := x0) ?_ (fun _ => ?_)
    · subst x0
      refine State.count_aside ?_
      refine State.wr_aside ?_
      assumption
    clear_value x0
    refine State.setPort_aside ?_
    assumption
  · assumption

theorem State.replayFrom_aside {z0 z1 : State} {a1 a2} (h1 : Aside z0 z1) : Aside z0 (State.replayFrom z1 a1 a2) := by
  unfold State.replayFrom
  extract_lets +onlyGivenNames x0
  extract_lets +onlyGivenNames x1
  split
  · assumption
  · extract_lets +onlyGivenNames x2
    extract_lets +onlyGivenNames x3
    refine Aside.cut (s := z0) (t := x3) ?_ (fun _ => ?_)
    · subst x3
      refine State.count_aside ?_
      refine State.setPort_aside ?_
      assumption
    clear_value x3
    split
    · refine State.enterRetrain_aside ?_
      assumption
    · refine State.resendFrom_aside ?_
      assumption

theorem State.takeAck_aside {z0 z1 : State} {a1 a2} (h1 : Aside z0 z1) : Aside z0 (State.takeAck z1 a1 a2) := by
  unfold State.takeAck
  extract_lets +onlyGivenNames x0
  split
  · refine State.setPort_aside ?_
    assumption
  · assumption

theorem State.takeNak_aside {z0 z1 : State} {a1 a2} (h1 : Aside z0 z1) : Aside z0 (State.takeNak z1 a1 a2) := by
  unfold State.takeNak
  split
  · refine State.replayFrom_aside ?_
    refine State.takeAck_aside ?_
    assumption
  · assumption

theorem State.takeCredit_aside {z0 z1 : State} {a1 a2 a3 a4} (h1 : Aside z0 z1) : Aside z0 (State.takeCredit z1 a1 a2 a3 a4) := by
  unfold State.takeCredit
  split
  · extract_lets +onlyGivenNames x0
    extract_lets +onlyGivenNames x1
    refine State.pump_aside ?_
    refine State.setPort_aside ?_
    assumption
  · assumption

theorem State.deliverHeld_aside {z0 z1 : State} {a1} (h1 : Aside z0 z1) : Aside z0 (State.deliverHeld z1 a1) := by
  unfold State.deliverHeld
  extract_lets +onlyGivenNames x0
  refine Aside.foldl ?_ (fun _ _ _ => ?_)
  · refine Aside.step ?_ ⟨rfl, rfl, rfl, rfl, rfl, rfl, rfl, rfl, rfl⟩
    assumption
  · refine State.queueEvent_aside ?_
    assumption

theorem State.comeUp_aside {z0 z1 : State} {a1} (h1 : Aside z0 z1) : Aside z0 (State.comeUp z1 a1) := by
  unfold State.comeUp
  extract_lets +onlyGivenNames x0
  extract_lets +onlyGivenNames x1
  refine Aside.cut (s := z0) (t := x1) ?_ (fun _ => ?_)
  · subst x1
    refine State.wr_aside ?_
    refine State.wr_aside ?_
    assumption
  clear_value x1
  extract_lets +onlyGivenNames x2
  extract_lets +onlyGivenNames x3
  refine Aside.cut (s := z0) (t := x3) ?_ (fun _ => ?_)
  · subst x3
    refine State.setPort_aside ?_
    assumption
  clear_value x3
  refine State.deliverHeld_aside ?_
  refine State.grantVc2_aside ?_
  refine State.sendCredit_aside ?_
  assumption

theorem State.takeHello_aside {z0 z1 : State} {a1 a2 a3} (h1 : Aside z0 z1) : Aside z0 (State.takeHello z1 a1 a2 a3) := by
  unfold State.takeHello
  extract_lets +onlyGivenNames x0
  split
  · extract_lets +onlyGivenNames x1
    split
    · refine State.linkState_aside ?_
      assumption
    · extract_lets +onlyGivenNames x2
      refine Aside.cut (s := z0) (t := x2) ?_ (fun _ => ?_)
      · subst x2
        refine State.wr_aside ?_
        assumption
      clear_value x2
      split
      · refine State.comeUp_aside ?_
        assumption
      · split
        · assumption
        · refine State.fault_aside ?_
          refine State.setPort_aside ?_
          assumption
  · assumption

theorem State.negotiate_aside {z0 z1 : State} {a1 a2} (h1 : Aside z0 z1) : Aside z0 (State.negotiate z1 a1 a2) := by
  unfold State.negotiate
  extract_lets +onlyGivenNames x0
  refine Aside.cut (s := z0) (t := x0) ?_ (fun _ => ?_)
  · subst x0
    refine State.wr_aside ?_
    refine State.linkState_aside ?_
    assumption
  clear_value x0
  refine State.sendHello_aside ?_
  refine State.setPort_aside ?_
  assumption

theorem execHlBlockLock_aside {z0 z1 t0 : State} {a1 a2 a3} (h1 : Aside z0 z1) (ht : execHlBlockLock a1 a2 a3 z1 = .next t0) :
    Aside z0 t0 := by
  unfold execHlBlockLock at ht
  extract_lets +onlyGivenNames x0 at ht
  extract_lets +onlyGivenNames x1 at ht
  extract_lets +onlyGivenNames x2 at ht
  cases ht
  split
  · assumption
  · extract_lets +onlyGivenNames x3
    refine Aside.cut (s := z0) (t := x3) ?_ (fun _ => ?_)
    · subst x3
      refine State.setRxLock_aside ?_
      assumption
    clear_value x3
    split
    · refine State.linkState_aside ?_
      assumption
    · refine State.negotiate_aside ?_
      assumption

theorem execHello_aside {z0 z1 t0 : State} {a1 a2 a3 a4} (h1 : Aside z0 z1) (ht : execHello a1 a2 a3 a4 z1 = .next t0) :
    Aside z0 t0 := by
  unfold execHello at ht
  cases ht
  refine State.takeHello_aside ?_
  assumption

theorem execHelloResend_aside {z0 z1 t0 : State} {a1} (h1 : Aside z0 z1) (ht : execHelloResend a1 z1 = .next t0) :
    Aside z0 t0 := by
  unfold execHelloResend at ht
  extract_lets +onlyGivenNames x0 at ht
  extract_lets +onlyGivenNames x1 at ht
  extract_lets +onlyGivenNames x2 at ht
  cases ht
  split
  · refine State.sendHello_aside ?_
    assumption
  · assumption

theorem execNak_aside {z0 z1 t0 : State} {a1 a2} (h1 : Aside z0 z1) (ht : execNak a1 a2 z1 = .next t0) :
    Aside z0 t0 := by
  unfold execNak at ht
  cases ht
  refine State.takeNak_aside ?_
  assumption

theorem execReplayTmo_aside {z0 z1 t0 : State} {a1} (h1 : Aside z0 z1) (ht : execReplayTmo a1 z1 = .next t0) :
    Aside z0 t0 := by
  unfold execReplayTmo at ht
  extract_lets +onlyGivenNames x0 at ht
  extract_lets +onlyGivenNames x1 at ht
  cases ht
  split
  · assumption
  · split
    · refine State.replayFrom_aside ?_
      assumption
    · assumption

theorem execCredit_aside {z0 z1 t0 : State} {a1 a2 a3 a4 a5} (h1 : Aside z0 z1) (ht : execCredit a1 a2 a3 a4 a5 z1 = .next t0) :
    Aside z0 t0 := by
  unfold execCredit at ht
  cases ht
  refine State.takeCredit_aside ?_
  assumption

theorem execIdle_aside {z0 z1 t0 : State} {a1} (h1 : Aside z0 z1) (ht : execIdle a1 z1 = .next t0) :
    Aside z0 t0 := by
  unfold execIdle at ht
  cases ht
  split
  · refine State.sendControl_aside ?_
    assumption
  · assumption

theorem execRetrainDone_aside {z0 z1 t0 : State} {a1 a2 a3} (h1 : Aside z0 z1) (ht : execRetrainDone a1 a2 a3 z1 = .next t0) :
    Aside z0 t0 := by
  unfold execRetrainDone at ht
  extract_lets +onlyGivenNames x0 at ht
  cases ht
  split
  · extract_lets +onlyGivenNames x1
    refine Aside.cut (s := z0) (t := x1) ?_ (fun _ => ?_)
    · subst x1
      refine State.setRxLock_aside ?_
      assumption
    clear_value x1
    split
    · assumption
    · extract_lets +onlyGivenNames x2
      extract_lets +onlyGivenNames x3
      refine Aside.cut (s := z0) (t := x3) ?_ (fun _ => ?_)
      · subst x3
        refine State.fault_aside ?_
        refine State.wr_aside ?_
        refine State.wr_aside ?_
        assumption
      clear_value x3
      extract_lets +onlyGivenNames x4
      refine State.pump_aside ?_
      refine State.resendFrom_aside ?_
      refine State.setPort_aside ?_
      assumption
  · assumption

theorem State.laneDark_aside {z0 z1 : State} {a1 a2} (h1 : Aside z0 z1) : Aside z0 (State.laneDark z1 a1 a2) := by
  unfold State.laneDark
  split
  · assumption
  · extract_lets +onlyGivenNames x0
    extract_lets +onlyGivenNames x1
    extract_lets +onlyGivenNames x2
    extract_lets +onlyGivenNames x3
    refine Aside.cut (s := z0) (t := x3) ?_ (fun _ => ?_)
    · subst x3
      refine State.setRxLock_aside ?_
      refine State.wr_aside ?_
      assumption
    clear_value x3
    extract_lets +onlyGivenNames x4
    extract_lets +onlyGivenNames x5
    refine Aside.cut (s := z0) (t := x5) ?_ (fun _ => ?_)
    · subst x5
      split
      · refine State.setPort_aside ?_
        assumption
      · assumption
    clear_value x5
    extract_lets +onlyGivenNames x6
    refine Aside.cut (s := z0) (t := x6) ?_ (fun _ => ?_)
    · subst x6
      split
      · refine State.loseRef_aside ?_
        assumption
      · assumption
    clear_value x6
    extract_lets +onlyGivenNames x7
    split
    · refine State.enterRetrain_aside ?_
      assumption
    · split
      · refine State.linkState_aside ?_
        assumption
      · assumption

theorem State.slDark_aside {z0 z1 : State} {a1} (h1 : Aside z0 z1) : Aside z0 (State.slDark z1 a1) := by
  unfold State.slDark
  split
  · assumption
  · refine State.fault_aside ?_
    refine State.wr_aside ?_
    assumption

theorem execLossOfSignalAssert_aside {z0 z1 t0 : State} {a1} (h1 : Aside z0 z1) (ht : execLossOfSignalAssert a1 z1 = .next t0) :
    Aside z0 t0 := by
  unfold execLossOfSignalAssert at ht
  cases ht
  split
  · refine State.camLoseSignal_aside ?_
    assumption
  · refine State.laneDark_aside ?_
    assumption
  · refine State.slDark_aside ?_
    assumption

theorem execLossOfSignalDeassert_aside {z0 z1 t0 : State} {a1} (h1 : Aside z0 z1) (ht : execLossOfSignalDeassert a1 z1 = .next t0) :
    Aside z0 t0 := by
  unfold execLossOfSignalDeassert at ht
  cases ht
  split
  · refine State.camGainSignal_aside ?_
    assumption
  · split
    · extract_lets +onlyGivenNames x0
      refine Aside.cut (s := z0) (t := x0) ?_ (fun _ => ?_)
      · subst x0
        refine State.wr_aside ?_
        assumption
      clear_value x0
      refine State.setPort_aside ?_
      assumption
    · assumption
  · split
    · refine State.wr_aside ?_
      assumption
    · assumption

theorem State.whenUp_aside {z0 z1 z2 : State} {a1} (h1 : Aside z0 z1) (h2 : Aside z0 z2) : Aside z0 (State.whenUp z1 a1 z2) := by
  unfold State.whenUp
  split
  · assumption
  · assumption

theorem State.memRead_aside {z0 z1 : State} {a1 a2 a3} (h1 : Aside z0 z1) : Aside z0 (State.memRead z1 a1 a2 a3) := by
  unfold State.memRead
  extract_lets +onlyGivenNames x0
  extract_lets +onlyGivenNames x1
  split
  · refine State.complete_aside ?_
    assumption
  · split
    · refine State.complete_aside ?_
      assumption
    · split
      · refine State.complete_aside ?_
        assumption
      · extract_lets +onlyGivenNames x2
        refine State.complete_aside ?_
        assumption

theorem execMemRd_aside {z0 z1 t0 : State} {a1 a2 a3} (h1 : Aside z0 z1) (ht : execMemRd a1 a2 a3 z1 = .next t0) :
    Aside z0 t0 := by
  unfold execMemRd at ht
  cases ht
  refine State.whenUp_aside ?_ ?_
  · assumption
  · refine State.memRead_aside ?_
    assumption

theorem State.jobSubmit_aside {z0 z1 : State} {a1 a2 a3} (h1 : Aside z0 z1) : Aside z0 (State.jobSubmit z1 a1 a2 a3) := by
  unfold State.jobSubmit
  extract_lets +onlyGivenNames x0
  extract_lets +onlyGivenNames x1
  split
  · assumption
  · extract_lets +onlyGivenNames x2
    refine Aside.cut (s := z0) (t := x2) ?_ (fun _ => ?_)
    · subst x2
      refine State.wr_aside ?_
      assumption
    clear_value x2
    split
    · extract_lets +onlyGivenNames x3
      extract_lets +onlyGivenNames x4
      refine State.setPort_aside ?_
      assumption
    · refine State.grantVc2_aside ?_
      refine State.jobDone_aside ?_
      assumption

theorem execJobSubmit_aside {z0 z1 t0 : State} {a1 a2 a3} (h1 : Aside z0 z1) (ht : execJobSubmit a1 a2 a3 z1 = .next t0) :
    Aside z0 t0 := by
  unfold execJobSubmit at ht
  cases ht
  refine State.whenUp_aside ?_ ?_
  · assumption
  · refine State.jobSubmit_aside ?_
    assumption

theorem execJobIntakeAdmit_aside {z0 z1 t0 : State} {a1} (h1 : Aside z0 z1) (ht : execJobIntakeAdmit a1 z1 = .next t0) :
    Aside z0 t0 := by
  unfold execJobIntakeAdmit at ht
  extract_lets +onlyGivenNames x0 at ht
  cases ht
  split
  · split
    · extract_lets +onlyGivenNames x1
      refine Aside.cut (s := z0) (t := x1) ?_ (fun _ => ?_)
      · subst x1
        refine State.setPort_aside ?_
        assumption
      clear_value x1
      refine Aside.step ?_ ⟨rfl, rfl, rfl, rfl, rfl, rfl, rfl, rfl, rfl⟩
      assumption
    · assumption
  · assumption

theorem State.openSession_aside {z0 z1 : State} {a1 a2} (h1 : Aside z0 z1) : Aside z0 (State.openSession z1 a1 a2) := by
  unfold State.openSession
  extract_lets +onlyGivenNames x0
  split
  · refine State.complete_aside ?_
    assumption
  · split
    · refine State.complete_aside ?_
      assumption
    · split
      · extract_lets +onlyGivenNames x1
        extract_lets +onlyGivenNames x2
        extract_lets +onlyGivenNames x3
        refine Aside.cut (s := z0) (t := x3) ?_ (fun _ => ?_)
        · subst x3
          refine Aside.step ?_ ⟨rfl, rfl, rfl, rfl, rfl, rfl, rfl, rfl, rfl⟩
          assumption
        clear_value x3
        refine State.complete_aside ?_
        refine State.audit_aside ?_
        assumption
      · extract_lets +onlyGivenNames x4
        refine Aside.cut (s := z0) (t := x4.2) ?_ (fun _ => ?_)
        · subst x4
          refine State.drawBytes_aside ?_
          assumption
        clear_value x4
        extract_lets +onlyGivenNames x5
        refine State.complete_aside ?_
        refine State.setPort_aside ?_
        assumption

theorem execSessionOpen_aside {z0 z1 t0 : State} {a1 a2} (h1 : Aside z0 z1) (ht : execSessionOpen a1 a2 z1 = .next t0) :
    Aside z0 t0 := by
  unfold execSessionOpen at ht
  cases ht
  refine State.whenUp_aside ?_ ?_
  · assumption
  · refine State.openSession_aside ?_
    assumption

theorem State.takeResponse_aside {z0 z1 : State} {a1 a2} (h1 : Aside z0 z1) : Aside z0 (State.takeResponse z1 a1 a2) := by
  unfold State.takeResponse
  extract_lets +onlyGivenNames x0
  extract_lets +onlyGivenNames x1
  split
  · refine State.complete_aside ?_
    assumption
  · split
    · refine State.complete_aside ?_
      assumption
    · extract_lets +onlyGivenNames x2
      refine State.setPort_aside ?_
      assumption

theorem execSessionResponse_aside {z0 z1 t0 : State} {a1 a2} (h1 : Aside z0 z1) (ht : execSessionResponse a1 a2 z1 = .next t0) :
    Aside z0 t0 := by
  unfold execSessionResponse at ht
  cases ht
  refine State.whenUp_aside ?_ ?_
  · assumption
  · refine State.takeResponse_aside ?_
    assumption

theorem State.sessionOpened_aside {z0 z1 : State} {a1 a2} (h1 : Aside z0 z1) : Aside z0 (State.sessionOpened z1 a1 a2) := by
  unfold State.sessionOpened
  extract_lets +onlyGivenNames x0
  extract_lets +onlyGivenNames x1
  extract_lets +onlyGivenNames x2
  extract_lets +onlyGivenNames x3
  refine Aside.cut (s := z0) (t := x3) ?_ (fun _ => ?_)
  · subst x3
    refine Aside.step ?_ ⟨rfl, rfl, rfl, rfl, rfl, rfl, rfl, rfl, rfl⟩
    assumption
  clear_value x3
  extract_lets +onlyGivenNames x4
  refine Aside.cut (s := z0) (t := x4) ?_ (fun _ => ?_)
  · subst x4
    refine State.wr_aside ?_
    refine State.wr_aside ?_
    assumption
  clear_value x4
  refine State.complete_aside ?_
  refine State.sessionEvent_aside ?_
  refine State.audit_aside ?_
  assumption

theorem State.sessionFailed_aside {z0 z1 : State} {a1 a2} (h1 : Aside z0 z1) : Aside z0 (State.sessionFailed z1 a1 a2) := by
  unfold State.sessionFailed
  extract_lets +onlyGivenNames x0
  extract_lets +onlyGivenNames x1
  extract_lets +onlyGivenNames x2
  extract_lets +onlyGivenNames x3
  refine Aside.cut (s := z0) (t := x3) ?_ (fun _ => ?_)
  · subst x3
    refine Aside.step ?_ ⟨rfl, rfl, rfl, rfl, rfl, rfl, rfl, rfl, rfl⟩
    assumption
  clear_value x3
  extract_lets +onlyGivenNames x4
  extract_lets +onlyGivenNames x5
  refine Aside.cut (s := z0) (t := x5) ?_ (fun _ => ?_)
  · subst x5
    refine State.audit_aside ?_
    refine State.fault_aside ?_
    refine State.wr_aside ?_
    assumption
  clear_value x5
  extract_lets +onlyGivenNames x6
  refine Aside.cut (s := z0) (t := x6) ?_ (fun _ => ?_)
  · subst x6
    refine State.fault_aside ?_
    refine State.wr_aside ?_
    assumption
  clear_value x6
  extract_lets +onlyGivenNames x7
  extract_lets +onlyGivenNames x8
  refine Aside.cut (s := z0) (t := x8) ?_ (fun _ => ?_)
  · subst x8
    split
    · assumption
    · refine State.audit_aside ?_
      refine State.setPort_aside ?_
      assumption
  clear_value x8
  refine State.complete_aside ?_
  assumption

theorem execSessionResult_aside {z0 z1 t0 : State} {a1} (h1 : Aside z0 z1) (ht : execSessionResult a1 z1 = .next t0) :
    Aside z0 t0 := by
  unfold execSessionResult at ht
  extract_lets +onlyGivenNames x0 at ht
  cases ht
  split
  · assumption
  · extract_lets +onlyGivenNames x1
    refine Aside.cut (s := z0) (t := x1) ?_ (fun _ => ?_)
    · subst x1
      refine State.setPort_aside ?_
      assumption
    clear_value x1
    extract_lets +onlyGivenNames x2
    split
    · refine State.sessionOpened_aside ?_
      assumption
    · refine State.sessionFailed_aside ?_
      assumption

theorem execLockoutEnd_aside {z0 z1 t0 : State} {a1} (h1 : Aside z0 z1) (ht : execLockoutEnd a1 z1 = .next t0) :
    Aside z0 t0 := by
  unfold execLockoutEnd at ht
  extract_lets +onlyGivenNames x0 at ht
  extract_lets +onlyGivenNames x1 at ht
  cases ht
  split
  · split
    · refine State.wr_aside ?_
      refine State.wr_aside ?_
      refine State.setPort_aside ?_
      assumption
    · assumption
  · assumption

theorem execNonceExpire_aside {z0 z1 t0 : State} {a1} (h1 : Aside z0 z1) (ht : execNonceExpire a1 z1 = .next t0) :
    Aside z0 t0 := by
  unfold execNonceExpire at ht
  extract_lets +onlyGivenNames x0 at ht
  cases ht
  split
  · split
    · refine State.setPort_aside ?_
      assumption
    · assumption
  · assumption

theorem State.closeSession_aside {z0 z1 : State} {a1} (h1 : Aside z0 z1) : Aside z0 (State.closeSession z1 a1) := by
  unfold State.closeSession
  extract_lets +onlyGivenNames x0
  split
  · refine State.complete_aside ?_
    assumption
  · extract_lets +onlyGivenNames x1
    extract_lets +onlyGivenNames x2
    extract_lets +onlyGivenNames x3
    refine Aside.cut (s := z0) (t := x3) ?_ (fun _ => ?_)
    · subst x3
      refine Aside.step ?_ ⟨rfl, rfl, rfl, rfl, rfl, rfl, rfl, rfl, rfl⟩
      assumption
    clear_value x3
    refine State.complete_aside ?_
    refine State.endSession_aside ?_
    assumption

theorem execSessionClose_aside {z0 z1 t0 : State} {a1} (h1 : Aside z0 z1) (ht : execSessionClose a1 z1 = .next t0) :
    Aside z0 t0 := by
  unfold execSessionClose at ht
  cases ht
  refine State.whenUp_aside ?_ ?_
  · assumption
  · refine State.closeSession_aside ?_
    assumption

theorem State.subscribe_aside {z0 z1 : State} {a1 a2} (h1 : Aside z0 z1) : Aside z0 (State.subscribe z1 a1 a2) := by
  unfold State.subscribe
  extract_lets +onlyGivenNames x0
  extract_lets +onlyGivenNames x1
  split
  · refine State.complete_aside ?_
    assumption
  · split
    · refine State.complete_aside ?_
      assumption
    · split
      · refine State.complete_aside ?_
        assumption
      · extract_lets +onlyGivenNames x2
        extract_lets +onlyGivenNames x3
        refine Aside.cut (s := z0) (t := x3) ?_ (fun _ => ?_)
        · subst x3
          refine State.setPort_aside ?_
          assumption
        clear_value x3
        refine State.complete_aside ?_
        refine State.wr_aside ?_
        assumption

theorem execRecCopy_aside {z0 z1 t0 : State} {a1 a2} (h1 : Aside z0 z1) (ht : execRecCopy a1 a2 z1 = .next t0) :
    Aside z0 t0 := by
  unfold execRecCopy at ht
  cases ht
  refine State.whenUp_aside ?_ ?_
  · assumption
  · refine State.subscribe_aside ?_
    assumption

theorem execEvtLoss_aside {z0 z1 t0 : State} {a1} (h1 : Aside z0 z1) (ht : execEvtLoss a1 z1 = .next t0) :
    Aside z0 t0 := by
  unfold execEvtLoss at ht
  extract_lets +onlyGivenNames x0 at ht
  extract_lets +onlyGivenNames x1 at ht
  cases ht
  split
  · refine State.queueEvent_aside ?_
    refine State.setPort_aside ?_
    assumption
  · assumption

theorem execBootBeginReady_aside {z0 z1 t0 : State} (h1 : Aside z0 z1) (ht : execBootBeginReady z1 = .next t0) :
    Aside z0 t0 := by
  unfold execBootBeginReady at ht
  cases ht
  split
  · split
    · refine State.complete_aside ?_
      refine Aside.step ?_ ⟨rfl, rfl, rfl, rfl, rfl, rfl, rfl, rfl, rfl⟩
      assumption
    · assumption
  · assumption

end Sys2Proof.Machine
end

