-- ==== Sys2Proof/Laws/Store.lean ====
section
/-! SUPPORT. Register files and memory: what a read gives after a write, and that every operation keeps the canonical
form. -/

namespace Sys2Proof.Machine

/-! ### Register files -/

/-- A file whose keys all lie above `k` has no entry of `k`. -/
theorem regGet_above {d k : Nat} {r : RegFile} (h : ∀ e ∈ r, k < e.1) : regGet d k r = d := by
  cases r with
  | nil => rfl
  | cons x r =>
    obtain ⟨a, v⟩ := x
    have : k < a := h (a, v) (by simp)
    simp [regGet, Nat.ne_of_gt this, this]

/-- Every entry of a file with a key set is the new one or an old one. -/
theorem mem_regSet {d k v : Nat} {r : RegFile} {e : Nat × Nat} (h : e ∈ regSet d k v r) : e = (k, v) ∨ e ∈ r := by
  induction r with
  | nil =>
    simp only [regSet] at h
    split at h <;> simp_all
  | cons x r ih =>
    obtain ⟨a, b⟩ := x
    simp only [regSet] at h
    repeat' split at h
    all_goals simp_all
    all_goals grind

/-- Setting a key keeps keys rising. -/
theorem regSet_wf {d k v : Nat} {r : RegFile} (h : RegFile.wf r) : RegFile.wf (regSet d k v r) := by
  induction r with
  | nil => simp only [regSet]; split <;> simp [RegFile.wf]
  | cons x r ih =>
    obtain ⟨a, b⟩ := x
    have hx : ∀ y ∈ r, a < y.1 := fun y hy => (List.pairwise_cons.mp h).1 y hy
    have hr : RegFile.wf r := (List.pairwise_cons.mp h).2
    simp only [regSet]
    repeat' split
    · refine List.pairwise_cons.mpr ⟨fun y hy => ?_, ih hr⟩
      rcases mem_regSet hy with rfl | hy
      · assumption
      · exact hx y hy
    · exact hr
    · subst_vars
      exact List.pairwise_cons.mpr ⟨hx, hr⟩
    · exact h
    · have hk : k < a := by omega
      refine List.pairwise_cons.mpr ⟨fun y hy => ?_, h⟩
      rcases List.mem_cons.mp hy with rfl | hy
      · exact hk
      · exact Nat.lt_trans hk (hx y hy)

/-- A key reads as set. -/
theorem regGet_regSet_same {d k v : Nat} {r : RegFile} (h : RegFile.wf r) : regGet d k (regSet d k v r) = v := by
  induction r with
  | nil => simp only [regSet]; split <;> simp_all [regGet]
  | cons x r ih =>
    obtain ⟨a, b⟩ := x
    have hx : ∀ y ∈ r, a < y.1 := fun y hy => (List.pairwise_cons.mp h).1 y hy
    have hr : RegFile.wf r := (List.pairwise_cons.mp h).2
    simp only [regSet]
    repeat' split
    · have : ¬ k < a := by omega
      simp only [regGet, this, if_false]
      rw [if_neg (by omega)]
      exact ih hr
    · subst_vars
      exact regGet_above hx
    · simp [regGet]
    · have : k < a := by omega
      simp only [regGet, this, if_true]
      rw [if_neg (by omega)]
      simp_all
    · simp [regGet]

/-- Another key reads as before, whatever default stands for it. -/
theorem regGet_regSet_other {d d' k k' v : Nat} {r : RegFile} (h : RegFile.wf r) (hk : k' ≠ k) :
    regGet d' k' (regSet d k v r) = regGet d' k' r := by
  induction r with
  | nil =>
    simp only [regSet]
    split
    · rfl
    · simp [regGet, Ne.symm hk]
  | cons x r ih =>
    obtain ⟨a, b⟩ := x
    have hx : ∀ y ∈ r, a < y.1 := fun y hy => (List.pairwise_cons.mp h).1 y hy
    have hr : RegFile.wf r := (List.pairwise_cons.mp h).2
    simp only [regSet]
    repeat' split
    · simp only [regGet, ih hr]
    · subst_vars
      rename_i hd
      by_cases hlt : k' < a
      · rw [regGet_above (fun e he => Nat.lt_trans hlt (hx e he))]
        simp [regGet, hlt, Ne.symm hk]
      · simp [regGet, Ne.symm hk, hlt]
    · subst_vars
      simp [regGet, Ne.symm hk]
    · rfl
    · have h1 : k < a := by omega
      simp only [regGet, Ne.symm hk, if_false]
      by_cases hlt : k' < k
      · have h2 : k' < a := Nat.lt_trans hlt h1
        have h3 : a ≠ k' := by omega
        simp [hlt, h2, h3]
      · simp [hlt]

/-- A part of a canonical file is canonical. -/
theorem RegFile.wf_filter {r : RegFile} {f : Nat × Nat → Bool} (h : RegFile.wf r) : RegFile.wf (r.filter f) :=
  List.Pairwise.filter f h

/-! ### Memory -/

/-- No byte is listed below the first address. -/
theorem memGet_above {a : Nat} {m : Mem} (h : ∀ e ∈ m, a < e.1) : memGet a m = 0 := by
  cases m with
  | nil => rfl
  | cons x m =>
    obtain ⟨b, v⟩ := x
    have : a < b := h (b, v) (by simp)
    simp [memGet, Nat.ne_of_gt this, this]

/-- Every entry of a memory with a byte written is the new one or an old one. -/
theorem mem_memSet {a : Nat} {v : Byte} {m : Mem} {e : Nat × Byte} (h : e ∈ memSet a v m) : (e = (a, v) ∧ v ≠ 0) ∨ e ∈ m := by
  induction m with
  | nil =>
    simp only [memSet] at h
    split at h <;> simp_all
  | cons x m ih =>
    obtain ⟨b, w⟩ := x
    simp only [memSet] at h
    repeat' split at h
    all_goals simp_all
    all_goals grind

/-- Writing a byte keeps the canonical form. -/
theorem memSet_wf {a : Nat} {v : Byte} {m : Mem} (h : Mem.wf m) : Mem.wf (memSet a v m) := by
  refine ⟨?_, fun e he => ?_⟩
  · obtain ⟨h, -⟩ := h
    induction m with
    | nil => simp only [memSet]; split <;> simp
    | cons x m ih =>
      obtain ⟨b, w⟩ := x
      have hx : ∀ y ∈ m, b < y.1 := fun y hy => (List.pairwise_cons.mp h).1 y hy
      have hm := (List.pairwise_cons.mp h).2
      simp only [memSet]
      repeat' split
      · refine List.pairwise_cons.mpr ⟨fun y hy => ?_, ih hm⟩
        rcases mem_memSet hy with ⟨rfl, -⟩ | hy
        · assumption
        · exact hx y hy
      · exact hm
      · subst_vars
        exact List.pairwise_cons.mpr ⟨hx, hm⟩
      · exact h
      · have hk : a < b := by omega
        refine List.pairwise_cons.mpr ⟨fun y hy => ?_, h⟩
        rcases List.mem_cons.mp hy with rfl | hy
        · exact hk
        · exact Nat.lt_trans hk (hx y hy)
  · rcases mem_memSet he with ⟨rfl, hv⟩ | he
    · exact hv
    · exact h.2 e he

/-- A byte reads as written. -/
theorem memGet_memSet_same {a : Nat} {v : Byte} {m : Mem} (h : Mem.wf m) : memGet a (memSet a v m) = v := by
  obtain ⟨h, -⟩ := h
  induction m with
  | nil => simp only [memSet]; split <;> simp_all [memGet]
  | cons x m ih =>
    obtain ⟨b, w⟩ := x
    have hx : ∀ y ∈ m, b < y.1 := fun y hy => (List.pairwise_cons.mp h).1 y hy
    have hm := (List.pairwise_cons.mp h).2
    simp only [memSet]
    repeat' split
    · have h1 : ¬ a < b := by omega
      have h2 : b ≠ a := by omega
      simp only [memGet, h1, h2, if_false]
      exact ih hm
    · subst_vars
      exact memGet_above hx
    · simp [memGet]
    · have h1 : a < b := by omega
      have h2 : b ≠ a := by omega
      simp only [memGet, h1, h2, if_false, if_true]
      simp_all
    · simp [memGet]

/-- Every other byte reads as before. -/
theorem memGet_memSet_other {a b : Nat} {v : Byte} {m : Mem} (h : Mem.wf m) (hb : b ≠ a) :
    memGet b (memSet a v m) = memGet b m := by
  obtain ⟨h, -⟩ := h
  induction m with
  | nil =>
    simp only [memSet]
    split
    · rfl
    · simp [memGet, Ne.symm hb]
  | cons x m ih =>
    obtain ⟨c, w⟩ := x
    have hx : ∀ y ∈ m, c < y.1 := fun y hy => (List.pairwise_cons.mp h).1 y hy
    have hm := (List.pairwise_cons.mp h).2
    simp only [memSet]
    repeat' split
    · simp only [memGet, ih hm]
    · subst_vars
      by_cases hlt : b < c
      · rw [memGet_above (fun e he => Nat.lt_trans hlt (hx e he))]
        simp [memGet, hlt, Ne.symm hb]
      · simp [memGet, Ne.symm hb, hlt]
    · subst_vars
      simp [memGet, Ne.symm hb]
    · rfl
    · have h1 : a < c := by omega
      simp only [memGet, Ne.symm hb, if_false]
      by_cases hlt : b < a
      · have h2 : b < c := Nat.lt_trans hlt h1
        have h3 : c ≠ b := by omega
        simp [hlt, h2, h3]
      · simp [hlt]

/-- Writing bytes keeps the canonical form. -/
theorem memWrite_wf {l : List Byte} {a : Nat} {m : Mem} (h : Mem.wf m) : Mem.wf (memWrite m a l) := by
  induction l generalizing a m with
  | nil => exact h
  | cons b l ih => exact ih (memSet_wf h)

/-- Wiping keeps the canonical form. -/
theorem memWipe_wf {a n : Nat} {m : Mem} (h : Mem.wf m) : Mem.wf (memWipe m a n) :=
  ⟨List.Pairwise.filter _ h.1, fun e he => h.2 e (List.mem_filter.mp he).1⟩

/-- Outside the bytes written, memory reads as before. -/
theorem memGet_memWrite_outside {l : List Byte} {a b : Nat} {m : Mem} (h : Mem.wf m) (hb : b < a ∨ a + l.length ≤ b) :
    memGet b (memWrite m a l) = memGet b m := by
  induction l generalizing a m with
  | nil => rfl
  | cons x l ih =>
    simp only [List.length_cons] at hb
    rw [memWrite, ih (memSet_wf h) (by omega), memGet_memSet_other h (by omega)]

/-- Inside, the byte written. -/
theorem memGet_memWrite_inside {l : List Byte} {a i : Nat} {m : Mem} (h : Mem.wf m) (hi : i < l.length) :
    memGet (a + i) (memWrite m a l) = l[i] := by
  induction l generalizing a i m with
  | nil => simp at hi
  | cons x l ih =>
    rw [memWrite]
    cases i with
    | zero => rw [memGet_memWrite_outside (memSet_wf h) (by omega), Nat.add_zero, memGet_memSet_same h]; rfl
    | succ i =>
      simp only [List.length_cons] at hi
      rw [show a + (i + 1) = a + 1 + i by omega, ih (memSet_wf h) (by omega)]
      rfl

end Sys2Proof.Machine
end

