-- ==== Sys2Proof/Laws/Keeps.lean ====
section
/-! SUPPORT. What every operation of the model leaves true, as one relation between a state and a later one: the queue
stays, memory and register files stay canonical, lists of units keep their lengths, free values are not drawn twice,
nothing sent is taken back, the beat is the same. The lemmas
`…_keeps` of the files of this folder say of one operation each that it is such a step. -/

namespace Sys2Proof.Machine

/-- The state after reset has every list of units. -/
theorem State.reset_sized : State.reset.Sized := by
  refine ⟨?_, ?_, ?_, ?_, ?_, ?_, ?_, ?_, ?_⟩ <;> decide +kernel

/-- `t` comes after `s` by an operation of the model. -/
def After (s t : State) : Prop :=
  t.pending = s.pending ∧ s.draws ≤ t.draws ∧ s.wire <:+ t.wire ∧ (Mem.wf s.fabric.mem → Mem.wf t.fabric.mem)
    ∧ (RegFile.wf s.regs → RegFile.wf t.regs) ∧ (RegFile.wf s.shadow → RegFile.wf t.shadow) ∧ (s.Sized → t.Sized)

/-- `t` comes after `s` by an operation of the model, in the same beat. -/
def Keeps (s t : State) : Prop := After s t ∧ t.time.beatNo = s.time.beatNo

theorem After.trans {s t u : State} (h : After s t) (k : After t u) : After s u :=
  ⟨k.1.trans h.1, Nat.le_trans h.2.1 k.2.1, h.2.2.1.trans k.2.2.1, fun x => k.2.2.2.1 (h.2.2.2.1 x),
    fun x => k.2.2.2.2.1 (h.2.2.2.2.1 x), fun x => k.2.2.2.2.2.1 (h.2.2.2.2.2.1 x),
    fun x => k.2.2.2.2.2.2 (h.2.2.2.2.2.2 x)⟩

namespace Keeps

variable {s t u : State}

theorem refl (s : State) : Keeps s s := ⟨⟨rfl, Nat.le_refl _, List.suffix_refl _, id, id, id, id⟩, rfl⟩

theorem trans (h : Keeps s t) (k : Keeps t u) : Keeps s u :=
  ⟨⟨k.1.1.trans h.1.1, Nat.le_trans h.1.2.1 k.1.2.1, h.1.2.2.1.trans k.1.2.2.1, fun x => k.1.2.2.2.1 (h.1.2.2.2.1 x),
    fun x => k.1.2.2.2.2.1 (h.1.2.2.2.2.1 x), fun x => k.1.2.2.2.2.2.1 (h.1.2.2.2.2.2.1 x),
    fun x => k.1.2.2.2.2.2.2 (h.1.2.2.2.2.2.2 x)⟩, k.2.trans h.2⟩

/-- A later state whose queue, draws, register files, wire, memory and beat are those of `t`. -/
theorem update (h : Keeps s t) {a b c d e f g i j k l m n o} {p : FabricState} {q} (hm : p.mem = t.fabric.mem)
    (hb : a.beatNo = t.time.beatNo)
    (hs : t.Sized → State.Sized (State.mk t.pending t.draws a b c d t.regs t.shadow e f g i j k l m n o p q t.wire)) :
    Keeps s (State.mk t.pending t.draws a b c d t.regs t.shadow e f g i j k l m n o p q t.wire) :=
  ⟨⟨h.1.1, h.1.2.1, h.1.2.2.1, fun x => by simpa only [hm] using h.1.2.2.2.1 x, h.1.2.2.2.2.1, h.1.2.2.2.2.2.1,
    fun x => hs (h.1.2.2.2.2.2.2 x)⟩, hb.trans h.2⟩

/-- A later state that leaves every list of units as long as it was. -/
theorem same (h : Keeps s t) {a b c d e f g i j k l m n o} {p : FabricState} {q} (hm : p.mem = t.fabric.mem)
    (hb : a.beatNo = t.time.beatNo) (h1 : j.ports.length = t.link.ports.length) (h2 : o.length = t.clusters.length)
    (h3 : b.domains.length = t.power.domains.length) (h4 : q.ports.length = t.vision.ports.length)
    (h5 : q.streams.length = t.vision.streams.length) (h6 : q.ife.length = t.vision.ife.length)
    (h7 : p.channels.length = t.fabric.channels.length) (h8 : p.cores.length = t.fabric.cores.length)
    (h9 : l.pairs.length = t.plinth.pairs.length) :
    Keeps s (State.mk t.pending t.draws a b c d t.regs t.shadow e f g i j k l m n o p q t.wire) :=
  h.update hm hb fun x => ⟨h1.trans x.1, h2.trans x.2.1, h3.trans x.2.2.1, h4.trans x.2.2.2.1, h5.trans x.2.2.2.2.1,
    h6.trans x.2.2.2.2.2.1, h7.trans x.2.2.2.2.2.2.1, h8.trans x.2.2.2.2.2.2.2.1, h9.trans x.2.2.2.2.2.2.2.2⟩

/-- A single operation, by what it leaves. -/
theorem step (h : Keeps s t) (hp : u.pending = t.pending) (hd : t.draws ≤ u.draws) (hw : t.wire <:+ u.wire)
    (hm : Mem.wf t.fabric.mem → Mem.wf u.fabric.mem) (hr : RegFile.wf t.regs → RegFile.wf u.regs)
    (hh : RegFile.wf t.shadow → RegFile.wf u.shadow) (hs : t.Sized → u.Sized) (hb : u.time.beatNo = t.time.beatNo) :
    Keeps s u := h.trans ⟨⟨hp, hd, hw, hm, hr, hh, hs⟩, hb⟩

theorem pending (h : Keeps s t) : t.pending = s.pending := h.1.1
theorem draws (h : Keeps s t) : s.draws ≤ t.draws := h.1.2.1
theorem wire (h : Keeps s t) : s.wire <:+ t.wire := h.1.2.2.1
theorem mem (h : Keeps s t) (k : Mem.wf s.fabric.mem) : Mem.wf t.fabric.mem := h.1.2.2.2.1 k
theorem regs (h : Keeps s t) (k : RegFile.wf s.regs) : RegFile.wf t.regs := h.1.2.2.2.2.1 k
theorem shadow (h : Keeps s t) (k : RegFile.wf s.shadow) : RegFile.wf t.shadow := h.1.2.2.2.2.2.1 k
theorem sized (h : Keeps s t) (k : s.Sized) : t.Sized := h.1.2.2.2.2.2.2 k
theorem beat (h : Keeps s t) : t.time.beatNo = s.time.beatNo := h.2
theorem after (h : Keeps s t) : After s t := h.1

/-- An intermediate state. -/
theorem cut {b : Prop} (h : Keeps s t) (k : Keeps s t → b) : b := k h

/-- Either branch. -/
theorem ite {c : Prop} [Decidable c] (h : Keeps s t) (k : Keeps s u) : Keeps s (if c then t else u) := by
  split
  · exact h
  · exact k

/-- A fold whose steps keep. -/
theorem foldl {α : Type} {f : State → α → State} {l : List α} (h : Keeps s t) (hf : ∀ u x, Keeps s u → Keeps s (f u x)) :
    Keeps s (l.foldl f t) := by
  induction l generalizing t with
  | nil => exact h
  | cons x l ih => exact ih (hf t x h)

/-- A fold over states that carry something else first. -/
theorem foldl_fst {α β : Type} {f : State × β → α → State × β} {l : List α} {t : State × β} (h : Keeps s t.1)
    (hf : ∀ u x, Keeps s u.1 → Keeps s (f u x).1) : Keeps s (l.foldl f t).1 := by
  induction l generalizing t with
  | nil => exact h
  | cons x l ih => exact ih (hf t x h)

/-- A fold over states that carry something else after. -/
theorem foldl_snd {α β : Type} {f : β × State → α → β × State} {l : List α} {t : β × State} (h : Keeps s t.2)
    (hf : ∀ u x, Keeps s u.2 → Keeps s (f u x).2) : Keeps s (l.foldl f t).2 := by
  induction l generalizing t with
  | nil => exact h
  | cons x l ih => exact ih (hf t x h)

end Keeps

end Sys2Proof.Machine
end

