-- ==== Sys2Proof/Laws/Keeps/Ops.lean ====
section
/-! SUPPORT. The operations of Machine/Ops.lean are steps of the machine (`Keeps`). -/

set_option Elab.async false

namespace Sys2Proof.Machine

theorem State.wr_keeps {z0 z1 : State} {a1 a2 a3 a4 a5} (h1 : Keeps z0 z1) : Keeps z0 (State.wr z1 a1 a2 a3 a4 a5) := by
  refine h1.step rfl (Nat.le_refl _) (List.suffix_refl _) id (fun x => regSet_wf x) id id rfl

theorem State.wrShadow_keeps {z0 z1 : State} {a1 a2 a3 a4 a5} (h1 : Keeps z0 z1) : Keeps z0 (State.wrShadow z1 a1 a2 a3 a4 a5) := by
  refine h1.step rfl (Nat.le_refl _) (List.suffix_refl _) id id (fun x => regSet_wf x) id rfl

theorem State.count_keeps {z0 z1 : State} {a1 a2 a3 a4 a5} (h1 : Keeps z0 z1) : Keeps z0 (State.count z1 a1 a2 a3 a4 a5) := by
  unfold State.count
  refine State.wr_keeps ?_
  assumption

theorem State.dropShadows_keeps {z0 z1 : State} {a1} (h1 : Keeps z0 z1) : Keeps z0 (State.dropShadows z1 a1) := by
  refine h1.step rfl (Nat.le_refl _) (List.suffix_refl _) id id (fun x => RegFile.wf_filter x) id rfl

theorem State.clearPage_keeps {z0 z1 : State} {a1} (h1 : Keeps z0 z1) : Keeps z0 (State.clearPage z1 a1) := by
  refine h1.step rfl (Nat.le_refl _) (List.suffix_refl _) id (fun x => RegFile.wf_filter x) (fun x => RegFile.wf_filter x) id rfl

theorem State.wr2_keeps {z0 z1 : State} {a1 a2 a3 a4} (h1 : Keeps z0 z1) : Keeps z0 (State.wr2 z1 a1 a2 a3 a4) := by
  unfold State.wr2
  refine State.wr_keeps ?_
  refine State.wr_keeps ?_
  assumption

theorem State.store_keeps {z0 z1 : State} {a1 a2} (h1 : Keeps z0 z1) : Keeps z0 (State.store z1 a1 a2) := by
  refine h1.step rfl (Nat.le_refl _) (List.suffix_refl _) (fun x => memWrite_wf x) id id id rfl

theorem State.wipe_keeps {z0 z1 : State} {a1 a2} (h1 : Keeps z0 z1) : Keeps z0 (State.wipe z1 a1 a2) := by
  refine h1.step rfl (Nat.le_refl _) (List.suffix_refl _) (fun x => memWipe_wf x) id id id rfl

theorem State.setDomain_keeps {z0 z1 : State} {a1 a2} (h1 : Keeps z0 z1) : Keeps z0 (State.setDomain z1 a1 a2) := by
  unfold State.setDomain
  refine Keeps.update ?_ rfl rfl (fun h => by simpa [State.Sized] using h)
  assumption

theorem State.draw_keeps {z0 z1 : State} (h1 : Keeps z0 z1) : Keeps z0 (State.draw z1).2 := by
  refine h1.step rfl (Nat.le_succ _) (List.suffix_refl _) id id id id rfl

theorem State.drawBytes_keeps {z0 z1 : State} {a1} (h1 : Keeps z0 z1) : Keeps z0 (State.drawBytes z1 a1).2 := by
  refine h1.step rfl (Nat.le_add_right _ _) (List.suffix_refl _) id id id id rfl

theorem State.setPort_keeps {z0 z1 : State} {a1 a2} (h1 : Keeps z0 z1) : Keeps z0 (State.setPort z1 a1 a2) := by
  unfold State.setPort
  refine Keeps.update ?_ rfl rfl (fun h => by simpa [State.Sized] using h)
  assumption

theorem State.emit_keeps {z0 z1 : State} {a1} (h1 : Keeps z0 z1) : Keeps z0 (State.emit z1 a1) := by
  refine h1.step rfl (Nat.le_refl _) (List.suffix_cons _ _) id id id id rfl

theorem pumpN_keeps {z0 z1 : State} {a1 a2} (h1 : Keeps z0 z1) : Keeps z0 (pumpN a1 a2 z1) := by
  induction a2 generalizing z1 with
  | zero => exact h1
  | succ n ih =>
    unfold pumpN
    extract_lets
    split
    · exact State.setPort_keeps h1
    · exact ih (State.emit_keeps (State.setPort_keeps h1))

theorem State.pump_keeps {z0 z1 : State} {a1} (h1 : Keeps z0 z1) : Keeps z0 (State.pump z1 a1) := by
  unfold State.pump
  split
  · refine pumpN_keeps ?_
    assumption
  · assumption

theorem State.queueMsg_keeps {z0 z1 : State} {a1 a2} (h1 : Keeps z0 z1) : Keeps z0 (State.queueMsg z1 a1 a2) := by
  unfold State.queueMsg
  extract_lets +onlyGivenNames x0
  extract_lets +onlyGivenNames x1
  refine State.pump_keeps ?_
  refine State.setPort_keeps ?_
  assumption

theorem State.complete_keeps {z0 z1 : State} {a1 a2 a3 a4 a5 a6} (h1 : Keeps z0 z1) : Keeps z0 (State.complete z1 a1 a2 a3 a4 a5 a6) := by
  unfold State.complete
  refine State.queueMsg_keeps ?_
  assumption

theorem State.queueEvent_keeps {z0 z1 : State} {a1 a2 a3} (h1 : Keeps z0 z1) : Keeps z0 (State.queueEvent z1 a1 a2 a3) := by
  unfold State.queueEvent
  extract_lets +onlyGivenNames x0
  split
  · refine State.setPort_keeps ?_
    refine State.count_keeps ?_
    assumption
  · extract_lets +onlyGivenNames x1
    refine State.pump_keeps ?_
    refine State.setPort_keeps ?_
    assumption

theorem State.broadcast_keeps {z0 z1 : State} {a1 a2} (h1 : Keeps z0 z1) : Keeps z0 (State.broadcast z1 a1 a2) := by
  unfold State.broadcast
  refine Keeps.foldl ?_ (fun _ _ _ => ?_)
  · assumption
  · split
    · refine State.queueEvent_keeps ?_
      assumption
    · assumption

theorem State.jobDone_keeps {z0 z1 : State} {a1 a2 a3 a4} (h1 : Keeps z0 z1) : Keeps z0 (State.jobDone z1 a1 a2 a3 a4) := by
  unfold State.jobDone
  extract_lets +onlyGivenNames x0
  extract_lets +onlyGivenNames x1
  split
  · refine State.queueEvent_keeps ?_
    assumption
  · split
    · refine State.queueEvent_keeps ?_
      assumption
    · refine Keeps.same ?_ rfl rfl rfl rfl rfl rfl rfl rfl rfl rfl rfl
      assumption

theorem State.keepFault_keeps {z0 z1 : State} {a1} (h1 : Keeps z0 z1) : Keeps z0 (State.keepFault z1 a1) := by
  unfold State.keepFault
  extract_lets +onlyGivenNames x0
  extract_lets +onlyGivenNames x1
  extract_lets +onlyGivenNames x2
  refine Keeps.cut (s := z0) (t := x2) ?_ (fun _ => ?_)
  · subst x2
    refine Keeps.same ?_ rfl rfl rfl rfl rfl rfl rfl rfl rfl rfl rfl
    assumption
  clear_value x2
  refine State.count_keeps ?_
  refine State.wr_keeps ?_
  assumption

theorem State.headFault_keeps {z0 z1 : State} {a1 a2} (h1 : Keeps z0 z1) : Keeps z0 (State.headFault z1 a1 a2) := by
  unfold State.headFault
  refine State.count_keeps ?_
  refine State.wr_keeps ?_
  assumption

theorem State.slFault_keeps {z0 z1 : State} {a1} (h1 : Keeps z0 z1) : Keeps z0 (State.slFault z1 a1) := by
  unfold State.slFault
  split
  · refine State.count_keeps ?_
    assumption
  · refine Keeps.same ?_ rfl rfl rfl rfl rfl rfl rfl rfl rfl rfl rfl
    assumption

theorem State.details_keeps {z0 z1 : State} {a1} (h1 : Keeps z0 z1) : Keeps z0 (State.details z1 a1).2 := by
  unfold State.details
  split
  · refine h1.step rfl (Nat.le_add_right _ _) (List.suffix_refl _) id id id id rfl
  · exact h1

theorem State.faultRec_keeps {z0 z1 : State} {a1 a2 a3 a4 a5} (h1 : Keeps z0 z1) : Keeps z0 (State.faultRec z1 a1 a2 a3 a4 a5) := by
  unfold State.faultRec
  extract_lets +onlyGivenNames x0
  refine Keeps.cut (s := z0) (t := x0.2) ?_ (fun _ => ?_)
  · subst x0
    refine State.details_keeps ?_
    assumption
  clear_value x0
  extract_lets +onlyGivenNames x1
  extract_lets +onlyGivenNames x2
  refine Keeps.cut (s := z0) (t := x2) ?_ (fun _ => ?_)
  · subst x2
    refine State.broadcast_keeps ?_
    refine State.headFault_keeps ?_
    refine State.keepFault_keeps ?_
    assumption
  clear_value x2
  split
  · refine State.slFault_keeps ?_
    assumption
  · assumption

theorem State.fault_keeps {z0 z1 : State} {a1 a2 a3 a4} (h1 : Keeps z0 z1) : Keeps z0 (State.fault z1 a1 a2 a3 a4) := by
  unfold State.fault
  refine State.faultRec_keeps ?_
  assumption

theorem State.unitFault_keeps {z0 z1 : State} {a1 a2 a3 a4 a5} (h1 : Keeps z0 z1) : Keeps z0 (State.unitFault z1 a1 a2 a3 a4 a5) := by
  unfold State.unitFault
  refine State.faultRec_keeps ?_
  assumption

theorem State.audit_keeps {z0 z1 : State} {a1 a2 a3 a4 a5 a6} (h1 : Keeps z0 z1) : Keeps z0 (State.audit z1 a1 a2 a3 a4 a5 a6) := by
  unfold State.audit
  extract_lets +onlyGivenNames x0
  refine Keeps.same ?_ rfl rfl rfl rfl rfl rfl rfl rfl rfl rfl rfl
  assumption

theorem State.plinthAudit_keeps {z0 z1 : State} {a1 a2 a3 a4 a5} (h1 : Keeps z0 z1) : Keeps z0 (State.plinthAudit z1 a1 a2 a3 a4 a5) := by
  unfold State.plinthAudit
  split
  · refine Keeps.same ?_ rfl rfl rfl rfl rfl rfl rfl rfl rfl rfl rfl
    assumption
  · extract_lets +onlyGivenNames x0
    refine Keeps.same ?_ rfl rfl rfl rfl rfl rfl rfl rfl rfl rfl rfl
    assumption

theorem State.completeAudited_keeps {z0 z1 : State} {a1 a2 a3 a4 a5 a6 a7} (h1 : Keeps z0 z1) : Keeps z0 (State.completeAudited z1 a1 a2 a3 a4 a5 a6 a7) := by
  unfold State.completeAudited
  extract_lets +onlyGivenNames x0
  extract_lets +onlyGivenNames x1
  extract_lets +onlyGivenNames x2
  refine Keeps.cut (s := z0) (t := x2) ?_ (fun _ => ?_)
  · subst x2
    refine Keeps.same ?_ rfl rfl rfl rfl rfl rfl rfl rfl rfl rfl rfl
    assumption
  clear_value x2
  extract_lets +onlyGivenNames x3
  refine Keeps.cut (s := z0) (t := x3) ?_ (fun _ => ?_)
  · subst x3
    refine State.audit_keeps ?_
    assumption
  clear_value x3
  refine State.complete_keeps ?_
  assumption

theorem State.releaseTicket_keeps {z0 z1 : State} {a1} (h1 : Keeps z0 z1) : Keeps z0 (State.releaseTicket z1 a1) := by
  unfold State.releaseTicket
  extract_lets +onlyGivenNames x0
  refine Keeps.foldl ?_ (fun _ _ _ => ?_)
  · assumption
  · extract_lets +onlyGivenNames x1
    refine State.pump_keeps ?_
    refine State.setPort_keeps ?_
    assumption

end Sys2Proof.Machine
end

