-- ==== Sys2Proof/Laws/Keeps/Flags.lean ====
section
/-! SUPPORT. The operations of Machine/Flags.lean are steps of the machine (`Keeps`). -/

set_option Elab.async false

namespace Sys2Proof.Machine

theorem State.raise_keeps {z0 z1 : State} {a1 a2} (h1 : Keeps z0 z1) : Keeps z0 (State.raise z1 a1 a2) := by
  unfold State.raise
  extract_lets +onlyGivenNames x0
  split
  · assumption
  · extract_lets +onlyGivenNames x1
    refine Keeps.cut (s := z0) (t := x1) ?_ (fun _ => ?_)
    · subst x1
      refine State.wr_keeps ?_
      assumption
    clear_value x1
    split
    · refine Keeps.same ?_ rfl rfl rfl rfl rfl rfl rfl rfl rfl rfl rfl
      assumption
    · assumption

theorem State.blockEvent_keeps {z0 z1 : State} {a1} (h1 : Keeps z0 z1) : Keeps z0 (State.blockEvent z1 a1) := by
  unfold State.blockEvent
  extract_lets +onlyGivenNames x0
  split
  · assumption
  · refine State.broadcast_keeps ?_
    assumption

theorem State.blockEvents_keeps {z0 z1 : State} (h1 : Keeps z0 z1) : Keeps z0 (State.blockEvents z1) := by
  unfold State.blockEvents
  refine Keeps.foldl ?_ (fun _ _ _ => ?_)
  · refine Keeps.same ?_ rfl rfl rfl rfl rfl rfl rfl rfl rfl rfl rfl
    assumption
  · split
    · refine State.blockEvent_keeps ?_
      assumption
    · assumption

end Sys2Proof.Machine
end

