-- ==== Sys2Proof/Laws/Keeps/Camera.lean ====
section
/-! SUPPORT. The operations of Machine/Camera.lean are steps of the machine (`Keeps`). -/

set_option Elab.async false

namespace Sys2Proof.Machine

theorem State.setCam_keeps {z0 z1 : State} {a1 a2} (h1 : Keeps z0 z1) : Keeps z0 (State.setCam z1 a1 a2) := by
  unfold State.setCam
  refine Keeps.update ?_ rfl rfl (fun h => by simpa [State.Sized] using h)
  assumption

theorem State.setRun_keeps {z0 z1 : State} {a1 a2} (h1 : Keeps z0 z1) : Keeps z0 (State.setRun z1 a1 a2) := by
  unfold State.setRun
  refine Keeps.update ?_ rfl rfl (fun h => by simpa [State.Sized] using h)
  assumption

theorem State.sendTrigger_keeps {z0 z1 : State} {a1 a2} (h1 : Keeps z0 z1) : Keeps z0 (State.sendTrigger z1 a1 a2) := by
  unfold State.sendTrigger
  split
  · refine State.emit_keeps ?_
    assumption
  · assumption

theorem State.orphan_keeps {z0 z1 : State} {a1} (h1 : Keeps z0 z1) : Keeps z0 (State.orphan z1 a1) := by
  unfold State.orphan
  refine State.count_keeps ?_
  assumption

theorem State.showLost_keeps {z0 z1 : State} {a1 a2} (h1 : Keeps z0 z1) : Keeps z0 (State.showLost z1 a1 a2) := by
  unfold State.showLost
  refine State.wr_keeps ?_
  assumption

theorem State.stopFrames_keeps {z0 z1 : State} {a1} (h1 : Keeps z0 z1) : Keeps z0 (State.stopFrames z1 a1) := by
  unfold State.stopFrames
  refine Keeps.foldl ?_ (fun _ _ _ => ?_)
  · assumption
  · refine State.setRun_keeps ?_
    assumption

theorem State.loseFraming_keeps {z0 z1 : State} {a1 a2 a3} (h1 : Keeps z0 z1) : Keeps z0 (State.loseFraming z1 a1 a2 a3) := by
  unfold State.loseFraming
  split
  · assumption
  · refine State.fault_keeps ?_
    refine State.stopFrames_keeps ?_
    refine State.showLost_keeps ?_
    refine State.setCam_keeps ?_
    assumption

theorem State.resendConfig_keeps {z0 z1 : State} {a1} (h1 : Keeps z0 z1) : Keeps z0 (State.resendConfig z1 a1) := by
  unfold State.resendConfig
  extract_lets +onlyGivenNames x0
  split
  · assumption
  · refine State.setCam_keeps ?_
    assumption

theorem State.camLoseSignal_keeps {z0 z1 : State} {a1} (h1 : Keeps z0 z1) : Keeps z0 (State.camLoseSignal z1 a1) := by
  unfold State.camLoseSignal
  extract_lets +onlyGivenNames x0
  refine Keeps.cut (s := z0) (t := x0) ?_ (fun _ => ?_)
  · subst x0
    refine State.wr_keeps ?_
    refine State.wr_keeps ?_
    assumption
  clear_value x0
  split
  · refine State.loseFraming_keeps ?_
    assumption
  · assumption

theorem State.camGainSignal_keeps {z0 z1 : State} {a1} (h1 : Keeps z0 z1) : Keeps z0 (State.camGainSignal z1 a1) := by
  unfold State.camGainSignal
  refine State.wr_keeps ?_
  assumption

theorem execCpBlockLock_keeps {z0 z1 t0 : State} {a1} (h1 : Keeps z0 z1) (ht : execCpBlockLock a1 z1 = .next t0) :
    Keeps z0 t0 := by
  unfold execCpBlockLock at ht
  cases ht
  split
  · refine State.resendConfig_keeps ?_
    refine State.wr_keeps ?_
    assumption
  · assumption

theorem execCpLockLoss_keeps {z0 z1 t0 : State} {a1} (h1 : Keeps z0 z1) (ht : execCpLockLoss a1 z1 = .next t0) :
    Keeps z0 t0 := by
  unfold execCpLockLoss at ht
  cases ht
  split
  · refine State.loseFraming_keeps ?_
    refine State.wr_keeps ?_
    assumption
  · assumption

theorem State.checkFn_keeps {z0 z1 : State} {a1 a2 a3} (h1 : Keeps z0 z1) : Keeps z0 (State.checkFn z1 a1 a2 a3) := by
  unfold State.checkFn
  extract_lets +onlyGivenNames x0
  extract_lets +onlyGivenNames x1
  refine Keeps.cut (s := z0) (t := x1) ?_ (fun _ => ?_)
  · subst x1
    refine State.wr_keeps ?_
    assumption
  clear_value x1
  split
  · split
    · split
      · refine State.count_keeps ?_
        assumption
      · assumption
    · split
      · refine State.count_keeps ?_
        assumption
      · assumption
  · assumption

theorem State.openFrameAt_keeps {z0 z1 : State} {a1 a2 a3} (h1 : Keeps z0 z1) : Keeps z0 (State.openFrameAt z1 a1 a2 a3) := by
  unfold State.openFrameAt
  extract_lets +onlyGivenNames x0
  extract_lets +onlyGivenNames x1
  extract_lets +onlyGivenNames x2
  extract_lets +onlyGivenNames x3
  refine State.wr_keeps ?_
  refine State.setRun_keeps ?_
  assumption

theorem State.frameStart_keeps {z0 z1 : State} {a1 a2 a3} (h1 : Keeps z0 z1) : Keeps z0 (State.frameStart z1 a1 a2 a3) := by
  unfold State.frameStart
  extract_lets +onlyGivenNames x0
  refine Keeps.cut (s := z0) (t := x0) ?_ (fun _ => ?_)
  · subst x0
    refine State.checkFn_keeps ?_
    assumption
  clear_value x0
  split
  · refine State.openFrameAt_keeps ?_
    assumption
  · split
    · refine State.openFrameAt_keeps ?_
      assumption
    · refine State.count_keeps ?_
      refine State.setRun_keeps ?_
      assumption

theorem State.frameEnd_keeps {z0 z1 : State} {a1} (h1 : Keeps z0 z1) : Keeps z0 (State.frameEnd z1 a1) := by
  unfold State.frameEnd
  split
  · refine State.setRun_keeps ?_
    assumption
  · assumption

theorem State.onVc_keeps {z0 z1 : State} {a1 a2 a3} (h1 : Keeps z0 z1) (hf : ∀ s r, Keeps z0 s → Keeps z0 (a3 s r)) : Keeps z0 (State.onVc z1 a1 a2 a3) := by
  unfold State.onVc
  dsimp only
  split
  · exact State.orphan_keeps h1
  · exact Keeps.foldl h1 fun _ _ h => hf _ _ h

theorem State.fsPacket_keeps {z0 z1 : State} {a1 a2 a3} (h1 : Keeps z0 z1) : Keeps z0 (State.fsPacket z1 a1 a2 a3) := by
  unfold State.fsPacket
  refine State.onVc_keeps ?_ ?_
  · assumption
  · intro _
    intro _
    intro _
    refine State.frameStart_keeps ?_
    assumption

theorem State.fePacket_keeps {z0 z1 : State} {a1 a2} (h1 : Keeps z0 z1) : Keeps z0 (State.fePacket z1 a1 a2) := by
  unfold State.fePacket
  refine State.onVc_keeps ?_ ?_
  · assumption
  · intro _
    intro _
    intro _
    refine State.frameEnd_keeps ?_
    assumption

theorem execFs_keeps {z0 z1 t0 : State} {a1 a2 a3} (h1 : Keeps z0 z1) (ht : execFs a1 a2 a3 z1 = .next t0) :
    Keeps z0 t0 := by
  unfold execFs at ht
  cases ht
  split
  · refine State.fsPacket_keeps ?_
    assumption
  · assumption

theorem execFe_keeps {z0 z1 t0 : State} {a1 a2 a3} (h1 : Keeps z0 z1) (ht : execFe a1 a2 a3 z1 = .next t0) :
    Keeps z0 t0 := by
  unfold execFe at ht
  cases ht
  split
  · refine State.fePacket_keeps ?_
    assumption
  · assumption

theorem execLsLe_keeps {z0 z1 t0 : State} {a1 a2 a3 a4} (h1 : Keeps z0 z1) (ht : execLsLe a1 a2 a3 a4 z1 = .next t0) :
    Keeps z0 t0 := by
  unfold execLsLe at ht
  cases ht
  assumption

theorem State.putRow_keeps {z0 z1 : State} {a1 a2 a3 a4 a5} (h1 : Keeps z0 z1) : Keeps z0 (State.putRow z1 a1 a2 a3 a4 a5) := by
  unfold State.putRow
  refine Keeps.same ?_ rfl rfl rfl rfl rfl rfl rfl rfl rfl rfl rfl
  assumption

theorem State.takeRow_keeps {z0 z1 : State} {a1 a2 a3 a4} (h1 : Keeps z0 z1) : Keeps z0 (State.takeRow z1 a1 a2 a3 a4) := by
  unfold State.takeRow
  split
  · extract_lets +onlyGivenNames x0
    extract_lets +onlyGivenNames x1
    refine State.putRow_keeps ?_
    refine State.setRun_keeps ?_
    assumption
  · refine State.setRun_keeps ?_
    assumption

theorem State.frameRow_keeps {z0 z1 : State} {a1 a2 a3} (h1 : Keeps z0 z1) : Keeps z0 (State.frameRow z1 a1 a2 a3) := by
  unfold State.frameRow
  split
  · refine State.orphan_keeps ?_
    assumption
  · extract_lets +onlyGivenNames x0
    split
    · refine State.orphan_keeps ?_
      assumption
    · extract_lets +onlyGivenNames x1
      refine State.takeRow_keeps ?_
      assumption

theorem State.lineRow_keeps {z0 z1 : State} {a1 a2 a3} (h1 : Keeps z0 z1) : Keeps z0 (State.lineRow z1 a1 a2 a3) := by
  unfold State.lineRow
  split
  · refine State.orphan_keeps ?_
    assumption
  · extract_lets +onlyGivenNames x0
    extract_lets +onlyGivenNames x1
    refine State.wr_keeps ?_
    refine State.takeRow_keeps ?_
    assumption

theorem State.rowPacket_keeps {z0 z1 : State} {a1 a2 a3 a4 a5 a6} (h1 : Keeps z0 z1) : Keeps z0 (State.rowPacket z1 a1 a2 a3 a4 a5 a6) := by
  unfold State.rowPacket
  split
  · assumption
  · split
    · refine State.orphan_keeps ?_
      assumption
    · split
      · refine State.orphan_keeps ?_
        assumption
      · split
        · assumption
        · extract_lets +onlyGivenNames x0
          extract_lets +onlyGivenNames x1
          extract_lets +onlyGivenNames x2
          refine Keeps.cut (s := z0) (t := x2) ?_ (fun _ => ?_)
          · subst x2
            split
            · assumption
            · refine State.count_keeps ?_
              assumption
          clear_value x2
          extract_lets +onlyGivenNames x3
          refine Keeps.cut (s := z0) (t := x3) ?_ (fun _ => ?_)
          · subst x3
            split
            · refine State.count_keeps ?_
              assumption
            · assumption
          clear_value x3
          extract_lets +onlyGivenNames x4
          split
          · refine State.lineRow_keeps ?_
            assumption
          · refine State.frameRow_keeps ?_
            assumption

theorem State.longChecked_keeps {z0 z1 : State} {a1 a2 a3 a4} (h1 : Keeps z0 z1) : Keeps z0 (State.longChecked z1 a1 a2 a3 a4) := by
  unfold State.longChecked
  split
  · refine State.count_keeps ?_
    assumption
  · extract_lets +onlyGivenNames x0
    refine Keeps.cut (s := z0) (t := x0) ?_ (fun _ => ?_)
    · subst x0
      split
      · refine State.count_keeps ?_
        assumption
      · assumption
    clear_value x0
    refine State.rowPacket_keeps ?_
    assumption

theorem State.longPacket_keeps {z0 z1 : State} {a1 a2 a3 a4} (h1 : Keeps z0 z1) : Keeps z0 (State.longPacket z1 a1 a2 a3 a4) := by
  unfold State.longPacket
  refine State.longChecked_keeps ?_
  assumption

theorem execLongPacket_keeps {z0 z1 t0 : State} {a1 a2 a3 a4} (h1 : Keeps z0 z1) (ht : execLongPacket a1 a2 a3 a4 z1 = .next t0) :
    Keeps z0 t0 := by
  unfold execLongPacket at ht
  split at ht
  · cases ht
    split
    · refine State.longPacket_keeps ?_
      assumption
    · assumption
  · cases ht

theorem State.checkLossRows_keeps {z0 z1 : State} {a1 a2 a3} (h1 : Keeps z0 z1) : Keeps z0 (State.checkLossRows z1 a1 a2 a3) := by
  unfold State.checkLossRows
  extract_lets +onlyGivenNames x0
  split
  · refine State.loseFraming_keeps ?_
    assumption
  · assumption

theorem State.missRow_keeps {z0 z1 : State} {a1 a2 a3} (h1 : Keeps z0 z1) : Keeps z0 (State.missRow z1 a1 a2 a3) := by
  unfold State.missRow
  extract_lets +onlyGivenNames x0
  extract_lets +onlyGivenNames x1
  extract_lets +onlyGivenNames x2
  extract_lets +onlyGivenNames x3
  refine Keeps.cut (s := z0) (t := x3) ?_ (fun _ => ?_)
  · subst x3
    refine State.count_keeps ?_
    refine State.putRow_keeps ?_
    refine State.setRun_keeps ?_
    assumption
  clear_value x3
  refine State.checkLossRows_keeps ?_
  assumption

theorem execFsDeadline_keeps {z0 z1 t0 : State} {a1 a2} (h1 : Keeps z0 z1) (ht : execFsDeadline a1 a2 z1 = .next t0) :
    Keeps z0 t0 := by
  unfold execFsDeadline at ht
  extract_lets +onlyGivenNames x0 at ht
  cases ht
  split
  · refine State.loseFraming_keeps ?_
    assumption
  · assumption

theorem State.pushTunnel_keeps {z0 z1 : State} {a1} (h1 : Keeps z0 z1) : Keeps z0 (State.pushTunnel z1 a1) := by
  unfold State.pushTunnel
  extract_lets +onlyGivenNames x0
  extract_lets +onlyGivenNames x1
  split
  · refine State.count_keeps ?_
    assumption
  · extract_lets +onlyGivenNames x2
    refine State.setCam_keeps ?_
    assumption

theorem State.report_keeps {z0 z1 : State} {a1 a2} (h1 : Keeps z0 z1) : Keeps z0 (State.report z1 a1 a2) := by
  unfold State.report
  extract_lets +onlyGivenNames x0
  extract_lets +onlyGivenNames x1
  refine Keeps.cut (s := z0) (t := x1) ?_ (fun _ => ?_)
  · subst x1
    refine State.setCam_keeps ?_
    assumption
  clear_value x1
  extract_lets +onlyGivenNames x2
  refine Keeps.update ?_ rfl rfl (fun h => by simp_all [State.Sized])
  assumption

theorem State.lateSetting_keeps {z0 z1 : State} {a1 a2} (h1 : Keeps z0 z1) : Keeps z0 (State.lateSetting z1 a1 a2) := by
  unfold State.lateSetting
  split
  · refine State.count_keeps ?_
    refine State.raise_keeps ?_
    assumption
  · assumption

theorem State.emitTunnel_keeps {z0 z1 : State} {a1 a2} (h1 : Keeps z0 z1) : Keeps z0 (State.emitTunnel z1 a1 a2) := by
  unfold State.emitTunnel
  extract_lets +onlyGivenNames x0
  refine State.emit_keeps ?_
  refine State.setCam_keeps ?_
  assumption

theorem State.failTunnel_keeps {z0 z1 : State} {a1 a2} (h1 : Keeps z0 z1) : Keeps z0 (State.failTunnel z1 a1 a2) := by
  unfold State.failTunnel
  extract_lets +onlyGivenNames x0
  extract_lets +onlyGivenNames x1
  refine Keeps.cut (s := z0) (t := x1) ?_ (fun _ => ?_)
  · subst x1
    refine State.fault_keeps ?_
    refine State.count_keeps ?_
    refine State.setCam_keeps ?_
    assumption
  clear_value x1
  split
  · refine State.report_keeps ?_
    assumption
  · assumption

theorem State.retryTunnel_keeps {z0 z1 : State} {a1 a2} (h1 : Keeps z0 z1) : Keeps z0 (State.retryTunnel z1 a1 a2) := by
  unfold State.retryTunnel
  extract_lets +onlyGivenNames x0
  split
  · split
    · refine State.setCam_keeps ?_
      assumption
    · refine State.emitTunnel_keeps ?_
      assumption
  · refine State.failTunnel_keeps ?_
    assumption

theorem execTunnelSend_keeps {z0 z1 t0 : State} {a1} (h1 : Keeps z0 z1) (ht : execTunnelSend a1 z1 = .next t0) :
    Keeps z0 t0 := by
  unfold execTunnelSend at ht
  extract_lets +onlyGivenNames x0 at ht
  cases ht
  split
  · split
    · split
      · refine State.retryTunnel_keeps ?_
        assumption
      · assumption
    · assumption
    · split
      · assumption
      · extract_lets +onlyGivenNames x1
        extract_lets +onlyGivenNames x2
        refine Keeps.cut (s := z0) (t := x2) ?_ (fun _ => ?_)
        · subst x2
          refine State.emitTunnel_keeps ?_
          refine State.setCam_keeps ?_
          assumption
        clear_value x2
        split
        · refine State.lateSetting_keeps ?_
          refine State.report_keeps ?_
          assumption
        · assumption
  · assumption

theorem State.confirmTunnel_keeps {z0 z1 : State} {a1 a2} (h1 : Keeps z0 z1) : Keeps z0 (State.confirmTunnel z1 a1 a2) := by
  unfold State.confirmTunnel
  extract_lets +onlyGivenNames x0
  extract_lets +onlyGivenNames x1
  refine State.setCam_keeps ?_
  assumption

theorem State.tunnelAck_keeps {z0 z1 : State} {a1 a2 a3} (h1 : Keeps z0 z1) : Keeps z0 (State.tunnelAck z1 a1 a2 a3) := by
  unfold State.tunnelAck
  split
  · assumption
  · split
    · assumption
    · split
      · refine State.confirmTunnel_keeps ?_
        assumption
      · split
        · refine State.retryTunnel_keeps ?_
          assumption
        · split
          · refine State.failTunnel_keeps ?_
            assumption
          · assumption

theorem execTunnelAck_keeps {z0 z1 t0 : State} {a1 a2 a3} (h1 : Keeps z0 z1) (ht : execTunnelAck a1 a2 a3 z1 = .next t0) :
    Keeps z0 t0 := by
  unfold execTunnelAck at ht
  cases ht
  split
  · refine State.tunnelAck_keeps ?_
    assumption
  · assumption

theorem execTunAckTmo_keeps {z0 z1 t0 : State} {a1} (h1 : Keeps z0 z1) (ht : execTunAckTmo a1 z1 = .next t0) :
    Keeps z0 t0 := by
  unfold execTunAckTmo at ht
  cases ht
  split
  · split
    · refine State.retryTunnel_keeps ?_
      assumption
    · assumption
  · assumption

theorem State.shortChecked_keeps {z0 z1 : State} {a1 a2} (h1 : Keeps z0 z1) : Keeps z0 (State.shortChecked z1 a1 a2) := by
  unfold State.shortChecked
  split
  · refine State.count_keeps ?_
    assumption
  · extract_lets +onlyGivenNames x0
    refine Keeps.cut (s := z0) (t := x0) ?_ (fun _ => ?_)
    · subst x0
      split
      · refine State.count_keeps ?_
        assumption
      · assumption
    clear_value x0
    extract_lets +onlyGivenNames x1
    extract_lets +onlyGivenNames x2
    split
    · refine State.fsPacket_keeps ?_
      assumption
    · split
      · refine State.fePacket_keeps ?_
        assumption
      · split
        · assumption
        · refine State.orphan_keeps ?_
          assumption

theorem State.shortPacket_keeps {z0 z1 : State} {a1 a2} (h1 : Keeps z0 z1) : Keeps z0 (State.shortPacket z1 a1 a2) := by
  unfold State.shortPacket
  refine State.shortChecked_keeps ?_
  assumption

theorem State.transport_keeps {z0 z1 : State} {a1 a2} (h1 : Keeps z0 z1) : Keeps z0 (State.transport z1 a1 a2) := by
  unfold State.transport
  extract_lets +onlyGivenNames x0
  split
  · refine State.orphan_keeps ?_
    assumption
  · split
    · split
      · refine State.shortPacket_keeps ?_
        assumption
      · split
        · refine State.longPacket_keeps ?_
          assumption
        · refine State.orphan_keeps ?_
          assumption
    · split
      · refine State.tunnelAck_keeps ?_
        assumption
      · refine State.orphan_keeps ?_
        assumption

theorem execTransportPacket_keeps {z0 z1 t0 : State} {a1 a2} (h1 : Keeps z0 z1) (ht : execTransportPacket a1 a2 z1 = .next t0) :
    Keeps z0 t0 := by
  unfold execTransportPacket at ht
  cases ht
  split
  · refine State.transport_keeps ?_
    assumption
  · assumption

theorem tunPushCheck_keeps {z0 z1 : State} {a1} (h1 : Keeps z0 z1) : Keeps z0 (tunPushCheck z1 a1).2 := by
  unfold tunPushCheck
  extract_lets +onlyGivenNames x0
  split
  · dsimp only
    assumption
  · split
    · dsimp only
      assumption
    · split
      · dsimp only
        refine State.count_keeps ?_
        assumption
      · dsimp only
        assumption

theorem portEnAct_keeps {z0 z1 : State} {a1} (h1 : Keeps z0 z1) : Keeps z0 (portEnAct z1 a1) := by
  unfold portEnAct
  refine Keeps.foldl ?_ (fun _ _ _ => ?_)
  · refine State.wr_keeps ?_
    assumption
  · split
    · assumption
    · refine State.wr_keeps ?_
      assumption

end Sys2Proof.Machine
end

