-- ==== Sys2Proof/Laws/Keeps/Mmu.lean ====
section
/-! SUPPORT. The operations of Machine/Mmu.lean are steps of the machine (`Keeps`). -/

set_option Elab.async false

namespace Sys2Proof.Machine

theorem State.lookupPage_keeps {z0 z1 : State} {a1 a2} (h1 : Keeps z0 z1) : Keeps z0 (State.lookupPage z1 a1 a2).2 := by
  unfold State.lookupPage
  split
  · dsimp only
    assumption
  · split
    · dsimp only
      assumption
    · extract_lets +onlyGivenNames x0
      refine Keeps.cut (s := z0) (t := x0) ?_ (fun _ => ?_)
      · subst x0
        refine State.count_keeps ?_
        assumption
      clear_value x0
      split
      · dsimp only
        refine Keeps.same ?_ rfl rfl rfl rfl rfl rfl rfl rfl rfl rfl rfl
        assumption
      · dsimp only
        assumption

theorem State.recordOut_keeps {z0 z1 : State} {a1 a2 a3} (h1 : Keeps z0 z1) : Keeps z0 (State.recordOut z1 a1 a2 a3) := by
  unfold State.recordOut
  split
  · refine Keeps.same ?_ rfl rfl rfl rfl rfl rfl rfl rfl rfl rfl rfl
    assumption
  · assumption

theorem State.xlate_keeps {z0 z1 : State} {a1 a2 a3 a4} (h1 : Keeps z0 z1) : Keeps z0 (State.xlate z1 a1 a2 a3 a4).2 := by
  have h := State.lookupPage_keeps (a1 := a1) (a2 := a3) h1
  unfold State.xlate
  split
  · rename_i heq
    rw [heq] at h
    dsimp only
    split
    · exact State.count_keeps h
    · dsimp only
      split
      · exact State.recordOut_keeps h
      · exact h
  · rename_i heq
    rw [heq] at h
    exact State.count_keeps h

theorem State.xlateAll_keeps {z0 z1 : State} {a1 a2 a3} (h1 : Keeps z0 z1) : Keeps z0 (State.xlateAll z1 a1 a2 a3).2.2 := by
  induction a3 generalizing z1 with
  | nil => exact h1
  | cons x r ih =>
    obtain ⟨a, n⟩ := x
    have h := State.xlate_keeps (a1 := a1) (a2 := a2) (a3 := a) (a4 := n) h1
    unfold State.xlateAll
    split
    · rename_i heq
      rw [heq] at h
      exact h
    · rename_i heq
      rw [heq] at h
      exact ih h

theorem invAct_keeps {z0 z1 : State} {a1} (h1 : Keeps z0 z1) : Keeps z0 (invAct z1 a1) := by
  unfold invAct
  refine Keeps.same ?_ rfl rfl rfl rfl rfl rfl rfl rfl rfl rfl rfl
  assumption

end Sys2Proof.Machine
end

