-- ==== Sys2Proof/Laws/Keeps/Rings.lean ====
section
/-! SUPPORT. The operations of Machine/Rings.lean are steps of the machine (`Keeps`). -/

set_option Elab.async false

namespace Sys2Proof.Machine

theorem State.ringWr_keeps {z0 z1 : State} {a1 a2 a3 a4} (h1 : Keeps z0 z1) : Keeps z0 (State.ringWr z1 a1 a2 a3 a4) := by
  unfold State.ringWr
  refine State.wr_keeps ?_
  assumption

theorem State.ringHead_keeps {z0 z1 : State} {a1} (h1 : Keeps z0 z1) : Keeps z0 (State.ringHead z1 a1) := by
  unfold State.ringHead
  extract_lets +onlyGivenNames x0
  extract_lets +onlyGivenNames x1
  refine State.ringWr_keeps ?_
  assumption

theorem State.ringFill_keeps {z0 z1 : State} {a1} (h1 : Keeps z0 z1) : Keeps z0 (State.ringFill z1 a1) := by
  unfold State.ringFill
  refine State.ringWr_keeps ?_
  assumption

theorem State.ringCommit_keeps {z0 z1 : State} {a1 a2} (h1 : Keeps z0 z1) : Keeps z0 (State.ringCommit z1 a1 a2) := by
  unfold State.ringCommit
  extract_lets +onlyGivenNames x0
  refine State.ringHead_keeps ?_
  refine State.ringWr_keeps ?_
  assumption

theorem State.ringUndo_keeps {z0 z1 : State} {a1} (h1 : Keeps z0 z1) : Keeps z0 (State.ringUndo z1 a1) := by
  unfold State.ringUndo
  refine State.ringWr_keeps ?_
  assumption

theorem State.ringDrain_keeps {z0 z1 : State} {a1 a2 a3} (h1 : Keeps z0 z1) : Keeps z0 (State.ringDrain z1 a1 a2 a3) := by
  unfold State.ringDrain
  extract_lets +onlyGivenNames x0
  refine State.ringHead_keeps ?_
  refine Keeps.same ?_ rfl rfl rfl rfl rfl rfl rfl rfl rfl rfl rfl
  assumption

theorem State.ringTake_keeps {z0 z1 : State} {a1 a2 a3} (h1 : Keeps z0 z1) : Keeps z0 (State.ringTake z1 a1 a2 a3) := by
  unfold State.ringTake
  refine Keeps.foldl ?_ (fun _ _ _ => ?_)
  · assumption
  · refine State.ringDrain_keeps ?_
    assumption

theorem State.ringAttach_keeps {z0 z1 : State} {a1 a2 a3} (h1 : Keeps z0 z1) : Keeps z0 (State.ringAttach z1 a1 a2 a3) := by
  unfold State.ringAttach
  split
  · assumption
  · extract_lets +onlyGivenNames x0
    refine Keeps.same ?_ rfl rfl rfl rfl rfl rfl rfl rfl rfl rfl rfl
    assumption

theorem State.ringDetach_keeps {z0 z1 : State} {a1} (h1 : Keeps z0 z1) : Keeps z0 (State.ringDetach z1 a1) := by
  unfold State.ringDetach
  extract_lets +onlyGivenNames x0
  extract_lets +onlyGivenNames x1
  extract_lets +onlyGivenNames x2
  refine Keeps.cut (s := z0) (t := x2) ?_ (fun _ => ?_)
  · subst x2
    refine Keeps.same ?_ rfl rfl rfl rfl rfl rfl rfl rfl rfl rfl rfl
    assumption
  clear_value x2
  refine Keeps.foldl ?_ (fun _ _ _ => ?_)
  · assumption
  · refine State.ringHead_keeps ?_
    assumption

theorem State.ringReset_keeps {z0 z1 : State} {a1} (h1 : Keeps z0 z1) : Keeps z0 (State.ringReset z1 a1) := by
  unfold State.ringReset
  extract_lets +onlyGivenNames x0
  extract_lets +onlyGivenNames x1
  extract_lets +onlyGivenNames x2
  refine Keeps.cut (s := z0) (t := x2) ?_ (fun _ => ?_)
  · subst x2
    refine Keeps.same ?_ rfl rfl rfl rfl rfl rfl rfl rfl rfl rfl rfl
    assumption
  clear_value x2
  refine State.ringWr_keeps ?_
  refine State.ringWr_keeps ?_
  refine State.ringWr_keeps ?_
  assumption

theorem State.ringPut_keeps {z0 z1 : State} {a1 a2} (h1 : Keeps z0 z1) : Keeps z0 (State.ringPut z1 a1 a2) := by
  unfold State.ringPut
  refine Keeps.foldl ?_ (fun _ _ _ => ?_)
  · assumption
  · split
    · assumption
    · refine State.ringCommit_keeps ?_
      refine State.ringFill_keeps ?_
      assumption

theorem State.dropRings_keeps {z0 z1 : State} {a1} (h1 : Keeps z0 z1) : Keeps z0 (State.dropRings z1 a1) := by
  unfold State.dropRings
  extract_lets +onlyGivenNames x0
  extract_lets +onlyGivenNames x1
  extract_lets +onlyGivenNames x2
  refine Keeps.cut (s := z0) (t := x2) ?_ (fun _ => ?_)
  · subst x2
    refine Keeps.same ?_ rfl rfl rfl rfl rfl rfl rfl rfl rfl rfl rfl
    assumption
  clear_value x2
  refine Keeps.foldl ?_ (fun _ _ _ => ?_)
  · assumption
  · refine State.ringReset_keeps ?_
    assumption

theorem State.leaveSetRings_keeps {z0 z1 : State} {a1} (h1 : Keeps z0 z1) : Keeps z0 (State.leaveSetRings z1 a1) := by
  unfold State.leaveSetRings
  extract_lets +onlyGivenNames x0
  extract_lets +onlyGivenNames x1
  extract_lets +onlyGivenNames x2
  extract_lets +onlyGivenNames x3
  refine Keeps.cut (s := z0) (t := x3) ?_ (fun _ => ?_)
  · subst x3
    refine Keeps.same ?_ rfl rfl rfl rfl rfl rfl rfl rfl rfl rfl rfl
    assumption
  clear_value x3
  refine Keeps.foldl ?_ (fun _ _ _ => ?_)
  · assumption
  · refine State.ringHead_keeps ?_
    assumption

end Sys2Proof.Machine
end

