-- ==== Sys2Proof/Laws/Keeps/Tasks.lean ====
section
/-! SUPPORT. The operations of Machine/Tasks.lean are steps of the machine (`Keeps`). -/

set_option Elab.async false

namespace Sys2Proof.Machine

theorem State.setCore_keeps {z0 z1 : State} {a1 a2} (h1 : Keeps z0 z1) : Keeps z0 (State.setCore z1 a1 a2) := by
  unfold State.setCore
  refine Keeps.update ?_ rfl rfl (fun h => by simpa [State.Sized] using h)
  assumption

theorem State.setSlot_keeps {z0 z1 : State} {a1 a2} (h1 : Keeps z0 z1) : Keeps z0 (State.setSlot z1 a1 a2) := by
  unfold State.setSlot
  refine State.setCore_keeps ?_
  assumption

theorem State.freeSlot_keeps {z0 z1 : State} {a1 a2} (h1 : Keeps z0 z1) : Keeps z0 (State.freeSlot z1 a1 a2) := by
  unfold State.freeSlot
  refine State.setCore_keeps ?_
  assumption

theorem State.setClu_keeps {z0 z1 : State} {a1 a2} (h1 : Keeps z0 z1) : Keeps z0 (State.setClu z1 a1 a2) := by
  unfold State.setClu
  refine Keeps.update ?_ rfl rfl (fun h => by simpa [State.Sized] using h)
  assumption

theorem State.setTask_keeps {z0 z1 : State} {a1} (h1 : Keeps z0 z1) : Keeps z0 (State.setTask z1 a1) := by
  unfold State.setTask
  refine Keeps.same ?_ rfl rfl rfl rfl rfl rfl rfl rfl rfl rfl rfl
  assumption

theorem State.setChan_keeps {z0 z1 : State} {a1} (h1 : Keeps z0 z1) : Keeps z0 (State.setChan z1 a1) := by
  unfold State.setChan
  refine Keeps.update ?_ rfl rfl (fun h => by simpa [State.Sized] using h)
  assumption

theorem State.setWmask_keeps {z0 z1 : State} {a1 a2 a3 a4} (h1 : Keeps z0 z1) : Keeps z0 (State.setWmask z1 a1 a2 a3 a4) := by
  unfold State.setWmask
  split
  · refine State.wr_keeps ?_
    assumption
  · refine State.wr_keeps ?_
    assumption

theorem State.markWrite_keeps {z0 z1 : State} {a1 a2} (h1 : Keeps z0 z1) : Keeps z0 (State.markWrite z1 a1 a2) := by
  unfold State.markWrite
  split
  · extract_lets +onlyGivenNames x0
    split
    · assumption
    · refine State.setWmask_keeps ?_
      assumption
  · assumption

theorem State.pmCause_keeps {z0 z1 : State} {a1 a2 a3 a4 a5 a6} (h1 : Keeps z0 z1) : Keeps z0 (State.pmCause z1 a1 a2 a3 a4 a5 a6) := by
  unfold State.pmCause
  extract_lets +onlyGivenNames x0
  split
  · assumption
  · split
    · refine State.count_keeps ?_
      assumption
    · split
      · refine State.wr_keeps ?_
        refine Keeps.same ?_ rfl rfl rfl rfl rfl rfl rfl rfl rfl rfl rfl
        assumption
      · refine Keeps.same ?_ rfl rfl rfl rfl rfl rfl rfl rfl rfl rfl rfl
        assumption

theorem State.cutCapture_keeps {z0 z1 : State} {a1} (h1 : Keeps z0 z1) : Keeps z0 (State.cutCapture z1 a1) := by
  unfold State.cutCapture
  split
  · split
    · refine State.wr_keeps ?_
      refine Keeps.same ?_ rfl rfl rfl rfl rfl rfl rfl rfl rfl rfl rfl
      assumption
    · assumption
  · assumption

theorem State.dropCapture_keeps {z0 z1 : State} {a1} (h1 : Keeps z0 z1) : Keeps z0 (State.dropCapture z1 a1) := by
  unfold State.dropCapture
  refine Keeps.same ?_ rfl rfl rfl rfl rfl rfl rfl rfl rfl rfl rfl
  assumption

theorem execPmCaptureDone_keeps {z0 z1 t0 : State} (h1 : Keeps z0 z1) (ht : execPmCaptureDone z1 = .next t0) :
    Keeps z0 t0 := by
  unfold execPmCaptureDone at ht
  cases ht
  split
  · assumption
  · extract_lets +onlyGivenNames x0
    extract_lets +onlyGivenNames x1
    extract_lets +onlyGivenNames x2
    extract_lets +onlyGivenNames x3
    refine Keeps.cut (s := z0) (t := x3) ?_ (fun _ => ?_)
    · subst x3
      refine Keeps.same ?_ rfl rfl rfl rfl rfl rfl rfl rfl rfl rfl rfl
      assumption
    clear_value x3
    refine State.wr_keeps ?_
    assumption

theorem State.logDigest_keeps {z0 z1 : State} {a1} (h1 : Keeps z0 z1) : Keeps z0 (State.logDigest z1 a1) := by
  unfold State.logDigest
  split
  · refine State.raise_keeps ?_
    refine State.count_keeps ?_
    assumption
  · refine Keeps.same ?_ rfl rfl rfl rfl rfl rfl rfl rfl rfl rfl rfl
    assumption

theorem execDigLogWrite_keeps {z0 z1 t0 : State} (h1 : Keeps z0 z1) (ht : execDigLogWrite z1 = .next t0) :
    Keeps z0 t0 := by
  unfold execDigLogWrite at ht
  extract_lets +onlyGivenNames x0 at ht
  cases ht
  split
  · assumption
  · split
    · assumption
    · extract_lets +onlyGivenNames x1
      extract_lets +onlyGivenNames x2
      extract_lets +onlyGivenNames x3
      refine Keeps.cut (s := z0) (t := x3) ?_ (fun _ => ?_)
      · subst x3
        refine Keeps.same ?_ rfl rfl rfl rfl rfl rfl rfl rfl rfl rfl rfl
        assumption
      clear_value x3
      refine State.wr_keeps ?_
      refine State.store_keeps ?_
      assumption

theorem execSegmentWipeDone_keeps {z0 z1 t0 : State} {a1 a2} (h1 : Keeps z0 z1) (ht : execSegmentWipeDone a1 a2 z1 = .next t0) :
    Keeps z0 t0 := by
  unfold execSegmentWipeDone at ht
  extract_lets +onlyGivenNames x0 at ht
  cases ht
  split
  · refine State.wipe_keeps ?_
    refine Keeps.same ?_ rfl rfl rfl rfl rfl rfl rfl rfl rfl rfl rfl
    assumption
  · assumption

theorem State.releaseTask_keeps {z0 z1 : State} {a1} (h1 : Keeps z0 z1) : Keeps z0 (State.releaseTask z1 a1) := by
  unfold State.releaseTask
  extract_lets +onlyGivenNames x0
  extract_lets +onlyGivenNames x1
  extract_lets +onlyGivenNames x2
  refine Keeps.cut (s := z0) (t := x2) ?_ (fun _ => ?_)
  · subst x2
    refine State.setClu_keeps ?_
    assumption
  clear_value x2
  extract_lets +onlyGivenNames x3
  refine Keeps.cut (s := z0) (t := x3) ?_ (fun _ => ?_)
  · subst x3
    refine Keeps.foldl ?_ (fun _ _ _ => ?_)
    · assumption
    · extract_lets +onlyGivenNames x4
      refine State.setCore_keeps ?_
      assumption
  clear_value x3
  extract_lets +onlyGivenNames x5
  extract_lets +onlyGivenNames x6
  extract_lets +onlyGivenNames x7
  refine Keeps.cut (s := z0) (t := x7) ?_ (fun _ => ?_)
  · subst x7
    refine State.wr_keeps ?_
    refine State.wr_keeps ?_
    assumption
  clear_value x7
  refine Keeps.update ?_ rfl rfl (fun h => by simpa [State.Sized] using h)
  assumption

theorem State.leaveRings_keeps {z0 z1 : State} {a1} (h1 : Keeps z0 z1) : Keeps z0 (State.leaveRings z1 a1) := by
  unfold State.leaveRings
  refine Keeps.foldl ?_ (fun _ _ _ => ?_)
  · refine State.ringDetach_keeps ?_
    assumption
  · refine State.ringWr_keeps ?_
    refine State.ringReset_keeps ?_
    assumption

theorem State.releaseOut_keeps {z0 z1 : State} {a1 a2} (h1 : Keeps z0 z1) : Keeps z0 (State.releaseOut z1 a1 a2) := by
  unfold State.releaseOut
  extract_lets +onlyGivenNames x0
  extract_lets +onlyGivenNames x1
  extract_lets +onlyGivenNames x2
  refine Keeps.cut (s := z0) (t := x2) ?_ (fun _ => ?_)
  · subst x2
    refine Keeps.same ?_ rfl rfl rfl rfl rfl rfl rfl rfl rfl rfl rfl
    assumption
  clear_value x2
  split
  · assumption
  · refine Keeps.foldl ?_ (fun _ _ _ => ?_)
    · assumption
    · refine State.wipe_keeps ?_
      assumption

theorem State.reportTask_keeps {z0 z1 : State} {a1 a2 a3} (h1 : Keeps z0 z1) : Keeps z0 (State.reportTask z1 a1 a2 a3) := by
  unfold State.reportTask
  extract_lets +onlyGivenNames x0
  refine Keeps.cut (s := z0) (t := x0) ?_ (fun _ => ?_)
  · subst x0
    split
    · assumption
    · refine State.store_keeps ?_
      assumption
  clear_value x0
  split
  · refine State.jobDone_keeps ?_
    assumption
  · assumption

theorem State.completeTask_keeps {z0 z1 : State} {a1} (h1 : Keeps z0 z1) : Keeps z0 (State.completeTask z1 a1) := by
  unfold State.completeTask
  refine State.count_keeps (State.reportTask_keeps (State.releaseOut_keeps (State.releaseTask_keeps (State.leaveRings_keeps ?_))))
  refine Keeps.foldl h1 fun u g hu => ?_
  dsimp only
  split
  · exact State.setWmask_keeps hu
  · exact hu

theorem State.undoStreams_keeps {z0 z1 : State} {a1} (h1 : Keeps z0 z1) : Keeps z0 (State.undoStreams z1 a1) := by
  unfold State.undoStreams
  refine Keeps.foldl ?_ (fun _ _ _ => ?_)
  · assumption
  · refine State.ringUndo_keeps ?_
    assumption

theorem State.dropTask_keeps {z0 z1 : State} {a1 a2 a3} (h1 : Keeps z0 z1) : Keeps z0 (State.dropTask z1 a1 a2 a3).1 := by
  unfold State.dropTask
  extract_lets +onlyGivenNames x0
  extract_lets +onlyGivenNames x1
  extract_lets +onlyGivenNames x2
  refine Keeps.cut (s := z0) (t := x2) ?_ (fun _ => ?_)
  · subst x2
    refine Keeps.foldl ?_ (fun _ _ _ => ?_)
    · assumption
    · refine State.setWmask_keeps ?_
      assumption
  clear_value x2
  extract_lets +onlyGivenNames x3
  extract_lets +onlyGivenNames x4
  refine Keeps.cut (s := z0) (t := x4) ?_ (fun _ => ?_)
  · subst x4
    refine Keeps.same ?_ rfl rfl rfl rfl rfl rfl rfl rfl rfl rfl rfl
    assumption
  clear_value x4
  extract_lets +onlyGivenNames x5
  refine Keeps.cut (s := z0) (t := x5) ?_ (fun _ => ?_)
  · subst x5
    refine State.releaseOut_keeps ?_
    refine State.releaseTask_keeps ?_
    refine State.leaveRings_keeps ?_
    refine State.undoStreams_keeps ?_
    assumption
  clear_value x5
  dsimp only
  refine State.raise_keeps ?_
  refine State.count_keeps ?_
  refine State.reportTask_keeps ?_
  assumption

theorem dropTasks_keeps {z0 z1 : State} {a1 a2} (h1 : Keeps z0 z1) : Keeps z0 (dropTasks a1 a2 z1) := by
  induction a1 generalizing a2 z1 with
  | zero => exact h1
  | succ n ih =>
    match a2 with
    | [] => exact h1
    | (c, st, code) :: r =>
      unfold dropTasks
      split
      · exact ih h1
      · exact ih (Keeps.foldl (State.dropTask_keeps h1) fun _ _ h => State.faultRec_keeps h)

theorem State.abortTask_keeps {z0 z1 : State} {a1 a2 a3 a4} (h1 : Keeps z0 z1) : Keeps z0 (State.abortTask z1 a1 a2 a3 a4) := by
  unfold State.abortTask
  refine dropTasks_keeps ?_
  split
  · exact State.pmCause_keeps h1
  · exact h1

theorem State.taskFault_keeps {z0 z1 : State} {a1 a2 a3 a4 a5 a6} (h1 : Keeps z0 z1) : Keeps z0 (State.taskFault z1 a1 a2 a3 a4 a5 a6) := by
  unfold State.taskFault
  refine State.abortTask_keeps ?_
  refine State.faultRec_keeps ?_
  assumption

theorem cancelCheck_keeps {z0 z1 : State} {a1} (h1 : Keeps z0 z1) : Keeps z0 (cancelCheck z1 a1).2 := by
  unfold cancelCheck
  split
  · dsimp only
    assumption
  · dsimp only
    assumption

theorem cancelAct_keeps {z0 z1 : State} {a1} (h1 : Keeps z0 z1) : Keeps z0 (cancelAct z1 a1) := by
  unfold cancelAct
  refine dropTasks_keeps ?_
  assumption

theorem pmReleaseAct_keeps {z0 z1 : State} (h1 : Keeps z0 z1) : Keeps z0 (pmReleaseAct z1) := by
  unfold pmReleaseAct
  refine State.wr_keeps ?_
  refine State.wr_keeps ?_
  refine Keeps.same ?_ rfl rfl rfl rfl rfl rfl rfl rfl rfl rfl rfl
  assumption

end Sys2Proof.Machine
end

