-- ==== Sys2Proof/Laws/Keeps/Tensor.lean ====
section
/-! SUPPORT. The operations of Machine/Tensor.lean are steps of the machine (`Keeps`). -/

set_option Elab.async false

namespace Sys2Proof.Machine

theorem State.traceFault_keeps {z0 z1 : State} {a1 a2} (h1 : Keeps z0 z1) : Keeps z0 (State.traceFault z1 a1 a2) := by
  unfold State.traceFault
  split
  · extract_lets +onlyGivenNames x0
    refine State.raise_keeps ?_
    refine State.count_keeps ?_
    refine State.wr_keeps ?_
    refine State.wr_keeps ?_
    refine State.wr_keeps ?_
    assumption
  · assumption

theorem State.cmdFault_keeps {z0 z1 : State} {a1 a2} (h1 : Keeps z0 z1) : Keeps z0 (State.cmdFault z1 a1 a2) := by
  unfold State.cmdFault
  extract_lets +onlyGivenNames x0
  refine Keeps.cut (s := z0) (t := x0) ?_ (fun _ => ?_)
  · subst x0
    refine State.traceFault_keeps ?_
    assumption
  clear_value x0
  split
  · refine State.setSlot_keeps ?_
    refine State.faultRec_keeps ?_
    assumption
  · refine State.taskFault_keeps ?_
    assumption

theorem State.nodeStore_keeps {z0 z1 : State} {a1 a2 a3} (h1 : Keeps z0 z1) : Keeps z0 (State.nodeStore z1 a1 a2 a3) := by
  unfold State.nodeStore
  split
  · refine State.store_keeps ?_
    assumption
  · refine State.store_keeps ?_
    refine State.markWrite_keeps ?_
    assumption

theorem State.putCodes_keeps {z0 z1 : State} {a1 a2 a3 a4} (h1 : Keeps z0 z1) : Keeps z0 (State.putCodes z1 a1 a2 a3 a4) := by
  unfold State.putCodes
  refine Keeps.foldl ?_ (fun _ _ _ => ?_)
  · assumption
  · refine State.nodeStore_keeps ?_
    assumption

theorem State.tally_keeps {z0 z1 : State} {a1 a2 a3} (h1 : Keeps z0 z1) : Keeps z0 (State.tally z1 a1 a2 a3) := by
  unfold State.tally
  refine State.count_keeps ?_
  refine State.count_keeps ?_
  assumption

theorem State.combineAt_keeps {z0 z1 : State} {a1 a2 a3 a4 a5} (h1 : Keeps z0 z1) : Keeps z0 (State.combineAt z1 a1 a2 a3 a4 a5) := by
  unfold State.combineAt
  extract_lets +onlyGivenNames x0
  refine State.nodeStore_keeps ?_
  assumption

theorem State.digest_keeps {z0 z1 : State} {a1 a2 a3 a4 a5} (h1 : Keeps z0 z1) : Keeps z0 (State.digest z1 a1 a2 a3 a4 a5) := by
  unfold State.digest
  split
  · assumption
  · extract_lets +onlyGivenNames x0
    refine State.setSlot_keeps ?_
    assumption

theorem State.contribute_keeps {z0 z1 : State} {a1 a2 a3 a4} (h1 : Keeps z0 z1) : Keeps z0 (State.contribute z1 a1 a2 a3 a4) := by
  unfold State.contribute
  extract_lets +onlyGivenNames x0
  extract_lets +onlyGivenNames x1
  extract_lets +onlyGivenNames x2
  extract_lets +onlyGivenNames x3
  split
  · refine Keeps.same ?_ rfl rfl rfl rfl rfl rfl rfl rfl rfl rfl rfl
    assumption
  · split
    · refine Keeps.foldl ?_ (fun _ _ _ => ?_)
      · assumption
      · extract_lets +onlyGivenNames x4
        extract_lets +onlyGivenNames x5
        refine Keeps.cut (s := z0) (t := x5.2) ?_ (fun _ => ?_)
        · subst x5
          refine State.draw_keeps ?_
          assumption
        clear_value x5
        refine State.nodeStore_keeps ?_
        assumption
    · refine Keeps.foldl ?_ (fun _ _ _ => ?_)
      · assumption
      · refine State.combineAt_keeps ?_
        assumption

theorem State.finishVals_keeps {z0 z1 : State} {a1 a2 a3} (h1 : Keeps z0 z1) : Keeps z0 (State.finishVals z1 a1 a2 a3) := by
  unfold State.finishVals
  extract_lets +onlyGivenNames x0
  split
  · extract_lets +onlyGivenNames x1
    refine State.setSlot_keeps ?_
    refine State.tally_keeps ?_
    assumption
  · extract_lets +onlyGivenNames x2
    extract_lets +onlyGivenNames x3
    extract_lets +onlyGivenNames x4
    refine Keeps.cut (s := z0) (t := x4) ?_ (fun _ => ?_)
    · subst x4
      refine State.tally_keeps ?_
      assumption
    clear_value x4
    split
    · refine State.setSlot_keeps ?_
      assumption
    · extract_lets +onlyGivenNames x5
      extract_lets +onlyGivenNames x6
      split
      · refine State.contribute_keeps ?_
        refine State.digest_keeps ?_
        assumption
      · refine State.putCodes_keeps ?_
        refine State.digest_keeps ?_
        assumption

theorem State.countClocks_keeps {z0 z1 : State} {a1 a2 a3} (h1 : Keeps z0 z1) : Keeps z0 (State.countClocks z1 a1 a2 a3) := by
  unfold State.countClocks
  extract_lets +onlyGivenNames x0
  refine Keeps.cut (s := z0) (t := x0.2) ?_ (fun _ => ?_)
  · subst x0
    refine State.draw_keeps ?_
    assumption
  clear_value x0
  refine State.wr2_keeps ?_
  assumption

theorem State.busyClocks_keeps {z0 z1 : State} {a1 a2} (h1 : Keeps z0 z1) : Keeps z0 (State.busyClocks z1 a1 a2) := by
  unfold State.busyClocks
  refine Keeps.foldl ?_ (fun _ _ _ => ?_)
  · assumption
  · split
    · refine State.countClocks_keeps ?_
      assumption
    · assumption

theorem State.runMxe_keeps {z0 z1 : State} {a1} (h1 : Keeps z0 z1) : Keeps z0 (State.runMxe z1 a1) := by
  unfold State.runMxe
  extract_lets +onlyGivenNames x0
  extract_lets +onlyGivenNames x1
  extract_lets +onlyGivenNames x2
  extract_lets +onlyGivenNames x3
  extract_lets +onlyGivenNames x4
  extract_lets +onlyGivenNames x5
  extract_lets +onlyGivenNames x6
  extract_lets +onlyGivenNames x7
  extract_lets +onlyGivenNames x8
  extract_lets +onlyGivenNames x9
  extract_lets +onlyGivenNames x10
  extract_lets +onlyGivenNames x11
  refine Keeps.cut (s := z0) (t := x11) ?_ (fun _ => ?_)
  · subst x11
    refine State.countClocks_keeps ?_
    assumption
  clear_value x11
  extract_lets +onlyGivenNames x12
  refine Keeps.cut (s := z0) (t := x12) ?_ (fun _ => ?_)
  · subst x12
    refine State.wr2_keeps ?_
    assumption
  clear_value x12
  refine State.finishVals_keeps ?_
  assumption

theorem State.runEltwise_keeps {z0 z1 : State} {a1} (h1 : Keeps z0 z1) : Keeps z0 (State.runEltwise z1 a1) := by
  unfold State.runEltwise
  extract_lets +onlyGivenNames x0
  extract_lets +onlyGivenNames x1
  refine State.finishVals_keeps ?_
  assumption

theorem State.runReduce_keeps {z0 z1 : State} {a1} (h1 : Keeps z0 z1) : Keeps z0 (State.runReduce z1 a1) := by
  unfold State.runReduce
  extract_lets +onlyGivenNames x0
  refine State.finishVals_keeps ?_
  assumption

theorem State.runLinewise_keeps {z0 z1 : State} {a1} (h1 : Keeps z0 z1) : Keeps z0 (State.runLinewise z1 a1) := by
  unfold State.runLinewise
  extract_lets +onlyGivenNames x0
  extract_lets +onlyGivenNames x1
  extract_lets +onlyGivenNames x2
  refine State.finishVals_keeps ?_
  assumption

theorem State.finishCodes_keeps {z0 z1 : State} {a1 a2 a3 a4} (h1 : Keeps z0 z1) : Keeps z0 (State.finishCodes z1 a1 a2 a3 a4) := by
  unfold State.finishCodes
  split
  · refine State.setSlot_keeps ?_
    assumption
  · refine State.putCodes_keeps ?_
    refine State.digest_keeps ?_
    assumption

theorem State.runLut_keeps {z0 z1 : State} {a1} (h1 : Keeps z0 z1) : Keeps z0 (State.runLut z1 a1) := by
  unfold State.runLut
  extract_lets +onlyGivenNames x0
  extract_lets +onlyGivenNames x1
  extract_lets +onlyGivenNames x2
  split
  · refine State.finishVals_keeps ?_
    assumption
  · extract_lets +onlyGivenNames x3
    extract_lets +onlyGivenNames x4
    refine State.finishCodes_keeps ?_
    assumption

theorem State.runBlockConvert_keeps {z0 z1 : State} {a1 a2 a3} (h1 : Keeps z0 z1) : Keeps z0 (State.runBlockConvert z1 a1 a2 a3) := by
  unfold State.runBlockConvert
  extract_lets +onlyGivenNames x0
  extract_lets +onlyGivenNames x1
  extract_lets +onlyGivenNames x2
  extract_lets +onlyGivenNames x3
  extract_lets +onlyGivenNames x4
  extract_lets +onlyGivenNames x5
  extract_lets +onlyGivenNames x6
  extract_lets +onlyGivenNames x7
  refine State.putCodes_keeps ?_
  refine State.finishCodes_keeps ?_
  refine State.tally_keeps ?_
  assumption

theorem State.runConvert_keeps {z0 z1 : State} {a1} (h1 : Keeps z0 z1) : Keeps z0 (State.runConvert z1 a1) := by
  unfold State.runConvert
  extract_lets +onlyGivenNames x0
  extract_lets +onlyGivenNames x1
  extract_lets +onlyGivenNames x2
  extract_lets +onlyGivenNames x3
  split
  · refine State.runBlockConvert_keeps ?_
    assumption
  · refine State.finishVals_keeps ?_
    assumption

theorem State.runPermute_keeps {z0 z1 : State} {a1} (h1 : Keeps z0 z1) : Keeps z0 (State.runPermute z1 a1) := by
  unfold State.runPermute
  extract_lets +onlyGivenNames x0
  extract_lets +onlyGivenNames x1
  extract_lets +onlyGivenNames x2
  extract_lets +onlyGivenNames x3
  extract_lets +onlyGivenNames x4
  refine State.finishCodes_keeps ?_
  assumption

theorem State.reach_keeps {z0 z1 : State} {a1 a2 a3} (h1 : Keeps z0 z1) : Keeps z0 (State.reach z1 a1 a2 a3).2.2 := by
  unfold State.reach
  split
  · split
    · dsimp only
      assumption
    · dsimp only
      assumption
  · extract_lets +onlyGivenNames x0
    refine Keeps.cut (s := z0) (t := x0.2.2) ?_ (fun _ => ?_)
    · subst x0
      refine State.xlateAll_keeps ?_
      assumption
    clear_value x0
    dsimp only
    assumption

theorem State.noteUncorr_keeps {z0 z1 : State} {a1} (h1 : Keeps z0 z1) : Keeps z0 (State.noteUncorr z1 a1) := by
  unfold State.noteUncorr
  extract_lets +onlyGivenNames x0
  refine State.count_keeps ?_
  refine State.wr2_keeps ?_
  assumption

theorem State.hostRequest_keeps {z0 z1 : State} {a1 a2 a3 a4 a5 a6 a7 a8} (h1 : Keeps z0 z1) : Keeps z0 (State.hostRequest z1 a1 a2 a3 a4 a5 a6 a7 a8) := by
  unfold State.hostRequest
  extract_lets +onlyGivenNames x0
  extract_lets +onlyGivenNames x1
  extract_lets +onlyGivenNames x2
  extract_lets +onlyGivenNames x3
  extract_lets +onlyGivenNames x4
  refine Keeps.cut (s := z0) (t := x4) ?_ (fun _ => ?_)
  · subst x4
    refine State.setPort_keeps ?_
    assumption
  clear_value x4
  refine State.queueMsg_keeps ?_
  assumption

theorem State.scatterBytes_keeps {z0 z1 : State} {a1 a2 a3 a4} (h1 : Keeps z0 z1) : Keeps z0 (State.scatterBytes z1 a1 a2 a3 a4) := by
  induction a3 generalizing a4 z1 with
  | nil => exact h1
  | cons x r ih =>
    obtain ⟨a, k⟩ := x
    unfold State.scatterBytes
    refine ih ?_
    split
    · exact Keeps.foldl h1 fun _ _ h => State.hostRequest_keeps h
    · exact State.nodeStore_keeps h1

theorem State.hostFetch_keeps {z0 z1 : State} {a1 a2 a3 a4} (h1 : Keeps z0 z1) : Keeps z0 (State.hostFetch z1 a1 a2 a3 a4) := by
  induction a3 generalizing a4 z1 with
  | nil => exact h1
  | cons x r ih =>
    obtain ⟨a, k⟩ := x
    unfold State.hostFetch
    refine ih ?_
    split
    · exact Keeps.foldl h1 fun _ _ h => State.hostRequest_keeps h
    · exact h1

theorem State.runCopy_keeps {z0 z1 : State} {a1} (h1 : Keeps z0 z1) : Keeps z0 (State.runCopy z1 a1).1 := by
  unfold State.runCopy
  extract_lets +onlyGivenNames x0
  extract_lets +onlyGivenNames x1
  extract_lets +onlyGivenNames x2
  split
  · dsimp only
    assumption
  · extract_lets +onlyGivenNames x3
    extract_lets +onlyGivenNames x4
    refine Keeps.cut (s := z0) (t := x4.2.2) ?_ (fun _ => ?_)
    · subst x4
      split
      · refine State.reach_keeps ?_
        assumption
      · dsimp only
        assumption
    clear_value x4
    split
    · dsimp only
      assumption
    · dsimp only
      assumption
    · dsimp only
      refine State.noteUncorr_keeps ?_
      assumption
    · extract_lets +onlyGivenNames x5
      refine Keeps.cut (s := z0) (t := x5) ?_ (fun _ => ?_)
      · subst x5
        assumption
      clear_value x5
      extract_lets +onlyGivenNames x6
      extract_lets +onlyGivenNames x7
      extract_lets +onlyGivenNames x8
      split
      · dsimp only
        refine State.setSlot_keeps ?_
        assumption
      · split
        · extract_lets +onlyGivenNames x9
          refine Keeps.cut (s := z0) (t := x9) ?_ (fun _ => ?_)
          · subst x9
            refine State.putCodes_keeps ?_
            refine State.digest_keeps ?_
            assumption
          clear_value x9
          dsimp only
          refine State.hostFetch_keeps ?_
          assumption
        · extract_lets +onlyGivenNames x10
          refine Keeps.cut (s := z0) (t := x10.2.2) ?_ (fun _ => ?_)
          · subst x10
            refine State.reach_keeps ?_
            assumption
          clear_value x10
          split
          · dsimp only
            assumption
          · dsimp only
            assumption
          · extract_lets +onlyGivenNames x11
            dsimp only
            refine State.scatterBytes_keeps ?_
            refine State.digest_keeps ?_
            assumption

theorem State.gatherN_keeps {z0 z1 : State} {a1 a2 a3 a4 a5 a6 a7} (h1 : Keeps z0 z1) : Keeps z0 (State.gatherN z1 a1 a2 a3 a4 a5 a6 a7).1 := by
  induction a5 generalizing a6 a7 with
  | zero => exact h1
  | succ n ih =>
    unfold State.gatherN
    dsimp only
    split
    · exact h1
    · split
      · exact State.noteUncorr_keeps h1
      · exact ih

theorem State.runGather_keeps {z0 z1 : State} {a1} (h1 : Keeps z0 z1) : Keeps z0 (State.runGather z1 a1).1 := by
  unfold State.runGather
  extract_lets +onlyGivenNames x0
  extract_lets +onlyGivenNames x1
  extract_lets +onlyGivenNames x2
  extract_lets +onlyGivenNames x3
  extract_lets +onlyGivenNames x4
  refine Keeps.cut (s := z0) (t := x4.1) ?_ (fun _ => ?_)
  · subst x4
    refine State.gatherN_keeps ?_
    assumption
  clear_value x4
  extract_lets +onlyGivenNames x5
  split
  · dsimp only
    split
    · refine State.putCodes_keeps ?_
      assumption
    · assumption
  · dsimp only
    refine State.finishCodes_keeps ?_
    assumption

theorem State.scatterBlock_keeps {z0 z1 : State} {a1 a2 a3 a4 a5} (h1 : Keeps z0 z1) : Keeps z0 (State.scatterBlock z1 a1 a2 a3 a4 a5) := by
  unfold State.scatterBlock
  extract_lets +onlyGivenNames x0
  extract_lets +onlyGivenNames x1
  extract_lets +onlyGivenNames x2
  split
  · refine State.nodeStore_keeps ?_
    assumption
  · split
    · refine State.contribute_keeps ?_
      assumption
    · refine Keeps.foldl ?_ (fun _ _ _ => ?_)
      · assumption
      · extract_lets +onlyGivenNames x3
        extract_lets +onlyGivenNames x4
        extract_lets +onlyGivenNames x5
        extract_lets +onlyGivenNames x6
        refine State.nodeStore_keeps ?_
        refine State.tally_keeps ?_
        assumption

theorem State.scatterN_keeps {z0 z1 : State} {a1 a2 a3 a4 a5 a6 a7 a8 a9} (h1 : Keeps z0 z1) : Keeps z0 (State.scatterN z1 a1 a2 a3 a4 a5 a6 a7 a8 a9).1 := by
  induction a8 generalizing a9 z1 with
  | zero => exact h1
  | succ n ih =>
    unfold State.scatterN
    dsimp only
    split
    · exact h1
    · generalize (_ || _ : Bool) = b
      split
      · exact h1
      · exact ih (State.scatterBlock_keeps h1)

theorem State.runScatter_keeps {z0 z1 : State} {a1} (h1 : Keeps z0 z1) : Keeps z0 (State.runScatter z1 a1).1 := by
  unfold State.runScatter
  extract_lets +onlyGivenNames x0
  extract_lets +onlyGivenNames x1
  extract_lets +onlyGivenNames x2
  extract_lets +onlyGivenNames x3
  extract_lets +onlyGivenNames x4
  extract_lets +onlyGivenNames x5
  refine State.scatterN_keeps ?_
  assumption

theorem State.bodFault_keeps {z0 z1 : State} {a1} (h1 : Keeps z0 z1) : Keeps z0 (State.bodFault z1 a1) := by
  unfold State.bodFault
  split
  · refine State.raise_keeps ?_
    refine State.count_keeps ?_
    assumption
  · assumption

end Sys2Proof.Machine
end

