-- ==== Sys2Proof/Laws/Keeps/Streams.lean ====
section
/-! SUPPORT. The operations of Machine/Streams.lean are steps of the machine (`Keeps`). -/

set_option Elab.async false

namespace Sys2Proof.Machine

theorem State.streamAbort_keeps {z0 z1 : State} {a1 a2 a3 a4} (h1 : Keeps z0 z1) : Keeps z0 (State.streamAbort z1 a1 a2 a3 a4) := by
  unfold State.streamAbort
  extract_lets +onlyGivenNames x0
  extract_lets +onlyGivenNames x1
  extract_lets +onlyGivenNames x2
  refine Keeps.cut (s := z0) (t := x2) ?_ (fun _ => ?_)
  · subst x2
    split
    · refine Keeps.same ?_ rfl rfl rfl rfl rfl rfl rfl rfl rfl rfl rfl
      assumption
    · assumption
  clear_value x2
  extract_lets +onlyGivenNames x3
  refine Keeps.cut (s := z0) (t := x3) ?_ (fun _ => ?_)
  · subst x3
    refine State.raise_keeps ?_
    refine State.faultRec_keeps ?_
    assumption
  clear_value x3
  split
  · refine State.abortTask_keeps ?_
    assumption
  · assumption

theorem State.poisonNode_keeps {z0 z1 : State} {a1 a2} (h1 : Keeps z0 z1) : Keeps z0 (State.poisonNode z1 a1 a2) := by
  unfold State.poisonNode
  extract_lets +onlyGivenNames x0
  refine Keeps.update ?_ rfl rfl (fun h => by simpa [State.Sized] using h)
  assumption

theorem State.streamPoison_keeps {z0 z1 : State} {a1 a2 a3 a4 a5} (h1 : Keeps z0 z1) : Keeps z0 (State.streamPoison z1 a1 a2 a3 a4 a5) := by
  unfold State.streamPoison
  extract_lets +onlyGivenNames x0
  refine Keeps.cut (s := z0) (t := x0) ?_ (fun _ => ?_)
  · subst x0
    refine State.faultRec_keeps ?_
    assumption
  clear_value x0
  split
  · refine State.poisonNode_keeps ?_
    assumption
  · assumption

theorem State.streamXlateFault_keeps {z0 z1 : State} {a1 a2 a3} (h1 : Keeps z0 z1) : Keeps z0 (State.streamXlateFault z1 a1 a2 a3) := by
  unfold State.streamXlateFault
  extract_lets +onlyGivenNames x0
  split
  · extract_lets +onlyGivenNames x1
    refine Keeps.cut (s := z0) (t := x1) ?_ (fun _ => ?_)
    · subst x1
      refine State.faultRec_keeps ?_
      assumption
    clear_value x1
    refine State.setChan_keeps ?_
    refine State.raise_keeps ?_
    refine State.raise_keeps ?_
    assumption
  · refine State.streamAbort_keeps ?_
    refine State.raise_keeps ?_
    assumption

theorem State.armList_keeps {z0 z1 : State} {a1 a2 a3} (h1 : Keeps z0 z1) : Keeps z0 (State.armList z1 a1 a2 a3) := by
  unfold State.armList
  extract_lets +onlyGivenNames x0
  extract_lets +onlyGivenNames x1
  refine Keeps.cut (s := z0) (t := x1) ?_ (fun _ => ?_)
  · subst x1
    split
    · assumption
    · refine State.ringAttach_keeps ?_
      assumption
  clear_value x1
  refine State.setChan_keeps ?_
  assumption

theorem armCheck_keeps {z0 z1 : State} {a1 a2} (h1 : Keeps z0 z1) : Keeps z0 (armCheck z1 a1 a2).2 := by
  unfold armCheck
  extract_lets +onlyGivenNames x0
  split
  · dsimp only
    refine State.raise_keeps ?_
    refine State.count_keeps ?_
    refine State.faultRec_keeps ?_
    assumption
  · split
    · dsimp only
      assumption
    · dsimp only
      assumption

theorem armAct_keeps {z0 z1 : State} {a1 a2 a3} (h1 : Keeps z0 z1) : Keeps z0 (armAct z1 a1 a2 a3) := by
  unfold armAct
  refine State.armList_keeps ?_
  assumption

theorem State.listDone_keeps {z0 z1 : State} {a1} (h1 : Keeps z0 z1) : Keeps z0 (State.listDone z1 a1) := by
  unfold State.listDone
  split
  · split
    · refine State.setChan_keeps ?_
      refine State.raise_keeps ?_
      assumption
    · refine State.setChan_keeps ?_
      assumption
  · refine State.setChan_keeps ?_
    assumption

theorem State.landBlock_keeps {z0 z1 : State} {a1 a2} (h1 : Keeps z0 z1) : Keeps z0 (State.landBlock z1 a1 a2) := by
  unfold State.landBlock
  extract_lets +onlyGivenNames x0
  extract_lets +onlyGivenNames x1
  extract_lets +onlyGivenNames x2
  extract_lets +onlyGivenNames x3
  refine Keeps.cut (s := z0) (t := x3) ?_ (fun _ => ?_)
  · subst x3
    split
    · refine State.store_keeps ?_
      refine State.markWrite_keeps ?_
      assumption
    · refine State.store_keeps ?_
      assumption
  clear_value x3
  extract_lets +onlyGivenNames x4
  extract_lets +onlyGivenNames x5
  refine Keeps.cut (s := z0) (t := x5) ?_ (fun _ => ?_)
  · subst x5
    refine State.ringCommit_keeps ?_
    refine State.ringFill_keeps ?_
    assumption
  clear_value x5
  refine State.listDone_keeps ?_
  assumption

theorem State.sentBlock_keeps {z0 z1 : State} {a1} (h1 : Keeps z0 z1) : Keeps z0 (State.sentBlock z1 a1) := by
  unfold State.sentBlock
  refine State.listDone_keeps ?_
  refine State.ringDrain_keeps ?_
  assumption

theorem State.layPieces_keeps {z0 z1 : State} {a1 a2 a3} (h1 : Keeps z0 z1) : Keeps z0 (State.layPieces z1 a1 a2 a3) := by
  induction a2 generalizing a3 z1 with
  | nil => exact h1
  | cons x r ih =>
    obtain ⟨a, k⟩ := x
    unfold State.layPieces
    refine ih ?_
    split
    · exact h1
    · split
      · exact State.store_keeps (State.markWrite_keeps h1)
      · exact State.store_keeps h1

theorem State.hostParts_keeps {z0 z1 : State} {a1 a2 a3 a4 a5 a6} (h1 : Keeps z0 z1) : Keeps z0 (State.hostParts z1 a1 a2 a3 a4 a5 a6) := by
  induction a6 generalizing a5 z1 with
  | nil => exact h1
  | cons x r ih =>
    obtain ⟨a, k⟩ := x
    unfold State.hostParts
    refine ih ?_
    split
    · exact Keeps.foldl h1 fun _ _ h => State.hostRequest_keeps h
    · exact h1

theorem State.moveBlock_keeps {z0 z1 : State} {a1 a2 a3} (h1 : Keeps z0 z1) : Keeps z0 (State.moveBlock z1 a1 a2 a3) := by
  unfold State.moveBlock
  extract_lets +onlyGivenNames x0
  extract_lets +onlyGivenNames x1
  extract_lets +onlyGivenNames x2
  extract_lets +onlyGivenNames x3
  split
  · refine State.streamAbort_keeps ?_
    assumption
  · split
    · refine State.streamAbort_keeps ?_
      refine State.noteUncorr_keeps ?_
      assumption
    · extract_lets +onlyGivenNames x4
      split
      · refine State.setChan_keeps ?_
        refine State.hostParts_keeps ?_
        assumption
      · split
        · refine State.landBlock_keeps ?_
          assumption
        · refine State.sentBlock_keeps ?_
          refine State.layPieces_keeps ?_
          assumption

theorem State.openBlock_keeps {z0 z1 : State} {a1 a2} (h1 : Keeps z0 z1) : Keeps z0 (State.openBlock z1 a1 a2) := by
  unfold State.openBlock
  extract_lets +onlyGivenNames x0
  extract_lets +onlyGivenNames x1
  extract_lets +onlyGivenNames x2
  split
  · assumption
  · split
    · refine State.streamAbort_keeps ?_
      assumption
    · split
      · assumption
      · split
        · refine State.streamAbort_keeps ?_
          assumption
        · extract_lets +onlyGivenNames x3
          refine Keeps.cut (s := z0) (t := x3.2.2) ?_ (fun _ => ?_)
          · subst x3
            refine State.xlateAll_keeps ?_
            assumption
          clear_value x3
          split
          · refine State.streamXlateFault_keeps ?_
            assumption
          · refine State.moveBlock_keeps ?_
            assumption

theorem State.lockedBlock_keeps {z0 z1 : State} {a1 a2} (h1 : Keeps z0 z1) : Keeps z0 (State.lockedBlock z1 a1 a2) := by
  unfold State.lockedBlock
  extract_lets +onlyGivenNames x0
  extract_lets +onlyGivenNames x1
  extract_lets +onlyGivenNames x2
  split
  · split
    · refine State.listDone_keeps ?_
      refine State.streamPoison_keeps ?_
      assumption
    · split
      · refine State.landBlock_keeps ?_
        refine State.streamPoison_keeps ?_
        assumption
      · split
        · refine State.landBlock_keeps ?_
          refine State.streamPoison_keeps ?_
          refine State.noteUncorr_keeps ?_
          assumption
        · refine State.landBlock_keeps ?_
          assumption
  · split
    · refine State.sentBlock_keeps ?_
      refine State.layPieces_keeps ?_
      refine State.streamPoison_keeps ?_
      assumption
    · split
      · refine State.sentBlock_keeps ?_
        refine State.streamPoison_keeps ?_
        assumption
      · extract_lets +onlyGivenNames x3
        refine State.sentBlock_keeps ?_
        refine State.layPieces_keeps ?_
        assumption

theorem execStreamBlockDone_keeps {z0 z1 t0 : State} {a1 a2} (h1 : Keeps z0 z1) (ht : execStreamBlockDone a1 a2 z1 = .next t0) :
    Keeps z0 t0 := by
  unfold execStreamBlockDone at ht
  extract_lets +onlyGivenNames x0 at ht
  cases ht
  split
  · assumption
  · split
    · assumption
    · split
      · refine State.lockedBlock_keeps ?_
        assumption
      · split
        · refine State.streamXlateFault_keeps ?_
          refine State.setChan_keeps ?_
          assumption
        · refine State.openBlock_keeps ?_
          assumption

theorem execStreamLate_keeps {z0 z1 t0 : State} {a1 a2} (h1 : Keeps z0 z1) (ht : execStreamLate a1 a2 z1 = .next t0) :
    Keeps z0 t0 := by
  unfold execStreamLate at ht
  extract_lets +onlyGivenNames x0 at ht
  extract_lets +onlyGivenNames x1 at ht
  cases ht
  split
  · extract_lets +onlyGivenNames x2
    refine Keeps.cut (s := z0) (t := x2) ?_ (fun _ => ?_)
    · subst x2
      refine State.streamPoison_keeps ?_
      assumption
    clear_value x2
    split
    · refine State.landBlock_keeps ?_
      assumption
    · refine State.sentBlock_keeps ?_
      assumption
  · assumption

theorem State.runAhead_keeps {z0 z1 : State} {a1 a2} (h1 : Keeps z0 z1) : Keeps z0 (State.runAhead z1 a1 a2) := by
  unfold State.runAhead
  extract_lets +onlyGivenNames x0
  extract_lets +onlyGivenNames x1
  extract_lets +onlyGivenNames x2
  split
  · assumption
  · extract_lets +onlyGivenNames x3
    refine Keeps.cut (s := z0) (t := x3.2.2) ?_ (fun _ => ?_)
    · subst x3
      refine State.xlateAll_keeps ?_
      assumption
    clear_value x3
    split
    · refine State.setChan_keeps ?_
      assumption
    · split
      · assumption
      · extract_lets +onlyGivenNames x4
        extract_lets +onlyGivenNames x5
        refine Keeps.cut (s := z0) (t := x5) ?_ (fun _ => ?_)
        · subst x5
          refine State.store_keeps ?_
          refine State.markWrite_keeps ?_
          assumption
        clear_value x5
        refine State.setChan_keeps ?_
        refine State.ringFill_keeps ?_
        assumption

theorem execMmuWalkDone_keeps {z0 z1 t0 : State} {a1 a2} (h1 : Keeps z0 z1) (ht : execMmuWalkDone a1 a2 z1 = .next t0) :
    Keeps z0 t0 := by
  unfold execMmuWalkDone at ht
  extract_lets +onlyGivenNames x0 at ht
  cases ht
  split
  · split
    · assumption
    · split
      · extract_lets +onlyGivenNames x1
        split
        · refine State.streamAbort_keeps ?_
          assumption
        · extract_lets +onlyGivenNames x2
          refine Keeps.cut (s := z0) (t := x2.2.2) ?_ (fun _ => ?_)
          · subst x2
            refine State.xlateAll_keeps ?_
            assumption
          clear_value x2
          split
          · refine State.streamXlateFault_keeps ?_
            assumption
          · refine State.setChan_keeps ?_
            assumption
      · split
        · split
          · refine State.runAhead_keeps ?_
            assumption
          · assumption
        · assumption
  · assumption

theorem resumeAct_keeps {z0 z1 : State} {a1} (h1 : Keeps z0 z1) : Keeps z0 (resumeAct z1 a1) := by
  unfold resumeAct
  split
  · assumption
  · extract_lets +onlyGivenNames x0
    split
    · refine State.setChan_keeps ?_
      assumption
    · extract_lets +onlyGivenNames x1
      extract_lets +onlyGivenNames x2
      refine Keeps.cut (s := z0) (t := x2.2.2) ?_ (fun _ => ?_)
      · subst x2
        refine State.xlateAll_keeps ?_
        assumption
      clear_value x2
      split
      · refine State.streamXlateFault_keeps ?_
        assumption
      · refine State.setChan_keeps ?_
        assumption

theorem execPfWaitExpire_keeps {z0 z1 t0 : State} {a1 a2} (h1 : Keeps z0 z1) (ht : execPfWaitExpire a1 a2 z1 = .next t0) :
    Keeps z0 t0 := by
  unfold execPfWaitExpire at ht
  extract_lets +onlyGivenNames x0 at ht
  cases ht
  split
  · assumption
  · split
    · assumption
    · extract_lets +onlyGivenNames x1
      refine State.streamAbort_keeps ?_
      refine State.raise_keeps ?_
      assumption

theorem State.mcgCount_keeps {z0 z1 : State} {a1 a2 a3} (h1 : Keeps z0 z1) : Keeps z0 (State.mcgCount z1 a1 a2 a3) := by
  unfold State.mcgCount
  refine State.count_keeps ?_
  assumption

theorem State.uncorrReader_keeps {z0 z1 : State} {a1 a2} (h1 : Keeps z0 z1) : Keeps z0 (State.uncorrReader z1 a1 a2) := by
  unfold State.uncorrReader
  split
  · refine State.poisonNode_keeps ?_
    assumption
  · refine State.abortTask_keeps ?_
    assumption
  · extract_lets +onlyGivenNames x0
    split
    · assumption
    · split
      · refine State.streamAbort_keeps ?_
        assumption
      · split
        · refine State.poisonNode_keeps ?_
          assumption
        · assumption
  · assumption
  · assumption

theorem execGddrAccessDone_keeps {z0 z1 t0 : State} {a1 a2 a3 a4 a5} (h1 : Keeps z0 z1) (ht : execGddrAccessDone a1 a2 a3 a4 a5 z1 = .next t0) :
    Keeps z0 t0 := by
  unfold execGddrAccessDone at ht
  have bad {t : State} {l : List Nat} (h : Keeps z0 t) :
      Keeps z0 { t with fabric := { t.fabric with badLines := l } } := Keeps.same h rfl rfl rfl rfl rfl rfl rfl rfl rfl rfl rfl
  extract_lets +onlyGivenNames addr line ch d ecc locked s1 badf at ht
  have hs : Keeps z0 s1 := by
    subst s1
    split
    · exact h1
    · exact State.mcgCount_keeps h1
    · exact State.fault_keeps (State.mcgCount_keeps (State.mcgCount_keeps h1))
  clear_value s1
  obtain rfl := Host.Outcome.next.inj ht
  clear ht
  split
  · exact h1
  · split
    · split
      · split
        · exact bad hs
        · exact State.store_keeps (State.drawBytes_keeps hs)
      · exact State.uncorrReader_keeps hs
    · split
      · exact hs
      · split
        · split
          · exact State.mcgCount_keeps hs
          · exact Keeps.same (State.mcgCount_keeps hs) rfl rfl rfl rfl rfl rfl rfl rfl rfl rfl rfl
        · split
          · exact State.fault_keeps (State.noteUncorr_keeps (bad hs))
          · exact State.uncorrReader_keeps (State.fault_keeps (State.noteUncorr_keeps (bad hs)))

theorem State.patrolChannel_keeps {z0 z1 : State} {a1} (h1 : Keeps z0 z1) : Keeps z0 (State.patrolChannel z1 a1) := by
  unfold State.patrolChannel
  extract_lets +onlyGivenNames x0
  extract_lets +onlyGivenNames x1
  split
  · assumption
  · extract_lets +onlyGivenNames x2
    extract_lets +onlyGivenNames x3
    refine Keeps.cut (s := z0) (t := x3) ?_ (fun _ => ?_)
    · subst x3
      refine Keeps.foldl ?_ (fun _ _ _ => ?_)
      · assumption
      · refine State.fault_keeps ?_
        refine State.noteUncorr_keeps ?_
        assumption
    clear_value x3
    extract_lets +onlyGivenNames x4
    extract_lets +onlyGivenNames x5
    refine Keeps.cut (s := z0) (t := x5) ?_ (fun _ => ?_)
    · subst x5
      refine Keeps.same ?_ rfl rfl rfl rfl rfl rfl rfl rfl rfl rfl rfl
      assumption
    clear_value x5
    split
    · refine State.count_keeps ?_
      assumption
    · assumption

theorem State.patrolBeat_keeps {z0 z1 : State} (h1 : Keeps z0 z1) : Keeps z0 (State.patrolBeat z1) := by
  unfold State.patrolBeat
  refine Keeps.foldl ?_ (fun _ _ _ => ?_)
  · assumption
  · refine State.patrolChannel_keeps ?_
    assumption

theorem execRetrainCycleEnd_keeps {z0 z1 t0 : State} {a1 a2} (h1 : Keeps z0 z1) (ht : execRetrainCycleEnd a1 a2 z1 = .next t0) :
    Keeps z0 t0 := by
  unfold execRetrainCycleEnd at ht
  extract_lets +onlyGivenNames x0 at ht
  cases ht
  split
  · assumption
  · extract_lets +onlyGivenNames x1
    refine Keeps.cut (s := z0) (t := x1) ?_ (fun _ => ?_)
    · subst x1
      refine State.wr_keeps ?_
      assumption
    clear_value x1
    split
    · refine State.fault_keeps ?_
      assumption
    · assumption

theorem State.bodStore_keeps {z0 z1 : State} {a1 a2} (h1 : Keeps z0 z1) : Keeps z0 (State.bodStore z1 a1 a2) := by
  unfold State.bodStore
  refine Keeps.same ?_ rfl rfl rfl rfl rfl rfl rfl rfl rfl rfl rfl
  assumption

theorem entHiCheck_keeps {z0 z1 : State} {a1} (h1 : Keeps z0 z1) : Keeps z0 (entHiCheck z1 a1).2 := by
  unfold entHiCheck
  split
  · dsimp only
    assumption
  · split
    · dsimp only
      assumption
    · dsimp only
      assumption

theorem entHiAct_keeps {z0 z1 : State} {a1} (h1 : Keeps z0 z1) : Keeps z0 (entHiAct z1 a1) := by
  unfold entHiAct
  refine State.bodStore_keeps ?_
  assumption

theorem State.entLoRead_keeps {z0 z1 : State} (h1 : Keeps z0 z1) : Keeps z0 (State.entLoRead z1).2 := by
  unfold State.entLoRead
  extract_lets +onlyGivenNames x0
  dsimp only
  refine State.wr_keeps ?_
  refine State.wr_keeps ?_
  assumption

theorem bulkCheck_keeps {z0 z1 : State} (h1 : Keeps z0 z1) : Keeps z0 (bulkCheck z1).2 := by
  unfold bulkCheck
  extract_lets +onlyGivenNames x0
  split
  · dsimp only
    assumption
  · split
    · dsimp only
      assumption
    · dsimp only
      assumption

theorem bulkAct_keeps {z0 z1 : State} (h1 : Keeps z0 z1) : Keeps z0 (bulkAct z1) := by
  unfold bulkAct
  extract_lets +onlyGivenNames x0
  refine State.wr_keeps ?_
  refine Keeps.same ?_ rfl rfl rfl rfl rfl rfl rfl rfl rfl rfl rfl
  assumption

theorem execBulkDone_keeps {z0 z1 t0 : State} (h1 : Keeps z0 z1) (ht : execBulkDone z1 = .next t0) :
    Keeps z0 t0 := by
  unfold execBulkDone at ht
  cases ht
  split
  · assumption
  · extract_lets +onlyGivenNames x0
    extract_lets +onlyGivenNames x1
    refine Keeps.cut (s := z0) (t := x1) ?_ (fun _ => ?_)
    · subst x1
      refine State.wr_keeps ?_
      refine Keeps.same ?_ rfl rfl rfl rfl rfl rfl rfl rfl rfl rfl rfl
      assumption
    clear_value x1
    extract_lets +onlyGivenNames x2
    extract_lets +onlyGivenNames x3
    extract_lets +onlyGivenNames x4
    refine Keeps.cut (s := z0) (t := x4) ?_ (fun _ => ?_)
    · subst x4
      refine State.raise_keeps ?_
      refine State.wr_keeps ?_
      assumption
    clear_value x4
    split
    · refine Keeps.foldl ?_ (fun _ _ _ => ?_)
      · assumption
      · refine State.bodStore_keeps ?_
        assumption
    · assumption

theorem State.bodDropCore_keeps {z0 z1 : State} {a1} (h1 : Keeps z0 z1) : Keeps z0 (State.bodDropCore z1 a1) := by
  unfold State.bodDropCore
  extract_lets +onlyGivenNames x0
  refine Keeps.same ?_ rfl rfl rfl rfl rfl rfl rfl rfl rfl rfl rfl
  assumption

theorem State.bodClear_keeps {z0 z1 : State} (h1 : Keeps z0 z1) : Keeps z0 (State.bodClear z1) := by
  unfold State.bodClear
  extract_lets +onlyGivenNames x0
  extract_lets +onlyGivenNames x1
  refine Keeps.cut (s := z0) (t := x1) ?_ (fun _ => ?_)
  · subst x1
    refine Keeps.same ?_ rfl rfl rfl rfl rfl rfl rfl rfl rfl rfl rfl
    assumption
  clear_value x1
  refine Keeps.foldl ?_ (fun _ _ _ => ?_)
  · assumption
  · refine State.wr_keeps ?_
    assumption

end Sys2Proof.Machine
end

