-- ==== Sys2Proof/Laws/Keeps/Causes.lean ====
section
/-! SUPPORT. The operations of Machine/Causes.lean are steps of the machine (`Keeps`). -/

set_option Elab.async false

namespace Sys2Proof.Machine

theorem State.startMode_keeps {z0 z1 : State} {a1 a2} (h1 : Keeps z0 z1) : Keeps z0 (State.startMode z1 a1 a2) := by
  unfold State.startMode
  extract_lets +onlyGivenNames x0
  refine Keeps.same ?_ rfl rfl rfl rfl rfl rfl rfl rfl rfl rfl rfl
  assumption

theorem State.startAnew_keeps {z0 z1 : State} {a1 a2} (h1 : Keeps z0 z1) : Keeps z0 (State.startAnew z1 a1 a2) := by
  unfold State.startAnew
  extract_lets +onlyGivenNames x0
  refine State.startMode_keeps ?_
  refine Keeps.same ?_ rfl rfl rfl rfl rfl rfl rfl rfl rfl rfl rfl
  assumption

theorem State.wantTargeted_keeps {z0 z1 : State} {a1} (h1 : Keeps z0 z1) : Keeps z0 (State.wantTargeted z1 a1) := by
  unfold State.wantTargeted
  refine Keeps.same ?_ rfl rfl rfl rfl rfl rfl rfl rfl rfl rfl rfl
  assumption

theorem State.settle_keeps {z0 z1 : State} (h1 : Keeps z0 z1) : Keeps z0 (State.settle z1) := by
  unfold State.settle
  extract_lets +onlyGivenNames x0
  extract_lets +onlyGivenNames x1
  extract_lets +onlyGivenNames x2
  refine Keeps.cut (s := z0) (t := x2) ?_ (fun _ => ?_)
  · subst x2
    refine State.wr_keeps ?_
    refine Keeps.same ?_ rfl rfl rfl rfl rfl rfl rfl rfl rfl rfl rfl
    assumption
  clear_value x2
  split
  · refine State.raise_keeps ?_
    refine State.wr_keeps ?_
    assumption
  · assumption

theorem State.enterSafe_keeps {z0 z1 : State} {a1 a2} (h1 : Keeps z0 z1) : Keeps z0 (State.enterSafe z1 a1 a2) := by
  unfold State.enterSafe
  split
  · refine State.wr_keeps ?_
    assumption
  · extract_lets +onlyGivenNames x0
    extract_lets +onlyGivenNames x1
    extract_lets +onlyGivenNames x2
    refine Keeps.cut (s := z0) (t := x2) ?_ (fun _ => ?_)
    · subst x2
      refine Keeps.same ?_ rfl rfl rfl rfl rfl rfl rfl rfl rfl rfl rfl
      assumption
    clear_value x2
    extract_lets +onlyGivenNames x3
    refine Keeps.cut (s := z0) (t := x3) ?_ (fun _ => ?_)
    · subst x3
      refine State.wr2_keeps ?_
      refine State.wr_keeps ?_
      assumption
    clear_value x3
    refine State.raise_keeps ?_
    refine State.count_keeps ?_
    assumption

theorem State.safeEntered_keeps {z0 z1 : State} {a1 a2} (h1 : Keeps z0 z1) : Keeps z0 (State.safeEntered z1 a1 a2) := by
  unfold State.safeEntered
  refine State.faultRec_keeps ?_
  assumption

theorem State.addSafeUnits_keeps {z0 z1 : State} {a1} (h1 : Keeps z0 z1) : Keeps z0 (State.addSafeUnits z1 a1) := by
  unfold State.addSafeUnits
  extract_lets +onlyGivenNames x0
  refine State.wantTargeted_keeps ?_
  refine State.wr_keeps ?_
  assumption

theorem State.addCause_keeps {z0 z1 : State} {a1 a2 a3 a4 a5 a6} (h1 : Keeps z0 z1) : Keeps z0 (State.addCause z1 a1 a2 a3 a4 a5 a6) := by
  unfold State.addCause
  extract_lets +onlyGivenNames x0
  extract_lets +onlyGivenNames x1
  split
  · extract_lets +onlyGivenNames x2
    refine State.settle_keeps ?_
    refine State.addSafeUnits_keeps ?_
    refine Keeps.same ?_ rfl rfl rfl rfl rfl rfl rfl rfl rfl rfl rfl
    assumption
  · extract_lets +onlyGivenNames x3
    extract_lets +onlyGivenNames x4
    refine Keeps.cut (s := z0) (t := x4) ?_ (fun _ => ?_)
    · subst x4
      split
      · assumption
      · refine State.safeEntered_keeps ?_
        assumption
    clear_value x4
    extract_lets +onlyGivenNames x5
    extract_lets +onlyGivenNames x6
    refine Keeps.cut (s := z0) (t := x6) ?_ (fun _ => ?_)
    · subst x6
      refine Keeps.same ?_ rfl rfl rfl rfl rfl rfl rfl rfl rfl rfl rfl
      assumption
    clear_value x6
    refine State.settle_keeps ?_
    refine State.addSafeUnits_keeps ?_
    refine State.enterSafe_keeps ?_
    assumption

theorem State.endCauses_keeps {z0 z1 : State} {a1 a2} (h1 : Keeps z0 z1) : Keeps z0 (State.endCauses z1 a1 a2) := by
  unfold State.endCauses
  extract_lets +onlyGivenNames x0
  refine State.settle_keeps ?_
  refine Keeps.same ?_ rfl rfl rfl rfl rfl rfl rfl rfl rfl rfl rfl
  assumption

theorem State.clearBlock_keeps {z0 z1 : State} {a1 a2} (h1 : Keeps z0 z1) : Keeps z0 (State.clearBlock z1 a1 a2) := by
  unfold State.clearBlock
  extract_lets +onlyGivenNames x0
  refine State.settle_keeps ?_
  refine Keeps.same ?_ rfl rfl rfl rfl rfl rfl rfl rfl rfl rfl rfl
  assumption

theorem State.clearUnits_keeps {z0 z1 : State} {a1 a2} (h1 : Keeps z0 z1) : Keeps z0 (State.clearUnits z1 a1 a2) := by
  unfold State.clearUnits
  extract_lets +onlyGivenNames x0
  refine State.settle_keeps ?_
  refine Keeps.same ?_ rfl rfl rfl rfl rfl rfl rfl rfl rfl rfl rfl
  assumption

theorem State.signalRetire_keeps {z0 z1 : State} {a1} (h1 : Keeps z0 z1) : Keeps z0 (State.signalRetire z1 a1) := by
  unfold State.signalRetire
  extract_lets +onlyGivenNames x0
  extract_lets +onlyGivenNames x1
  refine Keeps.same ?_ rfl rfl rfl rfl rfl rfl rfl rfl rfl rfl rfl
  assumption

theorem State.showAbsent_keeps {z0 z1 : State} (h1 : Keeps z0 z1) : Keeps z0 (State.showAbsent z1) := by
  unfold State.showAbsent
  refine State.wr_keeps ?_
  assumption

theorem State.countRetired_keeps {z0 z1 : State} {a1} (h1 : Keeps z0 z1) : Keeps z0 (State.countRetired z1 a1) := by
  unfold State.countRetired
  extract_lets +onlyGivenNames x0
  extract_lets +onlyGivenNames x1
  extract_lets +onlyGivenNames x2
  refine State.wr_keeps ?_
  assumption

theorem State.unitBit_keeps {z0 z1 : State} {a1 a2 a3 a4} (h1 : Keeps z0 z1) : Keeps z0 (State.unitBit z1 a1 a2 a3 a4) := by
  unfold State.unitBit
  refine State.wr_keeps ?_
  assumption

theorem State.loseCore_keeps {z0 z1 : State} {a1} (h1 : Keeps z0 z1) : Keeps z0 (State.loseCore z1 a1) := by
  unfold State.loseCore
  extract_lets +onlyGivenNames x0
  extract_lets +onlyGivenNames x1
  extract_lets +onlyGivenNames x2
  extract_lets +onlyGivenNames x3
  refine Keeps.cut (s := z0) (t := x3) ?_ (fun _ => ?_)
  · subst x3
    refine Keeps.same ?_ rfl rfl rfl rfl rfl rfl rfl rfl rfl rfl rfl
    assumption
  clear_value x3
  extract_lets +onlyGivenNames x4
  refine Keeps.cut (s := z0) (t := x4) ?_ (fun _ => ?_)
  · subst x4
    refine Keeps.foldl ?_ (fun _ _ _ => ?_)
    · assumption
    · refine State.abortTask_keeps ?_
      assumption
  clear_value x4
  refine State.setCore_keeps ?_
  assumption

theorem State.retireUnit_keeps {z0 z1 : State} {a1 a2} (h1 : Keeps z0 z1) : Keeps z0 (State.retireUnit z1 a1 a2) := by
  unfold State.retireUnit
  split
  · assumption
  · extract_lets +onlyGivenNames x0
    extract_lets +onlyGivenNames x1
    refine Keeps.cut (s := z0) (t := x1) ?_ (fun _ => ?_)
    · subst x1
      refine State.unitBit_keeps ?_
      refine State.unitBit_keeps ?_
      refine State.unitBit_keeps ?_
      assumption
    clear_value x1
    extract_lets +onlyGivenNames x2
    refine Keeps.cut (s := z0) (t := x2) ?_ (fun _ => ?_)
    · subst x2
      refine State.countRetired_keeps ?_
      refine State.unitBit_keeps ?_
      refine State.unitBit_keeps ?_
      assumption
    clear_value x2
    extract_lets +onlyGivenNames x3
    extract_lets +onlyGivenNames x4
    extract_lets +onlyGivenNames x5
    refine Keeps.cut (s := z0) (t := x5) ?_ (fun _ => ?_)
    · subst x5
      refine Keeps.same ?_ rfl rfl rfl rfl rfl rfl rfl rfl rfl rfl rfl
      assumption
    clear_value x5
    extract_lets +onlyGivenNames x6
    refine Keeps.cut (s := z0) (t := x6) ?_ (fun _ => ?_)
    · subst x6
      refine State.plinthAudit_keeps ?_
      refine State.raise_keeps ?_
      refine State.unitFault_keeps ?_
      assumption
    clear_value x6
    extract_lets +onlyGivenNames x7
    refine Keeps.cut (s := z0) (t := x7) ?_ (fun _ => ?_)
    · subst x7
      refine State.showAbsent_keeps ?_
      refine State.bodDropCore_keeps ?_
      refine State.loseCore_keeps ?_
      split
      · assumption
      · refine State.pmCause_keeps ?_
        assumption
    clear_value x7
    split
    · refine State.signalRetire_keeps ?_
      assumption
    · assumption

theorem State.retireCluster_keeps {z0 z1 : State} {a1 a2} (h1 : Keeps z0 z1) : Keeps z0 (State.retireCluster z1 a1 a2) := by
  unfold State.retireCluster
  extract_lets +onlyGivenNames x0
  refine Keeps.cut (s := z0) (t := x0) ?_ (fun _ => ?_)
  · subst x0
    refine Keeps.foldl ?_ (fun _ _ _ => ?_)
    · assumption
    · refine State.retireUnit_keeps ?_
      assumption
  clear_value x0
  extract_lets +onlyGivenNames x1
  refine Keeps.cut (s := z0) (t := x1) ?_ (fun _ => ?_)
  · subst x1
    refine State.unitBit_keeps ?_
    assumption
  clear_value x1
  refine Keeps.same ?_ rfl rfl rfl rfl rfl rfl rfl rfl rfl rfl rfl
  assumption

theorem State.clusterFault_keeps {z0 z1 : State} {a1 a2} (h1 : Keeps z0 z1) : Keeps z0 (State.clusterFault z1 a1 a2) := by
  unfold State.clusterFault
  split
  · refine State.wantTargeted_keeps ?_
    refine State.addCause_keeps ?_
    assumption
  · refine State.retireCluster_keeps ?_
    assumption

theorem State.settleRetired_keeps {z0 z1 : State} (h1 : Keeps z0 z1) : Keeps z0 (State.settleRetired z1) := by
  unfold State.settleRetired
  extract_lets +onlyGivenNames x0
  split
  · assumption
  · extract_lets +onlyGivenNames x1
    refine State.clearUnits_keeps ?_
    refine State.wr_keeps ?_
    assumption

end Sys2Proof.Machine
end

