-- ==== Sys2Proof/Laws/Keeps/Commit.lean ====
section
/-! SUPPORT. The operations of Machine/Commit.lean are steps of the machine (`Keeps`). -/

set_option Elab.async false

namespace Sys2Proof.Machine

/-- A fold that sets keys keeps them rising. -/
theorem RegFile.wf_foldl {α : Type} {f : RegFile → α → RegFile} {l : List α} {r : RegFile} (h : RegFile.wf r)
    (hf : ∀ u x, RegFile.wf u → RegFile.wf (f u x)) : RegFile.wf (l.foldl f r) := by
  induction l generalizing r with
  | nil => exact h
  | cons x l ih => exact ih (hf r x h)

theorem State.withShadows_keeps {z0 z1 : State} {a1} (h1 : Keeps z0 z1) : Keeps z0 (State.withShadows z1 a1) := by
  unfold State.withShadows
  dsimp only
  split
  · refine h1.step rfl (Nat.le_refl _) (List.suffix_refl _) id (fun x => ?_) id id rfl
    refine RegFile.wf_foldl x fun u f hu => RegFile.wf_foldl hu fun u i hu => RegFile.wf_foldl hu fun u j hu => ?_
    split
    · exact hu
    · exact regSet_wf hu
  · exact h1

theorem State.commitEffects_keeps {z0 z1 z2 : State} {a1} (h1 : Keeps z0 z1) (h2 : Keeps z0 z2) : Keeps z0 (State.commitEffects z1 z2 a1) := by
  unfold State.commitEffects
  extract_lets +onlyGivenNames wipeSegs
  have hw {t : State} {b : Nat} {l : List Nat} (h : Keeps z0 t) : Keeps z0 (wipeSegs t b l) := by
    subst wipeSegs
    exact Keeps.foldl h fun _ _ h => State.wipe_keeps h
  clear_value wipeSegs
  split
  · exact hw h2
  · exact hw h2
  · split
    · exact State.wr_keeps (Keeps.same h2 rfl rfl rfl rfl rfl rfl rfl rfl rfl rfl rfl)
    · exact h2
  all_goals exact h2

theorem State.applyShadows_keeps {z0 z1 : State} {a1 a2} (h1 : Keeps z0 z1) : Keeps z0 (State.applyShadows z1 a1 a2) := by
  unfold State.applyShadows
  refine State.commitEffects_keeps h1 ?_
  refine Keeps.foldl h1 fun u f hu => Keeps.foldl hu fun u i hu => Keeps.foldl hu fun u j hu => ?_
  dsimp only
  split
  · exact hu
  · exact (State.wr_keeps hu).step rfl (Nat.le_refl _) (List.suffix_refl _) id id (fun x => regSet_wf x) id rfl

theorem State.applyCommit_keeps {z0 z1 : State} {a1 a2} (h1 : Keeps z0 z1) : Keeps z0 (State.applyCommit z1 a1 a2) := by
  unfold State.applyCommit
  split
  · assumption
  · extract_lets +onlyGivenNames x0
    refine Keeps.cut (s := z0) (t := x0) ?_ (fun _ => ?_)
    · subst x0
      refine State.applyShadows_keeps ?_
      assumption
    clear_value x0
    extract_lets +onlyGivenNames x1
    refine Keeps.cut (s := z0) (t := x1) ?_ (fun _ => ?_)
    · subst x1
      refine Keeps.same ?_ rfl rfl rfl rfl rfl rfl rfl rfl rfl rfl rfl
      assumption
    clear_value x1
    split
    · assumption
    · extract_lets +onlyGivenNames x2
      refine Keeps.cut (s := z0) (t := x2) ?_ (fun _ => ?_)
      · subst x2
        refine Keeps.foldl ?_ (fun _ _ _ => ?_)
        · assumption
        · refine Keeps.foldl ?_ (fun _ _ _ => ?_)
          · assumption
          · refine Keeps.foldl ?_ (fun _ _ _ => ?_)
            · assumption
            · extract_lets +onlyGivenNames x3
              split
              · assumption
              · refine State.wr_keeps ?_
                assumption
      clear_value x2
      refine State.wr_keeps ?_
      refine State.dropShadows_keeps ?_
      assumption

theorem State.rejectCommit_keeps {z0 z1 : State} {a1 a2 a3} (h1 : Keeps z0 z1) : Keeps z0 (State.rejectCommit z1 a1 a2 a3) := by
  unfold State.rejectCommit
  extract_lets +onlyGivenNames x0
  refine Keeps.cut (s := z0) (t := x0) ?_ (fun _ => ?_)
  · subst x0
    refine State.dropShadows_keeps ?_
    assumption
  clear_value x0
  extract_lets +onlyGivenNames x1
  refine Keeps.cut (s := z0) (t := x1) ?_ (fun _ => ?_)
  · subst x1
    refine Keeps.same ?_ rfl rfl rfl rfl rfl rfl rfl rfl rfl rfl rfl
    assumption
  clear_value x1
  refine State.wr_keeps ?_
  refine State.wr_keeps ?_
  refine State.wr_keeps ?_
  refine State.wr_keeps ?_
  assumption

theorem State.discardCommit_keeps {z0 z1 : State} {a1 a2} (h1 : Keeps z0 z1) : Keeps z0 (State.discardCommit z1 a1 a2) := by
  unfold State.discardCommit
  split
  · refine State.rejectCommit_keeps ?_
    assumption
  · assumption

theorem goCheck_keeps {z0 z1 : State} {a1} (h1 : Keeps z0 z1) : Keeps z0 (goCheck z1 a1).2 := by
  unfold goCheck
  split
  · dsimp only
    assumption
  · split
    · dsimp only
      assumption
    · extract_lets +onlyGivenNames x0
      refine Keeps.cut (s := z0) (t := x0) ?_ (fun _ => ?_)
      · subst x0
        refine State.rejectCommit_keeps ?_
        assumption
      clear_value x0
      split
      · extract_lets +onlyGivenNames x1
        refine Keeps.cut (s := z0) (t := x1) ?_ (fun _ => ?_)
        · subst x1
          refine State.withShadows_keeps ?_
          assumption
        clear_value x1
        dsimp only
        refine Keeps.foldl ?_ (fun _ _ _ => ?_)
        · assumption
        · split
          · refine State.wr_keeps ?_
            refine State.wr_keeps ?_
            assumption
          · refine State.wr_keeps ?_
            assumption
      · dsimp only
        assumption

theorem goAct_keeps {z0 z1 : State} {a1} (h1 : Keeps z0 z1) : Keeps z0 (goAct z1 a1) := by
  unfold goAct
  refine State.wr_keeps ?_
  refine State.wr_keeps ?_
  refine State.wr_keeps ?_
  refine State.wr_keeps ?_
  refine Keeps.same ?_ rfl rfl rfl rfl rfl rfl rfl rfl rfl rfl rfl
  assumption

theorem State.boundaryCommits_keeps {z0 z1 : State} (h1 : Keeps z0 z1) : Keeps z0 (State.boundaryCommits z1) := by
  unfold State.boundaryCommits
  refine Keeps.foldl ?_ (fun _ _ _ => ?_)
  · assumption
  · split
    · split
      · assumption
      · refine State.applyCommit_keeps ?_
        assumption
    · assumption

theorem execCommitApply_keeps {z0 z1 t0 : State} {a1 a2} (h1 : Keeps z0 z1) (ht : execCommitApply a1 a2 z1 = .next t0) :
    Keeps z0 t0 := by
  unfold execCommitApply at ht
  cases ht
  split
  · refine State.applyCommit_keeps ?_
    assumption
  · assumption

theorem State.lockPages_keeps {z0 z1 z2 : State} {a1} (h1 : Keeps z0 z1) (h2 : Keeps z0 z2) : Keeps z0 (State.lockPages z1 z2 a1) := by
  unfold State.lockPages
  refine Keeps.foldl ?_ (fun _ _ _ => ?_)
  · assumption
  · split
    · split
      · refine State.discardCommit_keeps ?_
        assumption
      · split
        · refine State.discardCommit_keeps ?_
          assumption
        · assumption
    · assumption

end Sys2Proof.Machine
end

