-- ==== Sys2Proof/Laws/Keeps/Ife.lean ====
section
/-! SUPPORT. The operations of Machine/Ife.lean are steps of the machine (`Keeps`). -/

set_option Elab.async false

namespace Sys2Proof.Machine

theorem State.setIfe_keeps {z0 z1 : State} {a1 a2} (h1 : Keeps z0 z1) : Keeps z0 (State.setIfe z1 a1 a2) := by
  unfold State.setIfe
  refine Keeps.update ?_ rfl rfl (fun h => by simpa [State.Sized] using h)
  assumption

theorem State.queueParams_keeps {z0 z1 : State} {a1 a2 a3 a4 a5} (h1 : Keeps z0 z1) : Keeps z0 (State.queueParams z1 a1 a2 a3 a4 a5) := by
  unfold State.queueParams
  extract_lets +onlyGivenNames x0
  extract_lets +onlyGivenNames x1
  extract_lets +onlyGivenNames x2
  extract_lets +onlyGivenNames x3
  extract_lets +onlyGivenNames x4
  extract_lets +onlyGivenNames x5
  extract_lets +onlyGivenNames x6
  extract_lets +onlyGivenNames x7
  refine Keeps.cut (s := z0) (t := x7) ?_ (fun _ => ?_)
  · subst x7
    refine State.setIfe_keeps ?_
    assumption
  clear_value x7
  split
  · refine State.count_keeps ?_
    refine State.raise_keeps ?_
    assumption
  · assumption

theorem pqPushCheck_keeps {z0 z1 : State} {a1 a2} (h1 : Keeps z0 z1) : Keeps z0 (pqPushCheck z1 a1 a2).2 := by
  unfold pqPushCheck
  split
  · dsimp only
    assumption
  · split
    · dsimp only
      refine State.count_keeps ?_
      assumption
    · split
      · dsimp only
        assumption
      · split
        · dsimp only
          refine State.fault_keeps ?_
          assumption
        · dsimp only
          assumption
        · dsimp only
          assumption

theorem State.graphPush_keeps {z0 z1 : State} {a1} (h1 : Keeps z0 z1) : Keeps z0 (State.graphPush z1 a1) := by
  unfold State.graphPush
  extract_lets +onlyGivenNames x0
  split
  · refine State.count_keeps ?_
    assumption
  · split
    · refine State.fault_keeps ?_
      assumption
    · assumption
    · refine State.queueParams_keeps ?_
      assumption

theorem State.startIfeFrame_keeps {z0 z1 : State} {a1 a2} (h1 : Keeps z0 z1) : Keeps z0 (State.startIfeFrame z1 a1 a2) := by
  unfold State.startIfeFrame
  extract_lets +onlyGivenNames x0
  extract_lets +onlyGivenNames x1
  extract_lets +onlyGivenNames x2
  extract_lets +onlyGivenNames x3
  extract_lets +onlyGivenNames x4
  extract_lets +onlyGivenNames x5
  extract_lets +onlyGivenNames x6
  extract_lets +onlyGivenNames x7
  refine Keeps.cut (s := z0) (t := x7) ?_ (fun _ => ?_)
  · subst x7
    refine State.wr_keeps ?_
    refine State.wr_keeps ?_
    refine State.setIfe_keeps ?_
    assumption
  clear_value x7
  extract_lets +onlyGivenNames x8
  refine Keeps.cut (s := z0) (t := x8) ?_ (fun _ => ?_)
  · subst x8
    refine State.wr_keeps ?_
    assumption
  clear_value x8
  split
  · refine State.raise_keeps ?_
    assumption
  · assumption

theorem execIfeFrameStart_keeps {z0 z1 t0 : State} {a1 a2} (h1 : Keeps z0 z1) (ht : execIfeFrameStart a1 a2 z1 = .next t0) :
    Keeps z0 t0 := by
  unfold execIfeFrameStart at ht
  cases ht
  split
  · split
    · refine State.startIfeFrame_keeps ?_
      assumption
    · assumption
  · split
    · refine State.startIfeFrame_keeps ?_
      assumption
    · assumption

theorem State.motionCheck_keeps {z0 z1 : State} {a1 a2 a3 a4} (h1 : Keeps z0 z1) : Keeps z0 (State.motionCheck z1 a1 a2 a3 a4) := by
  unfold State.motionCheck
  extract_lets +onlyGivenNames x0
  extract_lets +onlyGivenNames x1
  split
  · assumption
  · split
    · refine State.wr_keeps ?_
      assumption
    · extract_lets +onlyGivenNames x2
      refine Keeps.cut (s := z0) (t := x2) ?_ (fun _ => ?_)
      · subst x2
        refine State.wr_keeps ?_
        refine State.setIfe_keeps ?_
        assumption
      clear_value x2
      extract_lets +onlyGivenNames x3
      refine Keeps.cut (s := z0) (t := x3) ?_ (fun _ => ?_)
      · subst x3
        refine State.count_keeps ?_
        refine State.raise_keeps ?_
        assumption
      clear_value x3
      split
      · refine State.fault_keeps ?_
        assumption
      · assumption

theorem State.putIfeRow_keeps {z0 z1 : State} {a1 a2 a3 a4 a5} (h1 : Keeps z0 z1) : Keeps z0 (State.putIfeRow z1 a1 a2 a3 a4 a5) := by
  unfold State.putIfeRow
  extract_lets +onlyGivenNames miss put p010 code mv tap fmt rgb y
  have hp {t : State} {on : Bool} {out : Nat} {row : List Nat} (h : Keeps z0 t) : Keeps z0 (put t on out row) := by
    subst put
    dsimp only
    split
    · exact State.putRow_keeps h
    · exact h
  clear_value put
  refine State.putRow_keeps (hp (hp (hp (hp (hp (hp ?_))))))
  split
  · exact State.putRow_keeps (hp (hp h1))
  · exact hp (hp h1)

theorem State.statsRecord_keeps {z0 z1 : State} {a1 a2 a3 a4} (h1 : Keeps z0 z1) : Keeps z0 (State.statsRecord z1 a1 a2 a3 a4) := by
  unfold State.statsRecord
  extract_lets +onlyGivenNames x0
  extract_lets +onlyGivenNames x1
  extract_lets +onlyGivenNames x2
  extract_lets +onlyGivenNames x3
  extract_lets +onlyGivenNames x4
  extract_lets +onlyGivenNames x5
  extract_lets +onlyGivenNames x6
  extract_lets +onlyGivenNames x7
  extract_lets +onlyGivenNames x8
  extract_lets +onlyGivenNames x9
  extract_lets +onlyGivenNames x10
  extract_lets +onlyGivenNames x11
  refine Keeps.cut (s := z0) (t := x11) ?_ (fun _ => ?_)
  · subst x11
    refine Keeps.same ?_ rfl rfl rfl rfl rfl rfl rfl rfl rfl rfl rfl
    assumption
  clear_value x11
  extract_lets +onlyGivenNames x12
  refine Keeps.cut (s := z0) (t := x12) ?_ (fun _ => ?_)
  · subst x12
    refine State.raise_keeps ?_
    assumption
  clear_value x12
  split
  · refine State.raise_keeps ?_
    assumption
  · assumption

theorem State.ifeStrip_keeps {z0 z1 : State} {a1 a2 a3 a4 a5 a6} (h1 : Keeps z0 z1) : Keeps z0 (State.ifeStrip z1 a1 a2 a3 a4 a5 a6) := by
  unfold State.ifeStrip
  extract_lets +onlyGivenNames x0
  extract_lets +onlyGivenNames x1
  extract_lets +onlyGivenNames x2
  refine Keeps.cut (s := z0) (t := x2) ?_ (fun _ => ?_)
  · subst x2
    refine Keeps.foldl ?_ (fun _ _ _ => ?_)
    · assumption
    · refine State.putIfeRow_keeps ?_
      assumption
  clear_value x2
  extract_lets +onlyGivenNames x3
  extract_lets +onlyGivenNames x4
  refine Keeps.cut (s := z0) (t := x4) ?_ (fun _ => ?_)
  · subst x4
    refine State.count_keeps ?_
    assumption
  clear_value x4
  split
  · extract_lets +onlyGivenNames x5
    extract_lets +onlyGivenNames x6
    refine Keeps.cut (s := z0) (t := x6) ?_ (fun _ => ?_)
    · subst x6
      refine State.setIfe_keeps ?_
      assumption
    clear_value x6
    extract_lets +onlyGivenNames x7
    extract_lets +onlyGivenNames x8
    refine Keeps.cut (s := z0) (t := x8) ?_ (fun _ => ?_)
    · subst x8
      refine Keeps.same ?_ rfl rfl rfl rfl rfl rfl rfl rfl rfl rfl rfl
      assumption
    clear_value x8
    split
    · refine State.statsRecord_keeps ?_
      assumption
    · assumption
  · assumption

end Sys2Proof.Machine
end

