-- ==== Sys2Proof/Laws/Keeps/Package.lean ====
section
/-! SUPPORT. The operations of Machine/Package.lean are steps of the machine (`Keeps`). -/

set_option Elab.async false

namespace Sys2Proof.Machine

theorem State.writeField_keeps {z0 z1 : State} {a1 a2 a3} (h1 : Keeps z0 z1) : Keeps z0 (State.writeField z1 a1 a2 a3) := by
  unfold State.writeField
  extract_lets +onlyGivenNames x0
  split
  · split
    · refine State.wr_keeps ?_
      assumption
    · assumption
  · assumption

theorem State.writeFields_keeps {z0 z1 : State} {a1 a2 a3} (h1 : Keeps z0 z1) : Keeps z0 (State.writeFields z1 a1 a2 a3) := by
  unfold State.writeFields
  refine Keeps.foldl ?_ (fun _ _ _ => ?_)
  · assumption
  · refine State.writeField_keeps ?_
    assumption

theorem State.enableCtx_keeps {z0 z1 : State} {a1 a2 a3} (h1 : Keeps z0 z1) : Keeps z0 (State.enableCtx z1 a1 a2 a3) := by
  unfold State.enableCtx
  refine State.writeField_keeps ?_
  assumption

theorem State.writeStreams_keeps {z0 z1 : State} {a1} (h1 : Keeps z0 z1) : Keeps z0 (State.writeStreams z1 a1) := by
  unfold State.writeStreams
  refine Keeps.foldl ?_ (fun _ _ _ => ?_)
  · assumption
  · refine State.enableCtx_keeps ?_
    refine State.writeFields_keeps ?_
    assumption

theorem State.writeContexts_keeps {z0 z1 : State} {a1 a2} (h1 : Keeps z0 z1) : Keeps z0 (State.writeContexts z1 a1 a2) := by
  unfold State.writeContexts
  refine Keeps.foldl ?_ (fun _ _ _ => ?_)
  · assumption
  · refine State.enableCtx_keeps ?_
    refine State.writeFields_keeps ?_
    assumption

theorem State.writeChannels_keeps {z0 z1 : State} {a1 a2} (h1 : Keeps z0 z1) : Keeps z0 (State.writeChannels z1 a1 a2) := by
  unfold State.writeChannels
  refine Keeps.foldl ?_ (fun _ _ _ => ?_)
  · assumption
  · extract_lets +onlyGivenNames x0
    extract_lets +onlyGivenNames x1
    refine Keeps.cut (s := z0) (t := x1) ?_ (fun _ => ?_)
    · subst x1
      refine State.enableCtx_keeps ?_
      refine State.writeFields_keeps ?_
      assumption
    clear_value x1
    refine State.setChan_keeps ?_
    assumption

theorem State.writeBod_keeps {z0 z1 : State} {a1} (h1 : Keeps z0 z1) : Keeps z0 (State.writeBod z1 a1) := by
  unfold State.writeBod
  extract_lets +onlyGivenNames x0
  refine Keeps.cut (s := z0) (t := x0) ?_ (fun _ => ?_)
  · subst x0
    refine Keeps.foldl ?_ (fun _ _ _ => ?_)
    · assumption
    · refine State.bodStore_keeps ?_
      assumption
  clear_value x0
  refine Keeps.foldl ?_ (fun _ _ _ => ?_)
  · assumption
  · refine State.wr_keeps ?_
    refine State.wr_keeps ?_
    refine State.wr_keeps ?_
    refine State.wr_keeps ?_
    refine State.wr_keeps ?_
    refine State.wr_keeps ?_
    refine State.wr_keeps ?_
    assumption

theorem State.fillWindows_keeps {z0 z1 : State} {a1 a2} (h1 : Keeps z0 z1) : Keeps z0 (State.fillWindows z1 a1 a2) := by
  unfold State.fillWindows
  refine Keeps.foldl ?_ (fun _ _ _ => ?_)
  · assumption
  · refine State.store_keeps ?_
    assumption

theorem State.writeSet_keeps {z0 z1 : State} {a1 a2} (h1 : Keeps z0 z1) : Keeps z0 (State.writeSet z1 a1 a2) := by
  unfold State.writeSet
  refine State.writeBod_keeps ?_
  refine State.writeChannels_keeps ?_
  refine State.writeContexts_keeps ?_
  refine State.writeStreams_keeps ?_
  assumption

end Sys2Proof.Machine
end

