-- ==== Sys2Proof/Laws/Keeps/LinkDown.lean ====
section
/-! SUPPORT. The operations of Machine/LinkDown.lean are steps of the machine (`Keeps`). -/

set_option Elab.async false

namespace Sys2Proof.Machine

theorem State.sessionEvent_keeps {z0 z1 : State} {a1 a2 a3} (h1 : Keeps z0 z1) : Keeps z0 (State.sessionEvent z1 a1 a2 a3) := by
  unfold State.sessionEvent
  extract_lets +onlyGivenNames x0
  refine Keeps.cut (s := z0) (t := x0.2) ?_ (fun _ => ?_)
  · subst x0
    refine State.draw_keeps ?_
    assumption
  clear_value x0
  refine State.queueEvent_keeps ?_
  assumption

theorem State.unsubscribe_keeps {z0 z1 : State} {a1 a2} (h1 : Keeps z0 z1) : Keeps z0 (State.unsubscribe z1 a1 a2) := by
  unfold State.unsubscribe
  extract_lets +onlyGivenNames x0
  extract_lets +onlyGivenNames x1
  extract_lets +onlyGivenNames x2
  refine Keeps.cut (s := z0) (t := x2) ?_ (fun _ => ?_)
  · subst x2
    refine State.setPort_keeps ?_
    assumption
  clear_value x2
  split
  · refine State.wr_keeps ?_
    assumption
  · assumption

theorem State.endSession_keeps {z0 z1 : State} {a1 a2 a3 a4} (h1 : Keeps z0 z1) : Keeps z0 (State.endSession z1 a1 a2 a3 a4) := by
  unfold State.endSession
  split
  · extract_lets +onlyGivenNames x0
    extract_lets +onlyGivenNames x1
    refine Keeps.cut (s := z0) (t := x1) ?_ (fun _ => ?_)
    · subst x1
      refine State.wr_keeps ?_
      assumption
    clear_value x1
    refine State.sessionEvent_keeps ?_
    refine State.audit_keeps ?_
    refine State.unsubscribe_keeps ?_
    assumption
  · assumption

theorem State.endSessions_keeps {z0 z1 : State} {a1} (h1 : Keeps z0 z1) : Keeps z0 (State.endSessions z1 a1) := by
  unfold State.endSessions
  refine Keeps.foldl ?_ (fun _ _ _ => ?_)
  · assumption
  · refine State.endSession_keeps ?_
    assumption

theorem State.emptyEvents_keeps {z0 z1 : State} {a1} (h1 : Keeps z0 z1) : Keeps z0 (State.emptyEvents z1 a1) := by
  unfold State.emptyEvents
  extract_lets +onlyGivenNames x0
  extract_lets +onlyGivenNames x1
  extract_lets +onlyGivenNames x2
  extract_lets +onlyGivenNames x3
  extract_lets +onlyGivenNames x4
  refine Keeps.cut (s := z0) (t := x4) ?_ (fun _ => ?_)
  · subst x4
    refine State.count_keeps ?_
    refine State.count_keeps ?_
    assumption
  clear_value x4
  extract_lets +onlyGivenNames x5
  refine Keeps.cut (s := z0) (t := x5) ?_ (fun _ => ?_)
  · subst x5
    refine State.setPort_keeps ?_
    assumption
  clear_value x5
  refine Keeps.foldl ?_ (fun _ _ _ => ?_)
  · assumption
  · split
    · refine State.queueEvent_keeps ?_
      assumption
    · refine Keeps.same ?_ rfl rfl rfl rfl rfl rfl rfl rfl rfl rfl rfl
      assumption

theorem State.abortHostTasks_keeps {z0 z1 : State} {a1} (h1 : Keeps z0 z1) : Keeps z0 (State.abortHostTasks z1 a1) := by
  unfold State.abortHostTasks
  extract_lets +onlyGivenNames x0
  refine Keeps.foldl ?_ (fun _ _ _ => ?_)
  · assumption
  · split
    · refine State.abortTask_keeps ?_
      refine State.faultRec_keeps ?_
      assumption
    · assumption

theorem State.abandonBoot_keeps {z0 z1 : State} {a1} (h1 : Keeps z0 z1) : Keeps z0 (State.abandonBoot z1 a1) := by
  unfold State.abandonBoot
  split
  · split
    · refine State.wr_keeps ?_
      refine Keeps.same ?_ rfl rfl rfl rfl rfl rfl rfl rfl rfl rfl rfl
      assumption
    · assumption
  · assumption

theorem State.linkState_keeps {z0 z1 : State} {a1 a2} (h1 : Keeps z0 z1) : Keeps z0 (State.linkState z1 a1 a2) := by
  unfold State.linkState
  refine State.wr_keeps ?_
  refine State.wr_keeps ?_
  refine State.wr_keeps ?_
  assumption

theorem State.linkDown_keeps {z0 z1 : State} {a1 a2} (h1 : Keeps z0 z1) : Keeps z0 (State.linkDown z1 a1 a2) := by
  unfold State.linkDown
  extract_lets +onlyGivenNames x0
  split
  · extract_lets +onlyGivenNames x1
    refine Keeps.cut (s := z0) (t := x1) ?_ (fun _ => ?_)
    · subst x1
      refine State.wr_keeps ?_
      refine State.abortHostTasks_keeps ?_
      refine State.endSessions_keeps ?_
      refine State.linkState_keeps ?_
      assumption
    clear_value x1
    extract_lets +onlyGivenNames x2
    refine Keeps.cut (s := z0) (t := x2) ?_ (fun _ => ?_)
    · subst x2
      refine State.abandonBoot_keeps ?_
      refine State.emptyEvents_keeps ?_
      refine State.wr_keeps ?_
      assumption
    clear_value x2
    extract_lets +onlyGivenNames x3
    refine Keeps.cut (s := z0) (t := x3) ?_ (fun _ => ?_)
    · subst x3
      refine State.setPort_keeps ?_
      assumption
    clear_value x3
    refine State.fault_keeps ?_
    assumption
  · refine State.linkState_keeps ?_
    assumption

end Sys2Proof.Machine
end

