-- ==== Sys2Proof/Laws/Keeps/Rasp.lean ====
section
/-! SUPPORT. The operations of Machine/Rasp.lean are steps of the machine (`Keeps`). -/

set_option Elab.async false

namespace Sys2Proof.Machine

theorem State.setTest_keeps {z0 z1 : State} {a1} (h1 : Keeps z0 z1) : Keeps z0 (State.setTest z1 a1) := by
  unfold State.setTest
  refine Keeps.same ?_ rfl rfl rfl rfl rfl rfl rfl rfl rfl rfl rfl
  assumption

theorem State.showLatent_keeps {z0 z1 : State} (h1 : Keeps z0 z1) : Keeps z0 (State.showLatent z1) := by
  unfold State.showLatent
  extract_lets +onlyGivenNames x0
  extract_lets +onlyGivenNames x1
  refine Keeps.cut (s := z0) (t := x1) ?_ (fun _ => ?_)
  · subst x1
    refine State.wr_keeps ?_
    assumption
  clear_value x1
  extract_lets +onlyGivenNames x2
  refine Keeps.cut (s := z0) (t := x2) ?_ (fun _ => ?_)
  · subst x2
    refine State.wr_keeps ?_
    assumption
  clear_value x2
  extract_lets +onlyGivenNames x3
  refine Keeps.cut (s := z0) (t := x3) ?_ (fun _ => ?_)
  · subst x3
    refine State.wr_keeps ?_
    assumption
  clear_value x3
  extract_lets +onlyGivenNames x4
  refine Keeps.cut (s := z0) (t := x4) ?_ (fun _ => ?_)
  · subst x4
    refine State.wr_keeps ?_
    refine State.wr_keeps ?_
    assumption
  clear_value x4
  refine State.wr_keeps ?_
  assumption

theorem State.startIntervals_keeps {z0 z1 : State} {a1} (h1 : Keeps z0 z1) : Keeps z0 (State.startIntervals z1 a1) := by
  unfold State.startIntervals
  extract_lets +onlyGivenNames x0
  refine State.showLatent_keeps ?_
  refine Keeps.same ?_ rfl rfl rfl rfl rfl rfl rfl rfl rfl rfl rfl
  assumption

theorem State.stopTests_keeps {z0 z1 : State} {a1} (h1 : Keeps z0 z1) : Keeps z0 (State.stopTests z1 a1) := by
  unfold State.stopTests
  extract_lets +onlyGivenNames x0
  extract_lets +onlyGivenNames x1
  extract_lets +onlyGivenNames x2
  refine State.showLatent_keeps ?_
  refine Keeps.same ?_ rfl rfl rfl rfl rfl rfl rfl rfl rfl rfl rfl
  assumption

theorem State.markFailed_keeps {z0 z1 : State} {a1 a2} (h1 : Keeps z0 z1) : Keeps z0 (State.markFailed z1 a1 a2) := by
  unfold State.markFailed
  split
  · refine State.unitBit_keeps ?_
    assumption
  · refine State.unitBit_keeps ?_
    assumption
  · refine State.wr_keeps ?_
    assumption
  · refine State.wr_keeps ?_
    assumption
  · refine State.wr_keeps ?_
    assumption
  · assumption

theorem State.modePassed_keeps {z0 z1 : State} {a1 a2} (h1 : Keeps z0 z1) : Keeps z0 (State.modePassed z1 a1 a2) := by
  unfold State.modePassed
  split
  · split
    · refine State.clearUnits_keeps ?_
      refine State.unitBit_keeps ?_
      refine State.unitBit_keeps ?_
      assumption
    · split
      · refine State.raise_keeps ?_
        refine State.unitBit_keeps ?_
        assumption
      · assumption
  · split
    · refine State.clearBlock_keeps ?_
      assumption
    · assumption
  · refine State.clearBlock_keeps ?_
    refine State.clearBlock_keeps ?_
    refine State.markFailed_keeps ?_
    assumption
  · refine State.clearBlock_keeps ?_
    refine State.markFailed_keeps ?_
    assumption
  · refine State.clearBlock_keeps ?_
    refine State.markFailed_keeps ?_
    assumption
  · refine State.clearBlock_keeps ?_
    refine State.markFailed_keeps ?_
    assumption

theorem State.finishMode_keeps {z0 z1 : State} {a1 a2} (h1 : Keeps z0 z1) : Keeps z0 (State.finishMode z1 a1 a2) := by
  unfold State.finishMode
  extract_lets +onlyGivenNames x0
  split
  · extract_lets +onlyGivenNames x1
    extract_lets +onlyGivenNames x2
    extract_lets +onlyGivenNames x3
    refine Keeps.cut (s := z0) (t := x3) ?_ (fun _ => ?_)
    · subst x3
      refine State.count_keeps ?_
      refine State.showLatent_keeps ?_
      refine Keeps.same ?_ rfl rfl rfl rfl rfl rfl rfl rfl rfl rfl rfl
      assumption
    clear_value x3
    refine State.modePassed_keeps ?_
    assumption
  · assumption

theorem State.passTest_keeps {z0 z1 : State} {a1 a2} (h1 : Keeps z0 z1) : Keeps z0 (State.passTest z1 a1 a2) := by
  unfold State.passTest
  split
  · refine State.count_keeps ?_
    refine State.showLatent_keeps ?_
    refine State.setTest_keeps ?_
    assumption
  · refine State.finishMode_keeps ?_
    refine State.setTest_keeps ?_
    assumption

theorem State.failBlock_keeps {z0 z1 : State} {a1} (h1 : Keeps z0 z1) : Keeps z0 (State.failBlock z1 a1) := by
  unfold State.failBlock
  extract_lets +onlyGivenNames x0
  refine Keeps.cut (s := z0) (t := x0) ?_ (fun _ => ?_)
  · subst x0
    split
    · refine State.addCause_keeps ?_
      assumption
    · refine State.markFailed_keeps ?_
      assumption
  clear_value x0
  refine State.startMode_keeps ?_
  assumption

theorem State.failTest_keeps {z0 z1 : State} {a1 a2} (h1 : Keeps z0 z1) : Keeps z0 (State.failTest z1 a1 a2) := by
  unfold State.failTest
  extract_lets +onlyGivenNames x0
  extract_lets +onlyGivenNames x1
  refine Keeps.cut (s := z0) (t := x1) ?_ (fun _ => ?_)
  · subst x1
    refine State.raise_keeps ?_
    refine State.count_keeps ?_
    refine State.setTest_keeps ?_
    assumption
  clear_value x1
  split
  · extract_lets +onlyGivenNames x2
    refine Keeps.cut (s := z0) (t := x2) ?_ (fun _ => ?_)
    · subst x2
      split
      · refine State.addCause_keeps ?_
        assumption
      · assumption
    clear_value x2
    extract_lets +onlyGivenNames x3
    refine Keeps.cut (s := z0) (t := x3) ?_ (fun _ => ?_)
    · subst x3
      split
      · refine State.unitFault_keeps ?_
        assumption
      · assumption
    clear_value x3
    refine State.retireUnit_keeps ?_
    assumption
  · split
    · refine State.clearBlock_keeps ?_
      refine State.retireCluster_keeps ?_
      assumption
    · refine State.clusterFault_keeps ?_
      assumption
  · refine State.failBlock_keeps ?_
    assumption
  · refine State.failBlock_keeps ?_
    assumption
  · refine State.failBlock_keeps ?_
    assumption
  · refine State.startMode_keeps ?_
    refine State.addCause_keeps ?_
    refine State.markFailed_keeps ?_
    assumption

theorem State.testFault_keeps {z0 z1 : State} {a1 a2 a3} (h1 : Keeps z0 z1) : Keeps z0 (State.testFault z1 a1 a2 a3) := by
  unfold State.testFault
  split
  · refine State.unitFault_keeps ?_
    assumption
  · refine State.fault_keeps ?_
    assumption
  · refine State.fault_keeps ?_
    assumption
  · refine State.fault_keeps ?_
    assumption
  · refine State.fault_keeps ?_
    assumption
  · refine State.fault_keeps ?_
    assumption

theorem execRspQuantumEnd_keeps {z0 z1 t0 : State} {a1 a2 a3} (h1 : Keeps z0 z1) (ht : execRspQuantumEnd a1 a2 a3 z1 = .next t0) :
    Keeps z0 t0 := by
  unfold execRspQuantumEnd at ht
  cases ht
  split
  · assumption
  · split
    · assumption
    · extract_lets +onlyGivenNames x0
      split
      · split
        · refine State.failTest_keeps ?_
          refine State.testFault_keeps ?_
          assumption
        · refine State.setTest_keeps ?_
          assumption
      · extract_lets +onlyGivenNames x1
        refine Keeps.cut (s := z0) (t := x1) ?_ (fun _ => ?_)
        · subst x1
          split
          · refine State.count_keeps ?_
            refine State.testFault_keeps ?_
            assumption
          · assumption
        clear_value x1
        split
        · refine State.passTest_keeps ?_
          assumption
        · refine State.setTest_keeps ?_
          assumption

theorem execQuantumCut_keeps {z0 z1 t0 : State} {a1 a2} (h1 : Keeps z0 z1) (ht : execQuantumCut a1 a2 z1 = .next t0) :
    Keeps z0 t0 := by
  unfold execQuantumCut at ht
  cases ht
  split
  · assumption
  · split
    · assumption
    · extract_lets +onlyGivenNames x0
      extract_lets +onlyGivenNames x1
      refine Keeps.cut (s := z0) (t := x1) ?_ (fun _ => ?_)
      · subst x1
        refine State.count_keeps ?_
        assumption
      clear_value x1
      split
      · refine State.failTest_keeps ?_
        refine State.testFault_keeps ?_
        assumption
      · refine State.setTest_keeps ?_
        assumption

theorem execDiMissed_keeps {z0 z1 t0 : State} {a1 a2} (h1 : Keeps z0 z1) (ht : execDiMissed a1 a2 z1 = .next t0) :
    Keeps z0 t0 := by
  unfold execDiMissed at ht
  cases ht
  split
  · assumption
  · split
    · assumption
    · split
      · assumption
      · extract_lets +onlyGivenNames x0
        refine Keeps.cut (s := z0) (t := x0) ?_ (fun _ => ?_)
        · subst x0
          refine State.showLatent_keeps ?_
          refine State.setTest_keeps ?_
          assumption
        clear_value x0
        refine State.raise_keeps ?_
        refine State.count_keeps ?_
        refine State.testFault_keeps ?_
        assumption

theorem execDiExpired_keeps {z0 z1 t0 : State} {a1 a2} (h1 : Keeps z0 z1) (ht : execDiExpired a1 a2 z1 = .next t0) :
    Keeps z0 t0 := by
  unfold execDiExpired at ht
  cases ht
  split
  · assumption
  · split
    · assumption
    · split
      · assumption
      · extract_lets +onlyGivenNames x0
        refine State.failTest_keeps ?_
        refine State.testFault_keeps ?_
        refine State.setTest_keeps ?_
        assumption

theorem rspReqAct_keeps {z0 z1 : State} {a1} (h1 : Keeps z0 z1) : Keeps z0 (rspReqAct z1 a1) := by
  unfold rspReqAct
  refine Keeps.foldl ?_ (fun _ _ _ => ?_)
  · assumption
  · refine State.startMode_keeps ?_
    assumption

theorem State.startTargeted_keeps {z0 z1 : State} (h1 : Keeps z0 z1) : Keeps z0 (State.startTargeted z1) := by
  unfold State.startTargeted
  extract_lets +onlyGivenNames x0
  extract_lets +onlyGivenNames x1
  refine Keeps.cut (s := z0) (t := x1) ?_ (fun _ => ?_)
  · subst x1
    refine Keeps.foldl ?_ (fun _ _ _ => ?_)
    · assumption
    · split
      · refine State.unitBit_keeps ?_
        refine State.startMode_keeps ?_
        assumption
      · refine State.startMode_keeps ?_
        assumption
      · refine State.startMode_keeps ?_
        assumption
      · refine State.startMode_keeps ?_
        assumption
      · refine State.startMode_keeps ?_
        assumption
      · refine State.startMode_keeps ?_
        assumption
  clear_value x1
  refine Keeps.same ?_ rfl rfl rfl rfl rfl rfl rfl rfl rfl rfl rfl
  assumption

theorem State.setScrubber_keeps {z0 z1 : State} {a1} (h1 : Keeps z0 z1) : Keeps z0 (State.setScrubber z1 a1) := by
  unfold State.setScrubber
  refine Keeps.same ?_ rfl rfl rfl rfl rfl rfl rfl rfl rfl rfl rfl
  assumption

theorem State.reportSlow_keeps {z0 z1 : State} {a1} (h1 : Keeps z0 z1) : Keeps z0 (State.reportSlow z1 a1) := by
  unfold State.reportSlow
  extract_lets +onlyGivenNames x0
  refine Keeps.cut (s := z0) (t := x0) ?_ (fun _ => ?_)
  · subst x0
    refine State.fault_keeps ?_
    assumption
  clear_value x0
  refine Keeps.same ?_ rfl rfl rfl rfl rfl rfl rfl rfl rfl rfl rfl
  assumption

theorem execScrubSlow_keeps {z0 z1 t0 : State} {a1} (h1 : Keeps z0 z1) (ht : execScrubSlow a1 z1 = .next t0) :
    Keeps z0 t0 := by
  unfold execScrubSlow at ht
  extract_lets +onlyGivenNames x0 at ht
  cases ht
  split
  · assumption
  · refine State.setScrubber_keeps ?_
    refine State.reportSlow_keeps ?_
    assumption

theorem execScrubPass_keeps {z0 z1 t0 : State} {a1 a2 a3 a4} (h1 : Keeps z0 z1) (ht : execScrubPass a1 a2 a3 a4 z1 = .next t0) :
    Keeps z0 t0 := by
  unfold execScrubPass at ht
  extract_lets +onlyGivenNames x0 at ht
  extract_lets +onlyGivenNames x1 at ht
  extract_lets +onlyGivenNames x2 at ht
  extract_lets +onlyGivenNames x3 at ht
  cases ht
  split
  · assumption
  · extract_lets +onlyGivenNames x4
    refine Keeps.cut (s := z0) (t := x4) ?_ (fun _ => ?_)
    · subst x4
      refine State.setScrubber_keeps ?_
      assumption
    clear_value x4
    extract_lets +onlyGivenNames x5
    refine Keeps.cut (s := z0) (t := x5) ?_ (fun _ => ?_)
    · subst x5
      split
      · refine State.wr_keeps ?_
        refine State.count_keeps ?_
        refine State.count_keeps ?_
        assumption
      · refine State.wr_keeps ?_
        refine State.count_keeps ?_
        assumption
    clear_value x5
    extract_lets +onlyGivenNames x6
    extract_lets +onlyGivenNames x7
    refine Keeps.cut (s := z0) (t := x7) ?_ (fun _ => ?_)
    · subst x7
      split
      · split
        · assumption
        · refine State.reportSlow_keeps ?_
          assumption
      · refine Keeps.same ?_ rfl rfl rfl rfl rfl rfl rfl rfl rfl rfl rfl
        assumption
    clear_value x7
    refine Keeps.foldl ?_ (fun _ _ _ => ?_)
    · assumption
    · extract_lets +onlyGivenNames x8
      refine Keeps.cut (s := z0) (t := x8) ?_ (fun _ => ?_)
      · subst x8
        refine State.startMode_keeps ?_
        refine State.fault_keeps ?_
        assumption
      clear_value x8
      split
      · refine State.wr_keeps ?_
        assumption
      · assumption

end Sys2Proof.Machine
end

