-- ==== Sys2Proof/Laws/Keeps/Power.lean ====
section
/-! SUPPORT. The operations of Machine/Power.lean are steps of the machine (`Keeps`). -/

set_option Elab.async false

namespace Sys2Proof.Machine

theorem State.setRequest_keeps {z0 z1 : State} {a1 a2} (h1 : Keeps z0 z1) : Keeps z0 (State.setRequest z1 a1 a2) := by
  unfold State.setRequest
  split
  · refine State.wr_keeps ?_
    assumption
  · refine State.wr_keeps ?_
    assumption

theorem State.showRefused_keeps {z0 z1 : State} {a1 a2} (h1 : Keeps z0 z1) : Keeps z0 (State.showRefused z1 a1 a2) := by
  unfold State.showRefused
  refine State.wr_keeps ?_
  refine State.wr_keeps ?_
  assumption

theorem State.requestOn_keeps {z0 z1 : State} {a1} (h1 : Keeps z0 z1) : Keeps z0 (State.requestOn z1 a1) := by
  unfold State.requestOn
  split
  · refine State.setRequest_keeps ?_
    assumption
  · split
    · refine State.showRefused_keeps ?_
      refine State.setRequest_keeps ?_
      assumption
    · extract_lets +onlyGivenNames x0
      refine Keeps.cut (s := z0) (t := x0) ?_ (fun _ => ?_)
      · subst x0
        refine State.setRequest_keeps ?_
        assumption
      clear_value x0
      refine Keeps.same ?_ rfl rfl rfl rfl rfl rfl rfl rfl rfl rfl rfl
      assumption

theorem State.requestAll_keeps {z0 z1 : State} {a1} (h1 : Keeps z0 z1) : Keeps z0 (State.requestAll z1 a1) := by
  unfold State.requestAll
  refine Keeps.foldl ?_ (fun _ _ _ => ?_)
  · assumption
  · refine State.requestOn_keeps ?_
    assumption

theorem State.abortTasks_keeps {z0 z1 : State} {a1 a2 a3} (h1 : Keeps z0 z1) : Keeps z0 (State.abortTasks z1 a1 a2 a3) := by
  unfold State.abortTasks
  refine Keeps.foldl ?_ (fun _ _ _ => ?_)
  · assumption
  · refine State.abortTask_keeps ?_
    assumption

theorem State.forgetArray_keeps {z0 z1 : State} {a1 a2} (h1 : Keeps z0 z1) : Keeps z0 (State.forgetArray z1 a1 a2) := by
  unfold State.forgetArray
  refine Keeps.same ?_ rfl rfl rfl rfl rfl rfl rfl rfl rfl rfl rfl
  assumption

theorem State.forgetImages_keeps {z0 z1 : State} {a1} (h1 : Keeps z0 z1) : Keeps z0 (State.forgetImages z1 a1) := by
  unfold State.forgetImages
  refine Keeps.same ?_ rfl rfl rfl rfl rfl rfl rfl rfl rfl rfl rfl
  assumption

theorem State.forgetWork_keeps {z0 z1 : State} {a1} (h1 : Keeps z0 z1) : Keeps z0 (State.forgetWork z1 a1) := by
  unfold State.forgetWork
  refine Keeps.same ?_ rfl rfl rfl rfl rfl rfl rfl rfl rfl rfl rfl
  assumption

theorem State.coreLost_keeps {z0 z1 : State} {a1} (h1 : Keeps z0 z1) : Keeps z0 (State.coreLost z1 a1) := by
  unfold State.coreLost
  extract_lets +onlyGivenNames x0
  extract_lets +onlyGivenNames x1
  refine Keeps.cut (s := z0) (t := x1) ?_ (fun _ => ?_)
  · subst x1
    refine State.setCore_keeps ?_
    refine State.cutCapture_keeps ?_
    refine State.abortTasks_keeps ?_
    assumption
  clear_value x1
  extract_lets +onlyGivenNames x2
  extract_lets +onlyGivenNames x3
  refine Keeps.cut (s := z0) (t := x3) ?_ (fun _ => ?_)
  · subst x3
    refine State.forgetImages_keeps ?_
    assumption
  clear_value x3
  extract_lets +onlyGivenNames x4
  refine Keeps.cut (s := z0) (t := x4) ?_ (fun _ => ?_)
  · subst x4
    split
    · refine State.forgetWork_keeps ?_
      assumption
    · refine State.wipe_keeps ?_
      refine State.forgetArray_keeps ?_
      assumption
  clear_value x4
  refine Keeps.update ?_ rfl rfl (fun h => by simpa [State.Sized] using h)
  assumption

theorem State.clusterLost_keeps {z0 z1 : State} {a1} (h1 : Keeps z0 z1) : Keeps z0 (State.clusterLost z1 a1) := by
  unfold State.clusterLost
  refine State.wipe_keeps ?_
  refine State.forgetArray_keeps ?_
  refine State.setClu_keeps ?_
  refine State.abortTasks_keeps ?_
  assumption

theorem State.camsLost_keeps {z0 z1 : State} {a1} (h1 : Keeps z0 z1) : Keeps z0 (State.camsLost z1 a1) := by
  unfold State.camsLost
  refine Keeps.foldl ?_ (fun _ _ _ => ?_)
  · assumption
  · refine State.setCam_keeps ?_
    refine State.wr_keeps ?_
    assumption

theorem State.setsGone_keeps {z0 z1 : State} (h1 : Keeps z0 z1) : Keeps z0 (State.setsGone z1) := by
  unfold State.setsGone
  extract_lets +onlyGivenNames x0
  refine Keeps.cut (s := z0) (t := x0) ?_ (fun _ => ?_)
  · subst x0
    refine State.abortTasks_keeps ?_
    assumption
  clear_value x0
  extract_lets +onlyGivenNames x1
  refine Keeps.update ?_ rfl rfl (fun h => by simp_all [State.Sized])
  assumption

theorem State.centralLost_keeps {z0 z1 : State} (h1 : Keeps z0 z1) : Keeps z0 (State.centralLost z1) := by
  unfold State.centralLost
  extract_lets +onlyGivenNames x0
  refine Keeps.cut (s := z0) (t := x0) ?_ (fun _ => ?_)
  · subst x0
    refine State.bodClear_keeps ?_
    refine State.setsGone_keeps ?_
    assumption
  clear_value x0
  refine Keeps.same ?_ rfl rfl rfl rfl rfl rfl rfl rfl rfl rfl rfl
  assumption

theorem State.groupLost_keeps {z0 z1 : State} {a1} (h1 : Keeps z0 z1) : Keeps z0 (State.groupLost z1 a1) := by
  unfold State.groupLost
  extract_lets +onlyGivenNames x0
  extract_lets +onlyGivenNames x1
  refine Keeps.cut (s := z0) (t := x1) ?_ (fun _ => ?_)
  · subst x1
    refine State.wipe_keeps ?_
    assumption
  clear_value x1
  refine Keeps.same ?_ rfl rfl rfl rfl rfl rfl rfl rfl rfl rfl rfl
  assumption

theorem State.ifeLost_keeps {z0 z1 : State} (h1 : Keeps z0 z1) : Keeps z0 (State.ifeLost z1) := by
  unfold State.ifeLost
  extract_lets +onlyGivenNames x0
  refine Keeps.cut (s := z0) (t := x0) ?_ (fun _ => ?_)
  · subst x0
    refine State.forgetWork_keeps ?_
    refine State.forgetImages_keeps ?_
    assumption
  clear_value x0
  refine Keeps.update ?_ rfl rfl (fun h => by simp_all [State.Sized])
  assumption

theorem State.mgcLost_keeps {z0 z1 : State} (h1 : Keeps z0 z1) : Keeps z0 (State.mgcLost z1) := by
  unfold State.mgcLost
  refine Keeps.same ?_ rfl rfl rfl rfl rfl rfl rfl rfl rfl rfl rfl
  assumption

theorem State.laneLost_keeps {z0 z1 : State} {a1} (h1 : Keeps z0 z1) : Keeps z0 (State.laneLost z1 a1) := by
  unfold State.laneLost
  split
  · refine Keeps.same ?_ rfl rfl rfl rfl rfl rfl rfl rfl rfl rfl rfl
    assumption
  · assumption

theorem State.domainLost_keeps {z0 z1 : State} {a1} (h1 : Keeps z0 z1) : Keeps z0 (State.domainLost z1 a1) := by
  unfold State.domainLost
  split
  · refine State.coreLost_keeps ?_
    assumption
  · split
    · refine State.clusterLost_keeps ?_
      assumption
    · split
      · refine State.ifeLost_keeps ?_
        assumption
      · split
        · refine State.camsLost_keeps ?_
          assumption
        · split
          · refine State.laneLost_keeps ?_
            refine State.setPort_keeps ?_
            refine State.linkDown_keeps ?_
            assumption
          · split
            · refine State.groupLost_keeps ?_
              assumption
            · split
              · extract_lets +onlyGivenNames x0
                refine Keeps.cut (s := z0) (t := x0) ?_ (fun _ => ?_)
                · subst x0
                  refine State.centralLost_keeps ?_
                  assumption
                clear_value x0
                refine Keeps.same ?_ rfl rfl rfl rfl rfl rfl rfl rfl rfl rfl rfl
                assumption
              · refine State.mgcLost_keeps ?_
                assumption

theorem State.resetPage_keeps {z0 z1 : State} {a1} (h1 : Keeps z0 z1) : Keeps z0 (State.resetPage z1 a1) := by
  unfold State.resetPage
  extract_lets +onlyGivenNames x0
  refine Keeps.cut (s := z0) (t := x0) ?_ (fun _ => ?_)
  · subst x0
    refine State.clearPage_keeps ?_
    assumption
  clear_value x0
  split
  · refine State.wr_keeps ?_
    refine State.wr_keeps ?_
    assumption
  · assumption

theorem State.clearDomain_keeps {z0 z1 : State} {a1} (h1 : Keeps z0 z1) : Keeps z0 (State.clearDomain z1 a1) := by
  unfold State.clearDomain
  extract_lets +onlyGivenNames x0
  extract_lets +onlyGivenNames x1
  refine Keeps.cut (s := z0) (t := x1) ?_ (fun _ => ?_)
  · subst x1
    refine Keeps.foldl ?_ (fun _ _ _ => ?_)
    · assumption
    · refine State.resetPage_keeps ?_
      assumption
  clear_value x1
  refine Keeps.same ?_ rfl rfl rfl rfl rfl rfl rfl rfl rfl rfl rfl
  assumption

theorem State.powerOff_keeps {z0 z1 : State} {a1} (h1 : Keeps z0 z1) : Keeps z0 (State.powerOff z1 a1) := by
  unfold State.powerOff
  extract_lets +onlyGivenNames x0
  refine Keeps.cut (s := z0) (t := x0) ?_ (fun _ => ?_)
  · subst x0
    split
    · assumption
    · refine State.clearDomain_keeps ?_
      refine State.domainLost_keeps ?_
      assumption
  clear_value x0
  extract_lets +onlyGivenNames x1
  refine Keeps.cut (s := z0) (t := x1) ?_ (fun _ => ?_)
  · subst x1
    refine State.stopTests_keeps ?_
    assumption
  clear_value x1
  extract_lets +onlyGivenNames x2
  refine Keeps.cut (s := z0) (t := x2) ?_ (fun _ => ?_)
  · subst x2
    refine State.setDomain_keeps ?_
    assumption
  clear_value x2
  refine Keeps.same ?_ rfl rfl rfl rfl rfl rfl rfl rfl rfl rfl rfl
  assumption

theorem State.powerOffAll_keeps {z0 z1 : State} {a1} (h1 : Keeps z0 z1) : Keeps z0 (State.powerOffAll z1 a1) := by
  unfold State.powerOffAll
  refine Keeps.foldl ?_ (fun _ _ _ => ?_)
  · assumption
  · refine State.powerOff_keeps ?_
    assumption

theorem State.powerOffTree_keeps {z0 z1 : State} {a1} (h1 : Keeps z0 z1) : Keeps z0 (State.powerOffTree z1 a1) := by
  unfold State.powerOffTree
  refine State.powerOffAll_keeps ?_
  assumption

theorem State.holdOff_keeps {z0 z1 : State} {a1} (h1 : Keeps z0 z1) : Keeps z0 (State.holdOff z1 a1) := by
  unfold State.holdOff
  refine Keeps.same ?_ rfl rfl rfl rfl rfl rfl rfl rfl rfl rfl rfl
  assumption

theorem State.beginOff_keeps {z0 z1 : State} {a1} (h1 : Keeps z0 z1) : Keeps z0 (State.beginOff z1 a1) := by
  unfold State.beginOff
  split
  · assumption
  · split
    · split
      · split
        · assumption
        · extract_lets +onlyGivenNames x0
          refine State.wr_keeps ?_
          refine Keeps.same ?_ rfl rfl rfl rfl rfl rfl rfl rfl rfl rfl rfl
          assumption
      · refine State.powerOff_keeps ?_
        assumption
    · refine State.powerOff_keeps ?_
      assumption

theorem State.requestOff_keeps {z0 z1 : State} {a1} (h1 : Keeps z0 z1) : Keeps z0 (State.requestOff z1 a1) := by
  unfold State.requestOff
  extract_lets +onlyGivenNames x0
  refine Keeps.cut (s := z0) (t := x0) ?_ (fun _ => ?_)
  · subst x0
    refine State.setRequest_keeps ?_
    assumption
  clear_value x0
  split
  · assumption
  · split
    · refine State.showRefused_keeps ?_
      assumption
    · extract_lets +onlyGivenNames x1
      extract_lets +onlyGivenNames x2
      refine Keeps.cut (s := z0) (t := x2) ?_ (fun _ => ?_)
      · subst x2
        refine Keeps.same ?_ rfl rfl rfl rfl rfl rfl rfl rfl rfl rfl rfl
        assumption
      clear_value x2
      split
      · assumption
      · refine State.beginOff_keeps ?_
        assumption

theorem State.settleOff_keeps {z0 z1 : State} (h1 : Keeps z0 z1) : Keeps z0 (State.settleOff z1) := by
  unfold State.settleOff
  refine Keeps.foldl ?_ (fun _ _ _ => ?_)
  · assumption
  · split
    · refine State.beginOff_keeps ?_
      assumption
    · assumption

theorem onReqAct_keeps {z0 z1 : State} {a1 a2} (h1 : Keeps z0 z1) : Keeps z0 (onReqAct z1 a1 a2) := by
  unfold onReqAct
  extract_lets +onlyGivenNames x0
  extract_lets +onlyGivenNames x1
  extract_lets +onlyGivenNames x2
  extract_lets +onlyGivenNames x3
  extract_lets +onlyGivenNames x4
  refine Keeps.foldl ?_ (fun _ _ _ => ?_)
  · refine State.requestAll_keeps ?_
    assumption
  · refine State.requestOff_keeps ?_
    assumption

/-- Entries laid over a canonical file leave it canonical. -/
theorem layRegs_wf {a b : RegFile} (h : RegFile.wf a) : RegFile.wf (layRegs a b) := by
  unfold layRegs
  induction b generalizing a with
  | nil => exact h
  | cons x b ih => exact ih (regSet_wf h)

theorem State.loadPage_keeps {z0 z1 : State} {a1} (h1 : Keeps z0 z1) : Keeps z0 (State.loadPage z1 a1) := by
  refine h1.step rfl (Nat.le_refl _) (List.suffix_refl _) id (fun x => layRegs_wf x) (fun x => layRegs_wf x) id rfl

theorem State.startDomainTests_keeps {z0 z1 : State} {a1} (h1 : Keeps z0 z1) : Keeps z0 (State.startDomainTests z1 a1) := by
  unfold State.startDomainTests
  refine Keeps.foldl ?_ (fun _ _ _ => ?_)
  · assumption
  · refine State.startIntervals_keeps ?_
    assumption

theorem State.startPll_keeps {z0 z1 : State} (h1 : Keeps z0 z1) : Keeps z0 (State.startPll z1) := by
  unfold State.startPll
  extract_lets +onlyGivenNames x0
  extract_lets +onlyGivenNames x1
  refine Keeps.cut (s := z0) (t := x1.2) ?_ (fun _ => ?_)
  · subst x1
    refine State.draw_keeps ?_
    assumption
  clear_value x1
  extract_lets +onlyGivenNames x2
  refine Keeps.cut (s := z0) (t := x2) ?_ (fun _ => ?_)
  · subst x2
    refine State.wr_keeps ?_
    refine State.wr_keeps ?_
    refine State.wr_keeps ?_
    assumption
  clear_value x2
  refine Keeps.same ?_ rfl rfl rfl rfl rfl rfl rfl rfl rfl rfl rfl
  assumption

theorem State.lightPorts_keeps {z0 z1 : State} {a1} (h1 : Keeps z0 z1) : Keeps z0 (State.lightPorts z1 a1) := by
  unfold State.lightPorts
  split
  · refine State.laneLost_keeps ?_
    refine State.linkState_keeps ?_
    refine State.setPort_keeps ?_
    assumption
  · assumption

theorem State.startDomain_keeps {z0 z1 : State} {a1} (h1 : Keeps z0 z1) : Keeps z0 (State.startDomain z1 a1) := by
  unfold State.startDomain
  extract_lets +onlyGivenNames x0
  refine Keeps.cut (s := z0) (t := x0) ?_ (fun _ => ?_)
  · subst x0
    refine Keeps.foldl ?_ (fun _ _ _ => ?_)
    · assumption
    · refine State.loadPage_keeps ?_
      assumption
  clear_value x0
  extract_lets +onlyGivenNames x1
  refine Keeps.cut (s := z0) (t := x1) ?_ (fun _ => ?_)
  · subst x1
    refine State.startDomainTests_keeps ?_
    assumption
  clear_value x1
  extract_lets +onlyGivenNames x2
  refine Keeps.cut (s := z0) (t := x2) ?_ (fun _ => ?_)
  · subst x2
    refine State.lightPorts_keeps ?_
    assumption
  clear_value x2
  split
  · refine State.showAbsent_keeps ?_
    refine State.startPll_keeps ?_
    assumption
  · split
    · refine Keeps.foldl ?_ (fun _ _ _ => ?_)
      · assumption
      · refine State.startMode_keeps ?_
        assumption
    · assumption

theorem State.leaveReset_keeps {z0 z1 : State} (h1 : Keeps z0 z1) : Keeps z0 (State.leaveReset z1) := by
  unfold State.leaveReset
  extract_lets +onlyGivenNames x0
  refine Keeps.foldl ?_ (fun _ _ _ => ?_)
  · refine Keeps.same ?_ rfl rfl rfl rfl rfl rfl rfl rfl rfl rfl rfl
    assumption
  · refine State.startDomain_keeps ?_
    assumption

theorem State.showStore_keeps {z0 z1 : State} (h1 : Keeps z0 z1) : Keeps z0 (State.showStore z1) := by
  unfold State.showStore
  extract_lets +onlyGivenNames x0
  extract_lets +onlyGivenNames x1
  refine Keeps.cut (s := z0) (t := x1) ?_ (fun _ => ?_)
  · subst x1
    refine State.wr_keeps ?_
    refine State.wr2_keeps ?_
    refine State.wr_keeps ?_
    assumption
  clear_value x1
  extract_lets +onlyGivenNames x2
  refine Keeps.cut (s := z0) (t := x2) ?_ (fun _ => ?_)
  · subst x2
    refine State.wr2_keeps ?_
    refine State.wr_keeps ?_
    assumption
  clear_value x2
  refine Keeps.foldl ?_ (fun _ _ _ => ?_)
  · assumption
  · refine State.wr_keeps ?_
    assumption

theorem State.startAllIntervals_keeps {z0 z1 : State} (h1 : Keeps z0 z1) : Keeps z0 (State.startAllIntervals z1) := by
  unfold State.startAllIntervals
  refine Keeps.foldl ?_ (fun _ _ _ => ?_)
  · assumption
  · refine State.startIntervals_keeps ?_
    assumption

theorem State.checkBringup_keeps {z0 z1 : State} (h1 : Keeps z0 z1) : Keeps z0 (State.checkBringup z1) := by
  unfold State.checkBringup
  extract_lets +onlyGivenNames x0
  split
  · assumption
  · split
    · refine State.startAllIntervals_keeps ?_
      refine State.wr_keeps ?_
      refine Keeps.same ?_ rfl rfl rfl rfl rfl rfl rfl rfl rfl rfl rfl
      assumption
    · split
      · extract_lets +onlyGivenNames x1
        refine Keeps.cut (s := z0) (t := x1) ?_ (fun _ => ?_)
        · subst x1
          refine State.wr_keeps ?_
          refine State.wr_keeps ?_
          assumption
        clear_value x1
        extract_lets +onlyGivenNames x2
        refine Keeps.cut (s := z0) (t := x2) ?_ (fun _ => ?_)
        · subst x2
          refine State.startAllIntervals_keeps ?_
          assumption
        clear_value x2
        refine Keeps.same ?_ rfl rfl rfl rfl rfl rfl rfl rfl rfl rfl rfl
        assumption
      · assumption

theorem State.mgcRequests_keeps {z0 z1 : State} (h1 : Keeps z0 z1) : Keeps z0 (State.mgcRequests z1) := by
  unfold State.mgcRequests
  split
  · extract_lets +onlyGivenNames x0
    refine State.requestAll_keeps ?_
    assumption
  · split
    · refine State.requestAll_keeps ?_
      assumption
    · refine State.requestAll_keeps ?_
      assumption

theorem State.auditStart_keeps {z0 z1 : State} {a1} (h1 : Keeps z0 z1) : Keeps z0 (State.auditStart z1 a1) := by
  unfold State.auditStart
  refine State.plinthAudit_keeps ?_
  assumption

theorem State.showRetireCounts_keeps {z0 z1 : State} (h1 : Keeps z0 z1) : Keeps z0 (State.showRetireCounts z1) := by
  unfold State.showRetireCounts
  extract_lets +onlyGivenNames x0
  extract_lets +onlyGivenNames x1
  refine State.wr_keeps ?_
  refine State.wr_keeps ?_
  assumption

theorem State.judgeUnits_keeps {z0 z1 : State} (h1 : Keeps z0 z1) : Keeps z0 (State.judgeUnits z1) := by
  unfold State.judgeUnits
  extract_lets +onlyGivenNames x0
  refine State.showRetireCounts_keeps ?_
  refine Keeps.foldl ?_ (fun _ _ _ => ?_)
  · assumption
  · extract_lets +onlyGivenNames x1
    split
    · assumption
    · split
      · refine State.unitFault_keeps ?_
        refine State.unitBit_keeps ?_
        assumption
      · refine State.unitBit_keeps ?_
        assumption

theorem State.startFirmware_keeps {z0 z1 : State} (h1 : Keeps z0 z1) : Keeps z0 (State.startFirmware z1) := by
  unfold State.startFirmware
  extract_lets +onlyGivenNames x0
  refine Keeps.cut (s := z0) (t := x0) ?_ (fun _ => ?_)
  · subst x0
    split
    · refine State.fault_keeps ?_
      refine State.count_keeps ?_
      assumption
    · assumption
  clear_value x0
  split
  · extract_lets +onlyGivenNames x1
    extract_lets +onlyGivenNames x2
    refine Keeps.cut (s := z0) (t := x2) ?_ (fun _ => ?_)
    · subst x2
      refine Keeps.same ?_ rfl rfl rfl rfl rfl rfl rfl rfl rfl rfl rfl
      assumption
    clear_value x2
    refine State.judgeUnits_keeps ?_
    refine State.auditStart_keeps ?_
    assumption
  · assumption

theorem State.becomeReady_keeps {z0 z1 : State} {a1} (h1 : Keeps z0 z1) : Keeps z0 (State.becomeReady z1 a1) := by
  unfold State.becomeReady
  extract_lets +onlyGivenNames x0
  refine Keeps.cut (s := z0) (t := x0) ?_ (fun _ => ?_)
  · subst x0
    refine State.setDomain_keeps ?_
    refine State.startDomain_keeps ?_
    assumption
  clear_value x0
  extract_lets +onlyGivenNames x1
  refine Keeps.cut (s := z0) (t := x1) ?_ (fun _ => ?_)
  · subst x1
    split
    · refine State.leaveReset_keeps ?_
      assumption
    · assumption
  clear_value x1
  extract_lets +onlyGivenNames x2
  refine Keeps.cut (s := z0) (t := x2) ?_ (fun _ => ?_)
  · subst x2
    refine State.showStore_keeps ?_
    assumption
  clear_value x2
  extract_lets +onlyGivenNames x3
  refine Keeps.cut (s := z0) (t := x3) ?_ (fun _ => ?_)
  · subst x3
    split
    · refine State.mgcRequests_keeps ?_
      split
      · assumption
      · refine State.startFirmware_keeps ?_
        assumption
    · assumption
  clear_value x3
  refine State.checkBringup_keeps ?_
  assumption

end Sys2Proof.Machine
end

