-- ==== Sys2Proof/Laws/Keeps/Armature.lean ====
section
/-! SUPPORT. The operations of Machine/Armature.lean are steps of the machine (`Keeps`). -/

set_option Elab.async false

namespace Sys2Proof.Machine

theorem State.noteRefusal_keeps {z0 z1 : State} {a1 a2} (h1 : Keeps z0 z1) : Keeps z0 (State.noteRefusal z1 a1 a2) := by
  unfold State.noteRefusal
  refine State.wr_keeps ?_
  refine State.wr_keeps ?_
  assumption

theorem State.auditOp_keeps {z0 z1 : State} {a1 a2 a3 a4 a5} (h1 : Keeps z0 z1) : Keeps z0 (State.auditOp z1 a1 a2 a3 a4 a5) := by
  unfold State.auditOp
  refine State.audit_keeps ?_
  assumption

theorem State.refuseOp_keeps {z0 z1 : State} {a1 a2 a3 a4} (h1 : Keeps z0 z1) : Keeps z0 (State.refuseOp z1 a1 a2 a3 a4).2 := by
  unfold State.refuseOp
  split
  · dsimp only
    refine State.auditOp_keeps ?_
    refine State.noteRefusal_keeps ?_
    assumption
  · dsimp only
    assumption

theorem opCheck_keeps {z0 z1 : State} {a1 a2 a3} (h1 : Keeps z0 z1) : Keeps z0 (opCheck z1 a1 a2 a3).2 := by
  unfold opCheck
  refine State.refuseOp_keeps ?_
  assumption

theorem instCheck_keeps {z0 z1 : State} {a1 a2 a3} (h1 : Keeps z0 z1) : Keeps z0 (instCheck z1 a1 a2 a3).2 := by
  unfold instCheck
  refine State.refuseOp_keeps ?_
  assumption

theorem State.beginLoad_keeps {z0 z1 : State} {a1 a2 a3 a4} (h1 : Keeps z0 z1) : Keeps z0 (State.beginLoad z1 a1 a2 a3 a4) := by
  unfold State.beginLoad
  refine State.wr_keeps ?_
  refine Keeps.same ?_ rfl rfl rfl rfl rfl rfl rfl rfl rfl rfl rfl
  assumption

theorem loadAct_keeps {z0 z1 : State} {a1 a2} (h1 : Keeps z0 z1) : Keeps z0 (loadAct z1 a1 a2) := by
  unfold loadAct
  refine State.beginLoad_keeps ?_
  assumption

theorem loadAddrAct_keeps {z0 z1 : State} {a1 a2} (h1 : Keeps z0 z1) : Keeps z0 (loadAddrAct z1 a1 a2) := by
  unfold loadAddrAct
  refine State.beginLoad_keeps ?_
  assumption

theorem State.requestPackage_keeps {z0 z1 : State} {a1} (h1 : Keeps z0 z1) : Keeps z0 (State.requestPackage z1 a1) := by
  unfold State.requestPackage
  split
  · refine State.requestAll_keeps ?_
    assumption
  · assumption

theorem State.fillMaquette_keeps {z0 z1 : State} {a1 a2 a3} (h1 : Keeps z0 z1) : Keeps z0 (State.fillMaquette z1 a1 a2 a3) := by
  unfold State.fillMaquette
  extract_lets +onlyGivenNames x0
  extract_lets +onlyGivenNames x1
  refine Keeps.cut (s := z0) (t := x1) ?_ (fun _ => ?_)
  · subst x1
    refine Keeps.same ?_ rfl rfl rfl rfl rfl rfl rfl rfl rfl rfl rfl
    assumption
  clear_value x1
  extract_lets +onlyGivenNames x2
  refine Keeps.cut (s := z0) (t := x2) ?_ (fun _ => ?_)
  · subst x2
    refine State.wr_keeps ?_
    refine State.wr_keeps ?_
    assumption
  clear_value x2
  refine State.requestPackage_keeps ?_
  refine State.lockPages_keeps ?_ ?_
  · refine State.fillWindows_keeps ?_
    assumption
  · assumption

theorem execLoadEnd_keeps {z0 z1 t0 : State} (h1 : Keeps z0 z1) (ht : execLoadEnd z1 = .next t0) :
    Keeps z0 t0 := by
  unfold execLoadEnd at ht
  cases ht
  split
  · assumption
  · extract_lets +onlyGivenNames x0
    extract_lets +onlyGivenNames x1
    refine Keeps.cut (s := z0) (t := x1) ?_ (fun _ => ?_)
    · subst x1
      refine Keeps.same ?_ rfl rfl rfl rfl rfl rfl rfl rfl rfl rfl rfl
      assumption
    clear_value x1
    split
    · extract_lets +onlyGivenNames x2
      refine Keeps.cut (s := z0) (t := x2) ?_ (fun _ => ?_)
      · subst x2
        refine State.raise_keeps ?_
        refine State.noteRefusal_keeps ?_
        refine State.wr_keeps ?_
        assumption
      clear_value x2
      refine State.auditOp_keeps ?_
      assumption
    · extract_lets +onlyGivenNames x3
      refine State.auditOp_keeps ?_
      refine State.raise_keeps ?_
      refine State.fillMaquette_keeps ?_
      assumption

theorem State.relock_keeps {z0 z1 : State} (h1 : Keeps z0 z1) : Keeps z0 (State.relock z1) := by
  unfold State.relock
  refine Keeps.update ?_ rfl rfl (fun h => by simp_all [State.Sized])
  assumption

theorem State.openPool_keeps {z0 z1 : State} {a1} (h1 : Keeps z0 z1) : Keeps z0 (State.openPool z1 a1) := by
  unfold State.openPool
  extract_lets +onlyGivenNames x0
  extract_lets +onlyGivenNames x1
  extract_lets +onlyGivenNames x2
  extract_lets +onlyGivenNames x3
  extract_lets +onlyGivenNames x4
  refine Keeps.cut (s := z0) (t := x4) ?_ (fun _ => ?_)
  · subst x4
    refine Keeps.same ?_ rfl rfl rfl rfl rfl rfl rfl rfl rfl rfl rfl
    assumption
  clear_value x4
  refine State.dropRings_keeps ?_
  assumption

theorem State.freeChannels_keeps {z0 z1 : State} {a1 a2} (h1 : Keeps z0 z1) : Keeps z0 (State.freeChannels z1 a1 a2) := by
  unfold State.freeChannels
  extract_lets +onlyGivenNames x0
  refine Keeps.foldl ?_ (fun _ _ _ => ?_)
  · assumption
  · refine State.enableCtx_keeps ?_
    refine State.setChan_keeps ?_
    assumption

theorem State.freeContexts_keeps {z0 z1 : State} {a1 a2} (h1 : Keeps z0 z1) : Keeps z0 (State.freeContexts z1 a1 a2) := by
  unfold State.freeContexts
  extract_lets +onlyGivenNames x0
  extract_lets +onlyGivenNames x1
  refine Keeps.cut (s := z0) (t := x1) ?_ (fun _ => ?_)
  · subst x1
    refine Keeps.foldl ?_ (fun _ _ _ => ?_)
    · assumption
    · refine State.enableCtx_keeps ?_
      assumption
  clear_value x1
  refine Keeps.foldl ?_ (fun _ _ _ => ?_)
  · assumption
  · refine State.enableCtx_keeps ?_
    assumption

theorem State.freeBod_keeps {z0 z1 : State} {a1 a2} (h1 : Keeps z0 z1) : Keeps z0 (State.freeBod z1 a1 a2) := by
  unfold State.freeBod
  extract_lets +onlyGivenNames x0
  extract_lets +onlyGivenNames x1
  refine Keeps.cut (s := z0) (t := x1) ?_ (fun _ => ?_)
  · subst x1
    refine Keeps.foldl ?_ (fun _ _ _ => ?_)
    · assumption
    · refine State.bodStore_keeps ?_
      assumption
  clear_value x1
  refine Keeps.foldl ?_ (fun _ _ _ => ?_)
  · assumption
  · refine State.wr_keeps ?_
    refine State.wr_keeps ?_
    assumption

theorem State.letGo_keeps {z0 z1 : State} {a1} (h1 : Keeps z0 z1) : Keeps z0 (State.letGo z1 a1) := by
  unfold State.letGo
  extract_lets +onlyGivenNames x0
  extract_lets +onlyGivenNames x1
  extract_lets +onlyGivenNames x2
  refine Keeps.cut (s := z0) (t := x2) ?_ (fun _ => ?_)
  · subst x2
    refine Keeps.same ?_ rfl rfl rfl rfl rfl rfl rfl rfl rfl rfl rfl
    assumption
  clear_value x2
  extract_lets +onlyGivenNames x3
  extract_lets +onlyGivenNames x4
  refine Keeps.cut (s := z0) (t := x4) ?_ (fun _ => ?_)
  · subst x4
    refine State.relock_keeps ?_
    refine State.freeBod_keeps ?_
    refine State.freeContexts_keeps ?_
    refine State.freeChannels_keeps ?_
    assumption
  clear_value x4
  refine Keeps.foldl ?_ (fun _ _ _ => ?_)
  · refine State.leaveSetRings_keeps ?_
    assumption
  · refine State.openPool_keeps ?_
    assumption

theorem State.settleRunning_keeps {z0 z1 : State} (h1 : Keeps z0 z1) : Keeps z0 (State.settleRunning z1) := by
  unfold State.settleRunning
  split
  · split
    · assumption
    · refine State.wr_keeps ?_
      refine State.wr_keeps ?_
      refine State.wr_keeps ?_
      refine State.letGo_keeps ?_
      assumption
  · assumption

theorem State.settleDraining_keeps {z0 z1 : State} (h1 : Keeps z0 z1) : Keeps z0 (State.settleDraining z1) := by
  unfold State.settleDraining
  refine Keeps.foldl ?_ (fun _ _ _ => ?_)
  · assumption
  · split
    · assumption
    · refine State.wr_keeps ?_
      refine State.letGo_keeps ?_
      assumption

theorem State.settleEntry_keeps {z0 z1 : State} (h1 : Keeps z0 z1) : Keeps z0 (State.settleEntry z1) := by
  unfold State.settleEntry
  split
  · split
    · split
      · assumption
      · extract_lets +onlyGivenNames x0
        extract_lets +onlyGivenNames x1
        refine Keeps.cut (s := z0) (t := x1) ?_ (fun _ => ?_)
        · subst x1
          refine Keeps.same ?_ rfl rfl rfl rfl rfl rfl rfl rfl rfl rfl rfl
          assumption
        clear_value x1
        split
        · refine State.openPool_keeps ?_
          refine State.relock_keeps ?_
          assumption
        · assumption
    · assumption
  · assumption

theorem State.settleSets_keeps {z0 z1 : State} (h1 : Keeps z0 z1) : Keeps z0 (State.settleSets z1) := by
  unfold State.settleSets
  refine State.settleEntry_keeps ?_
  refine State.settleDraining_keeps ?_
  refine State.settleRunning_keeps ?_
  assumption

theorem State.forgetSets_keeps {z0 z1 : State} (h1 : Keeps z0 z1) : Keeps z0 (State.forgetSets z1) := by
  unfold State.forgetSets
  extract_lets +onlyGivenNames x0
  extract_lets +onlyGivenNames x1
  extract_lets +onlyGivenNames x2
  split
  · assumption
  · refine Keeps.same ?_ rfl rfl rfl rfl rfl rfl rfl rfl rfl rfl rfl
    assumption

theorem State.formRunId_keeps {z0 z1 : State} {a1} (h1 : Keeps z0 z1) : Keeps z0 (State.formRunId z1 a1) := by
  unfold State.formRunId
  extract_lets +onlyGivenNames x0
  refine Keeps.foldl ?_ (fun _ _ _ => ?_)
  · assumption
  · refine State.wr_keeps ?_
    assumption

theorem State.takeCores_keeps {z0 z1 : State} {a1 a2} (h1 : Keeps z0 z1) : Keeps z0 (State.takeCores z1 a1 a2) := by
  unfold State.takeCores
  extract_lets +onlyGivenNames x0
  refine Keeps.foldl ?_ (fun _ _ _ => ?_)
  · assumption
  · split
    · refine State.abortTask_keeps ?_
      refine State.faultRec_keeps ?_
      assumption
    · assumption

theorem State.sendLists_keeps {z0 z1 : State} {a1} (h1 : Keeps z0 z1) : Keeps z0 (State.sendLists z1 a1) := by
  unfold State.sendLists
  refine Keeps.foldl ?_ (fun _ _ _ => ?_)
  · assumption
  · extract_lets +onlyGivenNames x0
    refine State.setCam_keeps ?_
    assumption

theorem State.startStream_keeps {z0 z1 : State} {a1 a2} (h1 : Keeps z0 z1) : Keeps z0 (State.startStream z1 a1 a2) := by
  unfold State.startStream
  extract_lets +onlyGivenNames x0
  extract_lets +onlyGivenNames x1
  extract_lets +onlyGivenNames x2
  refine Keeps.cut (s := z0) (t := x2) ?_ (fun _ => ?_)
  · subst x2
    refine State.setRun_keeps ?_
    assumption
  clear_value x2
  extract_lets +onlyGivenNames x3
  refine Keeps.cut (s := z0) (t := x3) ?_ (fun _ => ?_)
  · subst x3
    refine State.wr_keeps ?_
    refine State.wr_keeps ?_
    refine State.forgetImages_keeps ?_
    assumption
  clear_value x3
  extract_lets +onlyGivenNames x4
  refine Keeps.cut (s := z0) (t := x4) ?_ (fun _ => ?_)
  · subst x4
    split
    · refine State.sendTrigger_keeps ?_
      assumption
    · assumption
  clear_value x4
  split
  · refine State.loseFraming_keeps ?_
    assumption
  · split
    · refine State.loseFraming_keeps ?_
      assumption
    · assumption

theorem State.stopStream_keeps {z0 z1 : State} {a1} (h1 : Keeps z0 z1) : Keeps z0 (State.stopStream z1 a1) := by
  unfold State.stopStream
  refine State.wr_keeps ?_
  refine State.setRun_keeps ?_
  assumption

theorem State.freshContext_keeps {z0 z1 : State} {a1 a2} (h1 : Keeps z0 z1) : Keeps z0 (State.freshContext z1 a1 a2) := by
  unfold State.freshContext
  extract_lets +onlyGivenNames x0
  refine Keeps.cut (s := z0) (t := x0) ?_ (fun _ => ?_)
  · subst x0
    refine State.forgetImages_keeps ?_
    assumption
  clear_value x0
  extract_lets +onlyGivenNames x1
  extract_lets +onlyGivenNames x2
  refine Keeps.cut (s := z0) (t := x2) ?_ (fun _ => ?_)
  · subst x2
    refine Keeps.same ?_ rfl rfl rfl rfl rfl rfl rfl rfl rfl rfl rfl
    assumption
  clear_value x2
  split
  · refine State.setIfe_keeps ?_
    assumption
  · assumption

theorem State.freshContexts_keeps {z0 z1 : State} {a1 a2 a3} (h1 : Keeps z0 z1) : Keeps z0 (State.freshContexts z1 a1 a2 a3) := by
  unfold State.freshContexts
  refine Keeps.foldl h1 fun u d hu => ?_
  split
  · exact State.freshContext_keeps hu
  · exact hu

theorem State.runMaquette_keeps {z0 z1 : State} {a1 a2 a3 a4 a5} (h1 : Keeps z0 z1) : Keeps z0 (State.runMaquette z1 a1 a2 a3 a4 a5) := by
  unfold State.runMaquette
  extract_lets +onlyGivenNames x0
  extract_lets +onlyGivenNames x1
  extract_lets +onlyGivenNames x2
  extract_lets +onlyGivenNames x3
  extract_lets +onlyGivenNames x4
  extract_lets +onlyGivenNames x5
  refine Keeps.cut (s := z0) (t := x5) ?_ (fun _ => ?_)
  · subst x5
    refine State.writeSet_keeps ?_
    refine State.takeCores_keeps ?_
    assumption
  clear_value x5
  extract_lets +onlyGivenNames x6
  extract_lets +onlyGivenNames x7
  extract_lets +onlyGivenNames x8
  refine Keeps.cut (s := z0) (t := x8) ?_ (fun _ => ?_)
  · subst x8
    split
    · refine Keeps.foldl ?_ (fun _ _ _ => ?_)
      · assumption
      · refine State.stopStream_keeps ?_
        assumption
    · assumption
  clear_value x8
  extract_lets +onlyGivenNames x9
  extract_lets +onlyGivenNames x10
  refine Keeps.cut (s := z0) (t := x10) ?_ (fun _ => ?_)
  · subst x10
    refine Keeps.same ?_ rfl rfl rfl rfl rfl rfl rfl rfl rfl rfl rfl
    assumption
  clear_value x10
  extract_lets +onlyGivenNames x11
  refine Keeps.cut (s := z0) (t := x11) ?_ (fun _ => ?_)
  · subst x11
    refine Keeps.foldl ?_ (fun _ _ _ => ?_)
    · assumption
    · split
      · assumption
      · refine State.startStream_keeps ?_
        assumption
  clear_value x11
  extract_lets +onlyGivenNames x12
  refine Keeps.cut (s := z0) (t := x12) ?_ (fun _ => ?_)
  · subst x12
    refine State.formRunId_keeps ?_
    refine State.relock_keeps ?_
    refine State.freshContexts_keeps ?_
    assumption
  clear_value x12
  extract_lets +onlyGivenNames x13
  refine Keeps.cut (s := z0) (t := x13) ?_ (fun _ => ?_)
  · subst x13
    refine State.wr_keeps ?_
    refine State.wr_keeps ?_
    refine State.wr_keeps ?_
    assumption
  clear_value x13
  extract_lets +onlyGivenNames x14
  refine Keeps.cut (s := z0) (t := x14) ?_ (fun _ => ?_)
  · subst x14
    refine Keeps.foldl ?_ (fun _ _ _ => ?_)
    · assumption
    · refine State.setClu_keeps ?_
      assumption
  clear_value x14
  refine State.requestPackage_keeps ?_
  refine State.lockPages_keeps ?_ ?_
  · refine State.wr_keeps ?_
    assumption
  · assumption

theorem startAct_keeps {z0 z1 : State} (h1 : Keeps z0 z1) : Keeps z0 (startAct z1) := by
  unfold startAct
  split
  · assumption
  · extract_lets +onlyGivenNames x0
    extract_lets +onlyGivenNames x1
    extract_lets +onlyGivenNames x2
    refine Keeps.cut (s := z0) (t := x2) ?_ (fun _ => ?_)
    · subst x2
      refine Keeps.same ?_ rfl rfl rfl rfl rfl rfl rfl rfl rfl rfl rfl
      assumption
    clear_value x2
    refine State.wr_keeps ?_
    refine State.sendLists_keeps ?_
    refine State.lockPages_keeps ?_ ?_
    · refine State.writeSet_keeps ?_
      assumption
    · assumption

theorem State.dropOp_keeps {z0 z1 : State} {a1 a2 a3} (h1 : Keeps z0 z1) : Keeps z0 (State.dropOp z1 a1 a2 a3) := by
  unfold State.dropOp
  refine State.wr_keeps ?_
  refine State.noteRefusal_keeps ?_
  refine Keeps.same ?_ rfl rfl rfl rfl rfl rfl rfl rfl rfl rfl rfl
  assumption

theorem execAdmitBegin_keeps {z0 z1 t0 : State} (h1 : Keeps z0 z1) (ht : execAdmitBegin z1 = .next t0) :
    Keeps z0 t0 := by
  unfold execAdmitBegin at ht
  extract_lets +onlyGivenNames x0 at ht
  cases ht
  split
  · split
    · assumption
    · split
      · refine State.dropOp_keeps ?_
        assumption
      · extract_lets +onlyGivenNames x1
        extract_lets +onlyGivenNames x2
        extract_lets +onlyGivenNames x3
        refine Keeps.cut (s := z0) (t := x3) ?_ (fun _ => ?_)
        · subst x3
          refine Keeps.same ?_ rfl rfl rfl rfl rfl rfl rfl rfl rfl rfl rfl
          assumption
        clear_value x3
        refine State.raise_keeps ?_
        refine State.wr_keeps ?_
        refine State.runMaquette_keeps ?_
        assumption
  · assumption

theorem stopAct_keeps {z0 z1 : State} (h1 : Keeps z0 z1) : Keeps z0 (stopAct z1) := by
  unfold stopAct
  refine State.wr_keeps ?_
  refine Keeps.same ?_ rfl rfl rfl rfl rfl rfl rfl rfl rfl rfl rfl
  assumption

theorem execStopEffect_keeps {z0 z1 t0 : State} (h1 : Keeps z0 z1) (ht : execStopEffect z1 = .next t0) :
    Keeps z0 t0 := by
  unfold execStopEffect at ht
  extract_lets +onlyGivenNames x0 at ht
  cases ht
  split
  · split
    · assumption
    · extract_lets +onlyGivenNames x1
      extract_lets +onlyGivenNames x2
      refine Keeps.cut (s := z0) (t := x2) ?_ (fun _ => ?_)
      · subst x2
        refine Keeps.same ?_ rfl rfl rfl rfl rfl rfl rfl rfl rfl rfl rfl
        assumption
      clear_value x2
      extract_lets +onlyGivenNames x3
      refine Keeps.cut (s := z0) (t := x3) ?_ (fun _ => ?_)
      · subst x3
        refine Keeps.foldl ?_ (fun _ _ _ => ?_)
        · assumption
        · refine State.stopStream_keeps ?_
          assumption
      clear_value x3
      refine State.settleRunning_keeps ?_
      refine State.raise_keeps ?_
      refine State.wr_keeps ?_
      assumption
  · assumption

theorem swapAct_keeps {z0 z1 : State} (h1 : Keeps z0 z1) : Keeps z0 (swapAct z1) := by
  unfold swapAct
  split
  · assumption
  · extract_lets +onlyGivenNames x0
    extract_lets +onlyGivenNames x1
    extract_lets +onlyGivenNames x2
    refine Keeps.cut (s := z0) (t := x2) ?_ (fun _ => ?_)
    · subst x2
      refine Keeps.same ?_ rfl rfl rfl rfl rfl rfl rfl rfl rfl rfl rfl
      assumption
    clear_value x2
    refine State.wr_keeps ?_
    refine State.sendLists_keeps ?_
    assumption

theorem execCleanBoundary_keeps {z0 z1 t0 : State} (h1 : Keeps z0 z1) (ht : execCleanBoundary z1 = .next t0) :
    Keeps z0 t0 := by
  unfold execCleanBoundary at ht
  extract_lets +onlyGivenNames x0 at ht
  cases ht
  split
  · split
    · assumption
    · split
      · refine State.dropOp_keeps ?_
        assumption
      · extract_lets +onlyGivenNames x1
        extract_lets +onlyGivenNames x2
        extract_lets +onlyGivenNames x3
        refine Keeps.cut (s := z0) (t := x3) ?_ (fun _ => ?_)
        · subst x3
          refine Keeps.same ?_ rfl rfl rfl rfl rfl rfl rfl rfl rfl rfl rfl
          assumption
        clear_value x3
        extract_lets +onlyGivenNames x4
        refine Keeps.cut (s := z0) (t := x4) ?_ (fun _ => ?_)
        · subst x4
          refine State.wr_keeps ?_
          refine State.runMaquette_keeps ?_
          assumption
        clear_value x4
        refine State.settleDraining_keeps ?_
        refine State.raise_keeps ?_
        refine State.wr2_keeps ?_
        assumption
  · assumption

theorem execSwapWaitExpire_keeps {z0 z1 t0 : State} (h1 : Keeps z0 z1) (ht : execSwapWaitExpire z1 = .next t0) :
    Keeps z0 t0 := by
  unfold execSwapWaitExpire at ht
  cases ht
  split
  · split
    · refine State.dropOp_keeps ?_
      assumption
    · assumption
  · assumption
  · assumption
  · assumption

theorem discardAct_keeps {z0 z1 : State} (h1 : Keeps z0 z1) : Keeps z0 (discardAct z1) := by
  unfold discardAct
  refine State.wr_keeps ?_
  refine State.wr_keeps ?_
  refine Keeps.same ?_ rfl rfl rfl rfl rfl rfl rfl rfl rfl rfl rfl
  assumption

theorem opAct_keeps {z0 z1 : State} {a1 a2 a3} (h1 : Keeps z0 z1) : Keeps z0 (opAct z1 a1 a2 a3) := by
  unfold opAct
  split
  · refine loadAct_keeps ?_
    assumption
  · extract_lets +onlyGivenNames x0
    extract_lets +onlyGivenNames x1
    refine Keeps.cut (s := z0) (t := x1) ?_ (fun _ => ?_)
    · subst x1
      split
      · refine startAct_keeps ?_
        assumption
      · split
        · refine stopAct_keeps ?_
          assumption
        · split
          · refine swapAct_keeps ?_
            assumption
          · split
            · refine discardAct_keeps ?_
              assumption
            · assumption
    clear_value x1
    refine State.auditOp_keeps ?_
    assumption

theorem execFallbackAbort_keeps {z0 z1 t0 : State} (h1 : Keeps z0 z1) (ht : execFallbackAbort z1 = .next t0) :
    Keeps z0 t0 := by
  unfold execFallbackAbort at ht
  cases ht
  split
  · split
    · assumption
    · extract_lets +onlyGivenNames x0
      extract_lets +onlyGivenNames x1
      extract_lets +onlyGivenNames x2
      extract_lets +onlyGivenNames x3
      extract_lets +onlyGivenNames x4
      refine Keeps.cut (s := z0) (t := x4) ?_ (fun _ => ?_)
      · subst x4
        refine State.takeCores_keeps ?_
        assumption
      clear_value x4
      extract_lets +onlyGivenNames x5
      refine Keeps.cut (s := z0) (t := x5) ?_ (fun _ => ?_)
      · subst x5
        refine Keeps.foldl ?_ (fun _ _ _ => ?_)
        · assumption
        · refine State.wipe_keeps ?_
          refine State.forgetArray_keeps ?_
          assumption
      clear_value x5
      extract_lets +onlyGivenNames x6
      refine Keeps.cut (s := z0) (t := x6) ?_ (fun _ => ?_)
      · subst x6
        refine State.dropCapture_keeps ?_
        assumption
      clear_value x6
      refine Keeps.same ?_ rfl rfl rfl rfl rfl rfl rfl rfl rfl rfl rfl
      assumption
  · assumption

theorem State.moveTo_keeps {z0 z1 : State} {a1 a2 a3} (h1 : Keeps z0 z1) : Keeps z0 (State.moveTo z1 a1 a2 a3) := by
  unfold State.moveTo
  extract_lets +onlyGivenNames x0
  extract_lets +onlyGivenNames x1
  extract_lets +onlyGivenNames x2
  refine Keeps.cut (s := z0) (t := x2) ?_ (fun _ => ?_)
  · subst x2
    refine Keeps.same ?_ rfl rfl rfl rfl rfl rfl rfl rfl rfl rfl rfl
    assumption
  clear_value x2
  extract_lets +onlyGivenNames x3
  refine Keeps.cut (s := z0) (t := x3) ?_ (fun _ => ?_)
  · subst x3
    refine State.relock_keeps ?_
    refine State.writeChannels_keeps ?_
    refine State.writeContexts_keeps ?_
    assumption
  clear_value x3
  extract_lets +onlyGivenNames x4
  refine Keeps.cut (s := z0) (t := x4) ?_ (fun _ => ?_)
  · subst x4
    refine State.wr_keeps ?_
    refine State.lockPages_keeps ?_ ?_
    · assumption
    · assumption
  clear_value x4
  refine State.raise_keeps ?_
  refine State.fault_keeps ?_
  assumption

theorem execFallbackEntered_keeps {z0 z1 t0 : State} (h1 : Keeps z0 z1) (ht : execFallbackEntered z1 = .next t0) :
    Keeps z0 t0 := by
  unfold execFallbackEntered at ht
  cases ht
  split
  · assumption
  · split
    · assumption
    · extract_lets +onlyGivenNames x0
      extract_lets +onlyGivenNames x1
      refine Keeps.cut (s := z0) (t := x1) ?_ (fun _ => ?_)
      · subst x1
        refine Keeps.same ?_ rfl rfl rfl rfl rfl rfl rfl rfl rfl rfl rfl
        assumption
      clear_value x1
      split
      · assumption
      · split
        · assumption
        · split
          · refine State.addCause_keeps ?_
            assumption
          · split
            · assumption
            · refine State.moveTo_keeps ?_
              assumption

end Sys2Proof.Machine
end

