-- ==== Sys2Proof/Laws/Keeps/NodeRings.lean ====
section
/-! SUPPORT. The operations of Machine/NodeRings.lean are steps of the machine (`Keeps`). -/

set_option Elab.async false

namespace Sys2Proof.Machine

theorem State.attachNode_keeps {z0 z1 : State} {a1 a2 a3 a4} (h1 : Keeps z0 z1) : Keeps z0 (State.attachNode z1 a1 a2 a3 a4) := by
  unfold State.attachNode
  extract_lets +onlyGivenNames x0
  extract_lets +onlyGivenNames x1
  extract_lets +onlyGivenNames x2
  refine Keeps.foldl ?_ (fun _ _ _ => ?_)
  · assumption
  · refine State.ringAttach_keeps ?_
    assumption

theorem State.passSlots_keeps {z0 z1 : State} {a1 a2 a3 a4 a5} (h1 : Keeps z0 z1) : Keeps z0 (State.passSlots z1 a1 a2 a3 a4 a5) := by
  unfold State.passSlots
  refine Keeps.foldl ?_ (fun _ _ _ => ?_)
  · assumption
  · refine State.ringPut_keeps ?_
    refine State.ringTake_keeps ?_
    assumption

end Sys2Proof.Machine
end

