-- ==== Sys2Proof/Laws/Keeps/TensorExec.lean ====
section
/-! SUPPORT. The operations of Machine/TensorExec.lean are steps of the machine (`Keeps`). -/

set_option Elab.async false

namespace Sys2Proof.Machine

theorem State.sramUncorr_keeps {z0 z1 : State} {a1 a2 a3} (h1 : Keeps z0 z1) : Keeps z0 (State.sramUncorr z1 a1 a2 a3) := by
  unfold State.sramUncorr
  extract_lets +onlyGivenNames x0
  extract_lets +onlyGivenNames x1
  extract_lets +onlyGivenNames x2
  refine Keeps.cut (s := z0) (t := x2) ?_ (fun _ => ?_)
  · subst x2
    refine State.count_keeps ?_
    assumption
  clear_value x2
  split
  · refine State.setSlot_keeps ?_
    refine State.faultRec_keeps ?_
    assumption
  · refine State.taskFault_keeps ?_
    assumption

theorem State.sramDetect_keeps {z0 z1 : State} {a1} (h1 : Keeps z0 z1) : Keeps z0 (State.sramDetect z1 a1) := by
  unfold State.sramDetect
  split
  · refine State.setSlot_keeps ?_
    assumption
  · extract_lets +onlyGivenNames x0
    extract_lets +onlyGivenNames x1
    refine Keeps.cut (s := z0) (t := x1) ?_ (fun _ => ?_)
    · subst x1
      refine State.count_keeps ?_
      assumption
    clear_value x1
    split
    · refine State.setSlot_keeps ?_
      refine State.faultRec_keeps ?_
      assumption
    · refine State.taskFault_keeps ?_
      assumption

theorem State.runCmd_keeps {z0 z1 : State} {a1} (h1 : Keeps z0 z1) : Keeps z0 (State.runCmd z1 a1).1 := by
  unfold State.runCmd
  split
  · dsimp only
    refine State.runMxe_keeps ?_
    assumption
  · split
    · dsimp only
      refine State.runEltwise_keeps ?_
      assumption
    · split
      · dsimp only
        refine State.runReduce_keeps ?_
        assumption
      · split
        · dsimp only
          refine State.runLut_keeps ?_
          assumption
        · split
          · dsimp only
            refine State.runLinewise_keeps ?_
            assumption
          · split
            · split
              · refine State.runGather_keeps ?_
                assumption
              · refine State.runScatter_keeps ?_
                assumption
            · split
              · dsimp only
                refine State.runPermute_keeps ?_
                assumption
              · split
                · dsimp only
                  refine State.runConvert_keeps ?_
                  assumption
                · split
                  · refine State.runCopy_keeps ?_
                    assumption
                  · dsimp only
                    assumption

theorem State.ranCmd_keeps {z0 z1 : State} {a1} (h1 : Keeps z0 z1) : Keeps z0 (State.ranCmd z1 a1) := by
  unfold State.ranCmd
  extract_lets +onlyGivenNames x0
  refine Keeps.cut (s := z0) (t := x0) ?_ (fun _ => ?_)
  · subst x0
    refine State.busyClocks_keeps ?_
    refine State.count_keeps ?_
    assumption
  clear_value x0
  split
  · assumption
  · split
    · refine State.setSlot_keeps ?_
      assumption
    · refine State.setSlot_keeps ?_
      assumption

theorem State.endChain_keeps {z0 z1 : State} {a1 a2} (h1 : Keeps z0 z1) : Keeps z0 (State.endChain z1 a1 a2) := by
  unfold State.endChain
  extract_lets +onlyGivenNames x0
  refine Keeps.cut (s := z0) (t := x0) ?_ (fun _ => ?_)
  · subst x0
    refine State.cmdFault_keeps ?_
    refine State.bodFault_keeps ?_
    assumption
  clear_value x0
  split
  · assumption
  · split
    · refine State.setSlot_keeps ?_
      assumption
    · assumption

theorem State.execCmd_keeps {z0 z1 : State} {a1} (h1 : Keeps z0 z1) : Keeps z0 (State.execCmd z1 a1) := by
  unfold State.execCmd
  extract_lets +onlyGivenNames x0
  refine Keeps.cut (s := z0) (t := x0.1) ?_ (fun _ => ?_)
  · subst x0
    refine State.runCmd_keeps ?_
    assumption
  clear_value x0
  split
  · refine State.endChain_keeps ?_
    assumption
  · refine State.ranCmd_keeps ?_
    assumption

theorem State.ringFault_keeps {z0 z1 : State} {a1 a2 a3} (h1 : Keeps z0 z1) : Keeps z0 (State.ringFault z1 a1 a2 a3) := by
  unfold State.ringFault
  refine Keeps.foldl ?_ (fun _ _ _ => ?_)
  · assumption
  · refine State.faultRec_keeps ?_
    assumption

theorem State.runOnRings_keeps {z0 z1 : State} {a1} (h1 : Keeps z0 z1) : Keeps z0 (State.runOnRings z1 a1) := by
  unfold State.runOnRings
  extract_lets +onlyGivenNames x0
  extract_lets +onlyGivenNames x1
  split
  · refine State.execCmd_keeps ?_
    assumption
  · extract_lets +onlyGivenNames x2
    extract_lets +onlyGivenNames x3
    extract_lets +onlyGivenNames x4
    refine Keeps.cut (s := z0) (t := x4) ?_ (fun _ => ?_)
    · subst x4
      refine State.ringFault_keeps ?_
      refine State.ringFault_keeps ?_
      assumption
    clear_value x4
    extract_lets +onlyGivenNames x5
    extract_lets +onlyGivenNames x6
    refine Keeps.cut (s := z0) (t := x6) ?_ (fun _ => ?_)
    · subst x6
      refine Keeps.foldl ?_ (fun _ _ _ => ?_)
      · refine State.setSlot_keeps ?_
        assumption
      · refine State.store_keeps ?_
        assumption
    clear_value x6
    refine Keeps.foldl ?_ (fun _ _ _ => ?_)
    · refine State.execCmd_keeps ?_
      assumption
    · refine State.store_keeps ?_
      assumption

theorem State.issueRow_keeps {z0 z1 : State} {a1 a2 a3 a4 a5} (h1 : Keeps z0 z1) : Keeps z0 (State.issueRow z1 a1 a2 a3 a4 a5) := by
  unfold State.issueRow
  split
  · assumption
  · split
    · refine State.endChain_keeps ?_
      assumption
    · split
      · assumption
      · split
        · refine State.taskFault_keeps ?_
          assumption
        · split
          · refine State.setSlot_keeps ?_
            assumption
          · split
            · refine State.runOnRings_keeps ?_
              assumption
            · refine State.runOnRings_keeps ?_
              refine State.count_keeps ?_
              assumption
            · extract_lets +onlyGivenNames x0
              refine Keeps.cut (s := z0) (t := x0) ?_ (fun _ => ?_)
              · subst x0
                refine State.sramUncorr_keeps ?_
                assumption
              clear_value x0
              split
              · refine State.runOnRings_keeps ?_
                assumption
              · assumption
            · refine State.sramDetect_keeps ?_
              assumption

theorem execMatmul_keeps {z0 z1 t0 : State} {a1 a2 a3} (h1 : Keeps z0 z1) (ht : execMatmul a1 a2 a3 z1 = .next t0) :
    Keeps z0 t0 := by
  unfold execMatmul at ht
  cases ht
  refine State.issueRow_keeps ?_
  assumption

theorem execConv_keeps {z0 z1 t0 : State} {a1 a2 a3} (h1 : Keeps z0 z1) (ht : execConv a1 a2 a3 z1 = .next t0) :
    Keeps z0 t0 := by
  unfold execConv at ht
  cases ht
  refine State.issueRow_keeps ?_
  assumption

theorem execEltwiseAdd_keeps {z0 z1 t0 : State} {a1 a2 a3} (h1 : Keeps z0 z1) (ht : execEltwiseAdd a1 a2 a3 z1 = .next t0) :
    Keeps z0 t0 := by
  unfold execEltwiseAdd at ht
  cases ht
  refine State.issueRow_keeps ?_
  assumption

theorem execEltwiseSub_keeps {z0 z1 t0 : State} {a1 a2 a3} (h1 : Keeps z0 z1) (ht : execEltwiseSub a1 a2 a3 z1 = .next t0) :
    Keeps z0 t0 := by
  unfold execEltwiseSub at ht
  cases ht
  refine State.issueRow_keeps ?_
  assumption

theorem execEltwiseMul_keeps {z0 z1 t0 : State} {a1 a2 a3} (h1 : Keeps z0 z1) (ht : execEltwiseMul a1 a2 a3 z1 = .next t0) :
    Keeps z0 t0 := by
  unfold execEltwiseMul at ht
  cases ht
  refine State.issueRow_keeps ?_
  assumption

theorem execEltwiseMax_keeps {z0 z1 t0 : State} {a1 a2 a3} (h1 : Keeps z0 z1) (ht : execEltwiseMax a1 a2 a3 z1 = .next t0) :
    Keeps z0 t0 := by
  unfold execEltwiseMax at ht
  cases ht
  refine State.issueRow_keeps ?_
  assumption

theorem execEltwiseMin_keeps {z0 z1 t0 : State} {a1 a2 a3} (h1 : Keeps z0 z1) (ht : execEltwiseMin a1 a2 a3 z1 = .next t0) :
    Keeps z0 t0 := by
  unfold execEltwiseMin at ht
  cases ht
  refine State.issueRow_keeps ?_
  assumption

theorem execFma_keeps {z0 z1 t0 : State} {a1 a2 a3} (h1 : Keeps z0 z1) (ht : execFma a1 a2 a3 z1 = .next t0) :
    Keeps z0 t0 := by
  unfold execFma at ht
  cases ht
  refine State.issueRow_keeps ?_
  assumption

theorem execScaleBias_keeps {z0 z1 t0 : State} {a1 a2 a3} (h1 : Keeps z0 z1) (ht : execScaleBias a1 a2 a3 z1 = .next t0) :
    Keeps z0 t0 := by
  unfold execScaleBias at ht
  cases ht
  refine State.issueRow_keeps ?_
  assumption

theorem execAbs_keeps {z0 z1 t0 : State} {a1 a2 a3} (h1 : Keeps z0 z1) (ht : execAbs a1 a2 a3 z1 = .next t0) :
    Keeps z0 t0 := by
  unfold execAbs at ht
  cases ht
  refine State.issueRow_keeps ?_
  assumption

theorem execNeg_keeps {z0 z1 t0 : State} {a1 a2 a3} (h1 : Keeps z0 z1) (ht : execNeg a1 a2 a3 z1 = .next t0) :
    Keeps z0 t0 := by
  unfold execNeg at ht
  cases ht
  refine State.issueRow_keeps ?_
  assumption

theorem execClamp_keeps {z0 z1 t0 : State} {a1 a2 a3} (h1 : Keeps z0 z1) (ht : execClamp a1 a2 a3 z1 = .next t0) :
    Keeps z0 t0 := by
  unfold execClamp at ht
  cases ht
  refine State.issueRow_keeps ?_
  assumption

theorem execSelect_keeps {z0 z1 t0 : State} {a1 a2 a3} (h1 : Keeps z0 z1) (ht : execSelect a1 a2 a3 z1 = .next t0) :
    Keeps z0 t0 := by
  unfold execSelect at ht
  cases ht
  refine State.issueRow_keeps ?_
  assumption

theorem execCmpgt_keeps {z0 z1 t0 : State} {a1 a2 a3} (h1 : Keeps z0 z1) (ht : execCmpgt a1 a2 a3 z1 = .next t0) :
    Keeps z0 t0 := by
  unfold execCmpgt at ht
  cases ht
  refine State.issueRow_keeps ?_
  assumption

theorem execShift_keeps {z0 z1 t0 : State} {a1 a2 a3} (h1 : Keeps z0 z1) (ht : execShift a1 a2 a3 z1 = .next t0) :
    Keeps z0 t0 := by
  unfold execShift at ht
  cases ht
  refine State.issueRow_keeps ?_
  assumption

theorem execReduceSum_keeps {z0 z1 t0 : State} {a1 a2 a3} (h1 : Keeps z0 z1) (ht : execReduceSum a1 a2 a3 z1 = .next t0) :
    Keeps z0 t0 := by
  unfold execReduceSum at ht
  cases ht
  refine State.issueRow_keeps ?_
  assumption

theorem execReduceSumsq_keeps {z0 z1 t0 : State} {a1 a2 a3} (h1 : Keeps z0 z1) (ht : execReduceSumsq a1 a2 a3 z1 = .next t0) :
    Keeps z0 t0 := by
  unfold execReduceSumsq at ht
  cases ht
  refine State.issueRow_keeps ?_
  assumption

theorem execReduceMax_keeps {z0 z1 t0 : State} {a1 a2 a3} (h1 : Keeps z0 z1) (ht : execReduceMax a1 a2 a3 z1 = .next t0) :
    Keeps z0 t0 := by
  unfold execReduceMax at ht
  cases ht
  refine State.issueRow_keeps ?_
  assumption

theorem execReduceMin_keeps {z0 z1 t0 : State} {a1 a2 a3} (h1 : Keeps z0 z1) (ht : execReduceMin a1 a2 a3 z1 = .next t0) :
    Keeps z0 t0 := by
  unfold execReduceMin at ht
  cases ht
  refine State.issueRow_keeps ?_
  assumption

theorem execArgmax_keeps {z0 z1 t0 : State} {a1 a2 a3} (h1 : Keeps z0 z1) (ht : execArgmax a1 a2 a3 z1 = .next t0) :
    Keeps z0 t0 := by
  unfold execArgmax at ht
  cases ht
  refine State.issueRow_keeps ?_
  assumption

theorem execLutPwl_keeps {z0 z1 t0 : State} {a1 a2 a3} (h1 : Keeps z0 z1) (ht : execLutPwl a1 a2 a3 z1 = .next t0) :
    Keeps z0 t0 := by
  unfold execLutPwl at ht
  cases ht
  refine State.issueRow_keeps ?_
  assumption

theorem execLutDirect_keeps {z0 z1 t0 : State} {a1 a2 a3} (h1 : Keeps z0 z1) (ht : execLutDirect a1 a2 a3 z1 = .next t0) :
    Keeps z0 t0 := by
  unfold execLutDirect at ht
  cases ht
  refine State.issueRow_keeps ?_
  assumption

theorem execNormLayer_keeps {z0 z1 t0 : State} {a1 a2 a3} (h1 : Keeps z0 z1) (ht : execNormLayer a1 a2 a3 z1 = .next t0) :
    Keeps z0 t0 := by
  unfold execNormLayer at ht
  cases ht
  refine State.issueRow_keeps ?_
  assumption

theorem execNormRms_keeps {z0 z1 t0 : State} {a1 a2 a3} (h1 : Keeps z0 z1) (ht : execNormRms a1 a2 a3 z1 = .next t0) :
    Keeps z0 t0 := by
  unfold execNormRms at ht
  cases ht
  refine State.issueRow_keeps ?_
  assumption

theorem execNormL2_keeps {z0 z1 t0 : State} {a1 a2 a3} (h1 : Keeps z0 z1) (ht : execNormL2 a1 a2 a3 z1 = .next t0) :
    Keeps z0 t0 := by
  unfold execNormL2 at ht
  cases ht
  refine State.issueRow_keeps ?_
  assumption

theorem execSoftmax_keeps {z0 z1 t0 : State} {a1 a2 a3} (h1 : Keeps z0 z1) (ht : execSoftmax a1 a2 a3 z1 = .next t0) :
    Keeps z0 t0 := by
  unfold execSoftmax at ht
  cases ht
  refine State.issueRow_keeps ?_
  assumption

theorem execLogsoftmax_keeps {z0 z1 t0 : State} {a1 a2 a3} (h1 : Keeps z0 z1) (ht : execLogsoftmax a1 a2 a3 z1 = .next t0) :
    Keeps z0 t0 := by
  unfold execLogsoftmax at ht
  cases ht
  refine State.issueRow_keeps ?_
  assumption

theorem execGather_keeps {z0 z1 t0 : State} {a1 a2 a3} (h1 : Keeps z0 z1) (ht : execGather a1 a2 a3 z1 = .next t0) :
    Keeps z0 t0 := by
  unfold execGather at ht
  cases ht
  refine State.issueRow_keeps ?_
  assumption

theorem execScatter_keeps {z0 z1 t0 : State} {a1 a2 a3} (h1 : Keeps z0 z1) (ht : execScatter a1 a2 a3 z1 = .next t0) :
    Keeps z0 t0 := by
  unfold execScatter at ht
  cases ht
  refine State.issueRow_keeps ?_
  assumption

theorem execTranspose_keeps {z0 z1 t0 : State} {a1 a2 a3} (h1 : Keeps z0 z1) (ht : execTranspose a1 a2 a3 z1 = .next t0) :
    Keeps z0 t0 := by
  unfold execTranspose at ht
  cases ht
  refine State.issueRow_keeps ?_
  assumption

theorem execPermute_keeps {z0 z1 t0 : State} {a1 a2 a3} (h1 : Keeps z0 z1) (ht : execPermute a1 a2 a3 z1 = .next t0) :
    Keeps z0 t0 := by
  unfold execPermute at ht
  cases ht
  refine State.issueRow_keeps ?_
  assumption

theorem execConvert_keeps {z0 z1 t0 : State} {a1 a2 a3} (h1 : Keeps z0 z1) (ht : execConvert a1 a2 a3 z1 = .next t0) :
    Keeps z0 t0 := by
  unfold execConvert at ht
  cases ht
  refine State.issueRow_keeps ?_
  assumption

theorem execCopy_keeps {z0 z1 t0 : State} {a1 a2 a3} (h1 : Keeps z0 z1) (ht : execCopy a1 a2 a3 z1 = .next t0) :
    Keeps z0 t0 := by
  unfold execCopy at ht
  cases ht
  refine State.issueRow_keeps ?_
  assumption

theorem State.counterFault_keeps {z0 z1 : State} {a1 a2 a3 a4 a5} (h1 : Keeps z0 z1) : Keeps z0 (State.counterFault z1 a1 a2 a3 a4 a5) := by
  unfold State.counterFault
  refine State.raise_keeps ?_
  refine State.count_keeps ?_
  refine State.faultRec_keeps ?_
  assumption

theorem State.decCounter_keeps {z0 z1 : State} {a1 a2} (h1 : Keeps z0 z1) : Keeps z0 (State.decCounter z1 a1 a2).1 := by
  unfold State.decCounter
  extract_lets +onlyGivenNames x0
  extract_lets +onlyGivenNames x1
  split
  · dsimp only
    assumption
  · dsimp only
    refine State.setClu_keeps ?_
    assumption

theorem State.makeReady_keeps {z0 z1 : State} {a1 a2} (h1 : Keeps z0 z1) : Keeps z0 (State.makeReady z1 a1 a2) := by
  unfold State.makeReady
  extract_lets +onlyGivenNames x0
  extract_lets +onlyGivenNames x1
  split
  · refine State.setClu_keeps ?_
    assumption
  · refine State.setClu_keeps ?_
    assumption

theorem State.movePending_keeps {z0 z1 : State} {a1 a2} (h1 : Keeps z0 z1) : Keeps z0 (State.movePending z1 a1 a2) := by
  unfold State.movePending
  extract_lets +onlyGivenNames x0
  split
  · assumption
  · split
    · assumption
    · refine State.setClu_keeps ?_
      assumption

theorem State.taskDecrement_keeps {z0 z1 : State} {a1 a2 a3 a4} (h1 : Keeps z0 z1) : Keeps z0 (State.taskDecrement z1 a1 a2 a3 a4) := by
  unfold State.taskDecrement
  split
  · assumption
  · extract_lets +onlyGivenNames x0
    refine Keeps.cut (s := z0) (t := x0.1) ?_ (fun _ => ?_)
    · subst x0
      refine State.decCounter_keeps ?_
      assumption
    clear_value x0
    split
    · refine State.abortTask_keeps ?_
      refine State.counterFault_keeps ?_
      assumption
    · split
      · split
        · refine State.makeReady_keeps ?_
          assumption
        · assumption
      · assumption

theorem State.issueSync_keeps {z0 z1 : State} {a1 a2 a3 a4} (h1 : Keeps z0 z1) (hf : ∀ x s, Keeps z0 s → Keeps z0 (a4 x s)) : Keeps z0 (State.issueSync z1 a1 a2 a3 a4) := by
  unfold State.issueSync
  split
  · exact h1
  · split
    · exact State.endChain_keeps h1
    · split
      · exact h1
      · split
        · exact State.setSlot_keeps h1
        · exact State.ranCmd_keeps (hf _ _ h1)

theorem execSetFlag_keeps {z0 z1 t0 : State} {a1 a2} (h1 : Keeps z0 z1) (ht : execSetFlag a1 a2 z1 = .next t0) :
    Keeps z0 t0 := by
  unfold execSetFlag at ht
  cases ht
  refine State.issueSync_keeps ?_ ?_
  · assumption
  · intro _
    intro _
    intro _
    extract_lets +onlyGivenNames x0
    extract_lets +onlyGivenNames x1
    split
    · refine State.cmdFault_keeps ?_
      assumption
    · split
      · assumption
      · refine State.setClu_keeps ?_
        assumption

theorem execDecrement_keeps {z0 z1 t0 : State} {a1 a2} (h1 : Keeps z0 z1) (ht : execDecrement a1 a2 z1 = .next t0) :
    Keeps z0 t0 := by
  unfold execDecrement at ht
  cases ht
  refine State.issueSync_keeps ?_ ?_
  · assumption
  · intro _
    intro _
    intro _
    split
    · extract_lets +onlyGivenNames x0
      refine Keeps.cut (s := z0) (t := x0.1) ?_ (fun _ => ?_)
      · subst x0
        refine State.decCounter_keeps ?_
        assumption
      clear_value x0
      split
      · refine State.setSlot_keeps ?_
        refine State.counterFault_keeps ?_
        assumption
      · assumption
    · split
      · refine State.taskDecrement_keeps ?_
        assumption
      · assumption

theorem execFence_keeps {z0 z1 t0 : State} {a1 a2} (h1 : Keeps z0 z1) (ht : execFence a1 a2 z1 = .next t0) :
    Keeps z0 t0 := by
  unfold execFence at ht
  cases ht
  refine State.issueSync_keeps ?_ ?_
  · assumption
  · intro _
    intro _
    intro _
    assumption

theorem execChainComplete_keeps {z0 z1 t0 : State} {a1 a2} (h1 : Keeps z0 z1) (ht : execChainComplete a1 a2 z1 = .next t0) :
    Keeps z0 t0 := by
  unfold execChainComplete at ht
  cases ht
  split
  · exact h1
  · split
    · exact h1
    · extract_lets last s2
      refine State.setSlot_keeps ?_
      subst s2
      split
      · exact State.passSlots_keeps h1
      · exact h1

theorem State.applyContribution_keeps {z0 z1 : State} {a1} (h1 : Keeps z0 z1) : Keeps z0 (State.applyContribution z1 a1) := by
  unfold State.applyContribution
  extract_lets +onlyGivenNames x0
  refine Keeps.foldl ?_ (fun _ _ _ => ?_)
  · assumption
  · refine State.store_keeps ?_
    refine State.markWrite_keeps ?_
    assumption

theorem execOrderedCombine_keeps {z0 z1 t0 : State} {a1} (h1 : Keeps z0 z1) (ht : execOrderedCombine a1 z1 = .next t0) :
    Keeps z0 t0 := by
  unfold execOrderedCombine at ht
  cases ht
  dsimp only
  split
  · exact h1
  · refine State.count_keeps (State.applyContribution_keeps (State.draw_keeps ?_))
    exact Keeps.same h1 rfl rfl rfl rfl rfl rfl rfl rfl rfl rfl rfl

theorem State.restart_keeps {z0 z1 : State} {a1 a2} (h1 : Keeps z0 z1) : Keeps z0 (State.restart z1 a1 a2) := by
  unfold State.restart
  refine State.setSlot_keeps ?_
  refine State.count_keeps ?_
  refine State.faultRec_keeps ?_
  assumption

theorem execOpenRerun_keeps {z0 z1 t0 : State} {a1 a2} (h1 : Keeps z0 z1) (ht : execOpenRerun a1 a2 z1 = .next t0) :
    Keeps z0 t0 := by
  unfold execOpenRerun at ht
  cases ht
  split
  · split
    · refine State.restart_keeps ?_
      assumption
    · assumption
  · assumption

theorem execRerunStart_keeps {z0 z1 t0 : State} {a1} (h1 : Keeps z0 z1) (ht : execRerunStart a1 z1 = .next t0) :
    Keeps z0 t0 := by
  unfold execRerunStart at ht
  obtain rfl := Host.Outcome.next.inj ht
  refine Keeps.foldl h1 fun u k hu => Keeps.foldl hu fun v n hv => ?_
  split
  · exact hv
  · split
    · exact State.restart_keeps hv
    · exact State.setSlot_keeps hv

theorem execRingWaitRelease_keeps {z0 z1 t0 : State} {a1 a2} (h1 : Keeps z0 z1) (ht : execRingWaitRelease a1 a2 z1 = .next t0) :
    Keeps z0 t0 := by
  unfold execRingWaitRelease at ht
  cases ht
  split
  · assumption
  · split
    · assumption
    · split
      · assumption
      · split
        · assumption
        · refine State.setSlot_keeps ?_
          assumption

theorem execRingWatchdog_keeps {z0 z1 t0 : State} {a1 a2} (h1 : Keeps z0 z1) (ht : execRingWatchdog a1 a2 z1 = .next t0) :
    Keeps z0 t0 := by
  unfold execRingWatchdog at ht
  cases ht
  split
  · assumption
  · split
    · assumption
    · extract_lets +onlyGivenNames x0
      split
      · assumption
      · refine State.taskFault_keeps ?_
        refine State.count_keeps ?_
        assumption

theorem execNodeDispatch_keeps {z0 z1 t0 : State} {a1} (h1 : Keeps z0 z1) (ht : execNodeDispatch a1 z1 = .next t0) :
    Keeps z0 t0 := by
  unfold execNodeDispatch at ht
  extract_lets +onlyGivenNames x0 at ht
  extract_lets +onlyGivenNames x1 at ht
  extract_lets +onlyGivenNames x2 at ht
  extract_lets +onlyGivenNames x3 at ht
  extract_lets +onlyGivenNames x4 at ht
  extract_lets +onlyGivenNames x5 at ht
  cases ht
  split
  · assumption
  · split
    · assumption
    · extract_lets +onlyGivenNames x6
      extract_lets +onlyGivenNames x7
      extract_lets +onlyGivenNames x8
      extract_lets +onlyGivenNames x9
      refine Keeps.cut (s := z0) (t := x9) ?_ (fun _ => ?_)
      · subst x9
        refine State.movePending_keeps ?_
        refine State.setClu_keeps ?_
        assumption
      clear_value x9
      refine State.setCore_keeps ?_
      assumption

theorem State.releaseSuccessors_keeps {z0 z1 : State} {a1 a2 a3} (h1 : Keeps z0 z1) : Keeps z0 (State.releaseSuccessors z1 a1 a2 a3) := by
  unfold State.releaseSuccessors
  refine Keeps.foldl ?_ (fun _ _ _ => ?_)
  · assumption
  · refine State.taskDecrement_keeps ?_
    assumption

theorem State.openRings_keeps {z0 z1 : State} {a1 a2 a3} (h1 : Keeps z0 z1) : Keeps z0 (State.openRings z1 a1 a2 a3) := by
  unfold State.openRings
  extract_lets who s1 s2
  have hs1 : Keeps z0 s1 := Keeps.foldl h1 fun u r hu => by
    split
    · exact State.ringTake_keeps hu
    · exact hu
  have hs2 : Keeps z0 s2 := Keeps.foldl hs1 fun u r hu => by
    split
    · exact State.ringPut_keeps hu
    · exact hu
  split
  · exact State.passSlots_keeps hs2
  · exact hs2

theorem State.logOpen_keeps {z0 z1 z2 : State} {a1 a2} (h1 : Keeps z0 z1) (h2 : Keeps z0 z2) : Keeps z0 (State.logOpen z1 z2 a1 a2) := by
  unfold State.logOpen
  split
  · refine State.logDigest_keeps ?_
    assumption
  · assumption

theorem State.countRun_keeps {z0 z1 : State} {a1} (h1 : Keeps z0 z1) : Keeps z0 (State.countRun z1 a1) := by
  unfold State.countRun
  extract_lets +onlyGivenNames x0
  extract_lets +onlyGivenNames x1
  refine Keeps.same ?_ rfl rfl rfl rfl rfl rfl rfl rfl rfl rfl rfl
  assumption

theorem State.openDone_keeps {z0 z1 : State} {a1 a2 a3} (h1 : Keeps z0 z1) : Keeps z0 (State.openDone z1 a1 a2 a3) := by
  unfold State.openDone
  extract_lets +onlyGivenNames x0
  refine Keeps.cut (s := z0) (t := x0) ?_ (fun _ => ?_)
  · subst x0
    refine State.openRings_keeps ?_
    refine State.freeSlot_keeps ?_
    assumption
  clear_value x0
  split
  · assumption
  · extract_lets +onlyGivenNames x1
    extract_lets +onlyGivenNames x2
    refine Keeps.cut (s := z0) (t := x2) ?_ (fun _ => ?_)
    · subst x2
      refine State.releaseSuccessors_keeps ?_
      refine State.countRun_keeps ?_
      refine State.logOpen_keeps ?_ ?_
      · refine State.setTask_keeps ?_
        assumption
      · assumption
    clear_value x2
    split
    · assumption
    · split
      · refine State.completeTask_keeps ?_
        assumption
      · assumption

end Sys2Proof.Machine
end

