-- ==== Sys2Proof/Laws/Keeps/Engines.lean ====
section
/-! SUPPORT. The operations of Machine/Engines.lean are steps of the machine (`Keeps`). -/

set_option Elab.async false

namespace Sys2Proof.Machine

theorem State.putRows_keeps {z0 z1 : State} {a1 a2 a3} (h1 : Keeps z0 z1) : Keeps z0 (State.putRows z1 a1 a2 a3) := by
  unfold State.putRows
  refine Keeps.foldl ?_ (fun _ _ _ => ?_)
  · assumption
  · refine State.putRow_keeps ?_
    assumption

theorem State.completeImage_keeps {z0 z1 : State} {a1 a2} (h1 : Keeps z0 z1) : Keeps z0 (State.completeImage z1 a1 a2) := by
  unfold State.completeImage
  refine Keeps.same ?_ rfl rfl rfl rfl rfl rfl rfl rfl rfl rfl rfl
  assumption

theorem State.sgeStrip_keeps {z0 z1 : State} {a1 a2 a3 a4 a5 a6 a7} (h1 : Keeps z0 z1) : Keeps z0 (State.sgeStrip z1 a1 a2 a3 a4 a5 a6 a7) := by
  unfold State.sgeStrip
  extract_lets +onlyGivenNames x0
  extract_lets +onlyGivenNames x1
  extract_lets +onlyGivenNames x2
  extract_lets +onlyGivenNames x3
  extract_lets +onlyGivenNames x4
  refine Keeps.cut (s := z0) (t := x4) ?_ (fun _ => ?_)
  · subst x4
    refine State.putRows_keeps ?_
    assumption
  clear_value x4
  extract_lets +onlyGivenNames x5
  refine Keeps.cut (s := z0) (t := x5) ?_ (fun _ => ?_)
  · subst x5
    split
    · refine State.putRows_keeps ?_
      assumption
    · assumption
  clear_value x5
  extract_lets +onlyGivenNames x6
  refine Keeps.cut (s := z0) (t := x6) ?_ (fun _ => ?_)
  · subst x6
    split
    · refine State.putRows_keeps ?_
      assumption
    · assumption
  clear_value x6
  split
  · assumption
  · extract_lets +onlyGivenNames x7
    extract_lets +onlyGivenNames x8
    refine Keeps.cut (s := z0) (t := x8) ?_ (fun _ => ?_)
    · subst x8
      refine Keeps.foldl ?_ (fun _ _ _ => ?_)
      · assumption
      · refine State.wr_keeps ?_
        assumption
    clear_value x8
    refine State.completeImage_keeps ?_
    refine State.raise_keeps ?_
    refine State.wr_keeps ?_
    assumption

theorem State.ofeStrip_keeps {z0 z1 : State} {a1 a2 a3 a4 a5 a6 a7} (h1 : Keeps z0 z1) : Keeps z0 (State.ofeStrip z1 a1 a2 a3 a4 a5 a6 a7) := by
  unfold State.ofeStrip
  extract_lets +onlyGivenNames x0
  extract_lets +onlyGivenNames x1
  extract_lets +onlyGivenNames x2
  extract_lets +onlyGivenNames x3
  refine Keeps.cut (s := z0) (t := x3) ?_ (fun _ => ?_)
  · subst x3
    refine State.putRows_keeps ?_
    assumption
  clear_value x3
  split
  · assumption
  · extract_lets +onlyGivenNames x4
    extract_lets +onlyGivenNames x5
    refine Keeps.cut (s := z0) (t := x5) ?_ (fun _ => ?_)
    · subst x5
      refine Keeps.foldl ?_ (fun _ _ _ => ?_)
      · assumption
      · refine State.wr_keeps ?_
        assumption
    clear_value x5
    refine State.completeImage_keeps ?_
    refine State.raise_keeps ?_
    refine State.wr_keeps ?_
    assumption

theorem State.fpeList_keeps {z0 z1 : State} {a1 a2 a3 a4 a5} (h1 : Keeps z0 z1) : Keeps z0 (State.fpeList z1 a1 a2 a3 a4 a5) := by
  unfold State.fpeList
  extract_lets +onlyGivenNames x0
  extract_lets +onlyGivenNames x1
  refine Keeps.cut (s := z0) (t := x1) ?_ (fun _ => ?_)
  · subst x1
    refine State.putRow_keeps ?_
    assumption
  clear_value x1
  extract_lets +onlyGivenNames x2
  refine Keeps.cut (s := z0) (t := x2) ?_ (fun _ => ?_)
  · subst x2
    refine State.wr_keeps ?_
    refine State.wr_keeps ?_
    refine State.wr_keeps ?_
    assumption
  clear_value x2
  extract_lets +onlyGivenNames x3
  refine Keeps.cut (s := z0) (t := x3) ?_ (fun _ => ?_)
  · subst x3
    split
    · refine State.count_keeps ?_
      refine State.raise_keeps ?_
      assumption
    · assumption
  clear_value x3
  refine State.completeImage_keeps ?_
  refine State.raise_keeps ?_
  assumption

theorem State.fpeMatch_keeps {z0 z1 : State} {a1 a2 a3} (h1 : Keeps z0 z1) : Keeps z0 (State.fpeMatch z1 a1 a2 a3) := by
  unfold State.fpeMatch
  extract_lets +onlyGivenNames x0
  extract_lets +onlyGivenNames x1
  extract_lets +onlyGivenNames x2
  extract_lets +onlyGivenNames x3
  extract_lets +onlyGivenNames x4
  extract_lets +onlyGivenNames x5
  extract_lets +onlyGivenNames x6
  extract_lets +onlyGivenNames x7
  extract_lets +onlyGivenNames x8
  extract_lets +onlyGivenNames x9
  refine State.completeImage_keeps ?_
  refine State.raise_keeps ?_
  refine State.putRow_keeps ?_
  assumption

theorem State.wpeStrip_keeps {z0 z1 : State} {a1 a2 a3 a4 a5 a6 a7} (h1 : Keeps z0 z1) : Keeps z0 (State.wpeStrip z1 a1 a2 a3 a4 a5 a6 a7).1 := by
  unfold State.wpeStrip
  extract_lets +onlyGivenNames x0
  extract_lets +onlyGivenNames x1
  extract_lets +onlyGivenNames x2
  extract_lets +onlyGivenNames x3
  extract_lets +onlyGivenNames x4
  extract_lets +onlyGivenNames x5
  refine Keeps.cut (s := z0) (t := x5) ?_ (fun _ => ?_)
  · subst x5
    refine State.putRows_keeps ?_
    assumption
  clear_value x5
  extract_lets +onlyGivenNames x6
  refine Keeps.cut (s := z0) (t := x6) ?_ (fun _ => ?_)
  · subst x6
    refine State.count_keeps ?_
    assumption
  clear_value x6
  extract_lets +onlyGivenNames x7
  refine Keeps.cut (s := z0) (t := x7) ?_ (fun _ => ?_)
  · subst x7
    split
    · refine State.fault_keeps ?_
      assumption
    · assumption
  clear_value x7
  extract_lets +onlyGivenNames x8
  refine Keeps.cut (s := z0) (t := x8) ?_ (fun _ => ?_)
  · subst x8
    split
    · refine State.raise_keeps ?_
      refine State.fault_keeps ?_
      assumption
    · assumption
  clear_value x8
  dsimp only
  split
  · refine State.completeImage_keeps ?_
    refine State.raise_keeps ?_
    refine State.wr_keeps ?_
    assumption
  · assumption

theorem State.pyeStrip_keeps {z0 z1 : State} {a1 a2 a3 a4 a5 a6 a7} (h1 : Keeps z0 z1) : Keeps z0 (State.pyeStrip z1 a1 a2 a3 a4 a5 a6 a7) := by
  unfold State.pyeStrip
  extract_lets +onlyGivenNames g sz img lv wide laps putLevel
  have hp {t : State} {o l : Nat} {v : Level} {w : Nat} (h : Keeps z0 t) : Keeps z0 (putLevel t o l v w) := by
    subst putLevel
    exact State.count_keeps (State.putRows_keeps h)
  clear_value putLevel
  extract_lets +onlyGivenNames s1 s2
  have hs1 : Keeps z0 s1 := Keeps.foldl h1 fun _ _ h => hp h
  clear_value s1
  have hs2 : Keeps z0 s2 := by
    subst s2
    split
    · exact Keeps.foldl hs1 fun _ _ h => hp h
    · exact hs1
  clear_value s2
  split
  · exact hs2
  · exact State.completeImage_keeps (State.raise_keeps (State.wr_keeps (State.wr_keeps hs2)))

theorem State.noteInput_keeps {z0 z1 : State} {a1 a2 a3 a4} (h1 : Keeps z0 z1) : Keeps z0 (State.noteInput z1 a1 a2 a3 a4) := by
  unfold State.noteInput
  extract_lets +onlyGivenNames x0
  refine Keeps.same ?_ rfl rfl rfl rfl rfl rfl rfl rfl rfl rfl rfl
  assumption

theorem State.sgeCheck_keeps {z0 z1 : State} {a1 a2 a3 a4 a5} (h1 : Keeps z0 z1) : Keeps z0 (State.sgeCheck z1 a1 a2 a3 a4 a5) := by
  unfold State.sgeCheck
  extract_lets +onlyGivenNames x0
  extract_lets +onlyGivenNames x1
  extract_lets +onlyGivenNames x2
  refine Keeps.cut (s := z0) (t := x2) ?_ (fun _ => ?_)
  · subst x2
    refine State.wr_keeps ?_
    refine State.noteInput_keeps ?_
    assumption
  clear_value x2
  split
  · assumption
  · extract_lets +onlyGivenNames x3
    refine Keeps.cut (s := z0) (t := x3) ?_ (fun _ => ?_)
    · subst x3
      refine State.raise_keeps ?_
      refine State.count_keeps ?_
      assumption
    clear_value x3
    split
    · refine State.fault_keeps ?_
      assumption
    · assumption

theorem State.ofeCheck_keeps {z0 z1 : State} {a1 a2 a3 a4 a5} (h1 : Keeps z0 z1) : Keeps z0 (State.ofeCheck z1 a1 a2 a3 a4 a5) := by
  unfold State.ofeCheck
  extract_lets +onlyGivenNames x0
  extract_lets +onlyGivenNames x1
  extract_lets +onlyGivenNames x2
  extract_lets +onlyGivenNames x3
  extract_lets +onlyGivenNames x4
  extract_lets +onlyGivenNames x5
  refine Keeps.cut (s := z0) (t := x5) ?_ (fun _ => ?_)
  · subst x5
    refine State.wr_keeps ?_
    refine State.noteInput_keeps ?_
    assumption
  clear_value x5
  extract_lets +onlyGivenNames x6
  refine Keeps.cut (s := z0) (t := x6) ?_ (fun _ => ?_)
  · subst x6
    split
    · assumption
    · refine State.raise_keeps ?_
      assumption
  clear_value x6
  extract_lets +onlyGivenNames x7
  refine Keeps.cut (s := z0) (t := x7) ?_ (fun _ => ?_)
  · subst x7
    refine State.wr_keeps ?_
    refine State.noteInput_keeps ?_
    assumption
  clear_value x7
  split
  · assumption
  · extract_lets +onlyGivenNames x8
    refine Keeps.cut (s := z0) (t := x8) ?_ (fun _ => ?_)
    · subst x8
      refine State.raise_keeps ?_
      refine State.count_keeps ?_
      assumption
    clear_value x8
    split
    · refine State.fault_keeps ?_
      assumption
    · assumption

theorem State.matchCheck_keeps {z0 z1 : State} {a1 a2 a3 a4} (h1 : Keeps z0 z1) : Keeps z0 (State.matchCheck z1 a1 a2 a3 a4) := by
  unfold State.matchCheck
  extract_lets +onlyGivenNames x0
  extract_lets +onlyGivenNames x1
  refine Keeps.cut (s := z0) (t := x1) ?_ (fun _ => ?_)
  · subst x1
    refine State.noteInput_keeps ?_
    assumption
  clear_value x1
  split
  · refine State.fault_keeps ?_
    assumption
  · assumption

theorem State.engineCheck_keeps {z0 z1 : State} {a1 a2 a3 a4 a5} (h1 : Keeps z0 z1) : Keeps z0 (State.engineCheck z1 a1 a2 a3 a4 a5) := by
  unfold State.engineCheck
  split
  · assumption
  · split
    · refine State.sgeCheck_keeps ?_
      assumption
    · split
      · refine State.ofeCheck_keeps ?_
        assumption
      · split
        · refine State.matchCheck_keeps ?_
          assumption
        · assumption

theorem State.engineStrip_keeps {z0 z1 : State} {a1 a2 a3 a4 a5 a6 a7 a8 a9} (h1 : Keeps z0 z1) : Keeps z0 (State.engineStrip z1 a1 a2 a3 a4 a5 a6 a7 a8 a9).1 := by
  unfold State.engineStrip
  extract_lets +onlyGivenNames x0
  extract_lets +onlyGivenNames x1
  split
  · dsimp only
    refine State.sgeStrip_keeps ?_
    assumption
  · dsimp only
    refine State.ofeStrip_keeps ?_
    assumption
  · dsimp only
    refine State.fpeList_keeps ?_
    assumption
  · dsimp only
    refine State.fpeMatch_keeps ?_
    assumption
  · refine State.wpeStrip_keeps ?_
    assumption
  · dsimp only
    refine State.pyeStrip_keeps ?_
    assumption
  · dsimp only
    refine State.ifeStrip_keeps ?_
    assumption
  · dsimp only
    assumption

theorem State.lineCorrected_keeps {z0 z1 : State} {a1 a2 a3} (h1 : Keeps z0 z1) : Keeps z0 (State.lineCorrected z1 a1 a2 a3) := by
  unfold State.lineCorrected
  split
  · refine State.count_keeps ?_
    assumption
  · refine State.count_keeps ?_
    assumption
  · refine State.count_keeps ?_
    assumption
  · refine State.count_keeps ?_
    assumption
  · refine State.count_keeps ?_
    assumption
  · refine State.count_keeps ?_
    assumption
  · refine State.count_keeps ?_
    assumption
  · assumption

theorem State.lineUncorr_keeps {z0 z1 : State} {a1 a2} (h1 : Keeps z0 z1) : Keeps z0 (State.lineUncorr z1 a1 a2) := by
  unfold State.lineUncorr
  split
  · refine State.raise_keeps ?_
    refine State.count_keeps ?_
    assumption
  · refine State.raise_keeps ?_
    refine State.count_keeps ?_
    assumption
  · refine State.raise_keeps ?_
    refine State.count_keeps ?_
    assumption
  · refine State.raise_keeps ?_
    refine State.count_keeps ?_
    assumption
  · refine State.raise_keeps ?_
    refine State.count_keeps ?_
    assumption
  · refine State.raise_keeps ?_
    refine State.count_keeps ?_
    assumption
  · assumption

theorem State.lineCheck_keeps {z0 z1 : State} {a1 a2 a3 a4} (h1 : Keeps z0 z1) : Keeps z0 (State.lineCheck z1 a1 a2 a3 a4).1 := by
  unfold State.lineCheck
  split
  · dsimp only
    assumption
  · dsimp only
    refine State.lineCorrected_keeps ?_
    assumption
  · extract_lets +onlyGivenNames x0
    extract_lets +onlyGivenNames x1
    extract_lets +onlyGivenNames x2
    extract_lets +onlyGivenNames x3
    refine Keeps.cut (s := z0) (t := x3) ?_ (fun _ => ?_)
    · subst x3
      refine Keeps.same ?_ rfl rfl rfl rfl rfl rfl rfl rfl rfl rfl rfl
      assumption
    clear_value x3
    dsimp only
    refine State.fault_keeps ?_
    refine State.lineUncorr_keeps ?_
    assumption

theorem execNodeComplete_keeps {z0 z1 t0 : State} {a1 a2 a3} (h1 : Keeps z0 z1) (ht : execNodeComplete a1 a2 a3 z1 = .next t0) :
    Keeps z0 t0 := by
  unfold execNodeComplete at ht
  cases ht
  split
  · assumption
  · split
    · assumption
    · split
      · assumption
      · extract_lets +onlyGivenNames x0
        extract_lets +onlyGivenNames x1
        extract_lets +onlyGivenNames x2
        split
        · refine State.openDone_keeps ?_
          assumption
        · split
          · refine State.taskFault_keeps ?_
            assumption
          · split
            · assumption
            · extract_lets +onlyGivenNames x3
              refine Keeps.cut (s := z0) (t := x3.1) ?_ (fun _ => ?_)
              · subst x3
                refine State.lineCheck_keeps ?_
                refine State.engineCheck_keeps ?_
                assumption
              clear_value x3
              extract_lets +onlyGivenNames x4
              refine Keeps.cut (s := z0) (t := x4.1) ?_ (fun _ => ?_)
              · subst x4
                refine State.engineStrip_keeps ?_
                assumption
              clear_value x4
              split
              · refine State.abortTask_keeps ?_
                assumption
              · refine State.openDone_keeps ?_
                assumption

end Sys2Proof.Machine
end

