-- ==== Sys2Proof/Laws/Keeps/Nodes.lean ====
section
/-! SUPPORT. The operations of Machine/Nodes.lean are steps of the machine (`Keeps`). -/

set_option Elab.async false

namespace Sys2Proof.Machine

theorem State.endLost_keeps {z0 z1 : State} {a1 a2} (h1 : Keeps z0 z1) : Keeps z0 (State.endLost z1 a1 a2) := by
  unfold State.endLost
  split
  · split
    · refine State.showLost_keeps ?_
      refine State.setCam_keeps ?_
      assumption
    · assumption
  · assumption

theorem State.frameChecks_keeps {z0 z1 : State} {a1 a2 a3} (h1 : Keeps z0 z1) : Keeps z0 (State.frameChecks z1 a1 a2 a3) := by
  unfold State.frameChecks
  refine Keeps.foldl ?_ (fun _ _ _ => ?_)
  · assumption
  · extract_lets +onlyGivenNames x0
    split
    · refine State.motionCheck_keeps ?_
      assumption
    · split
      · refine State.engineCheck_keeps ?_
        assumption
      · assumption

theorem State.admitOne_keeps {z0 z1 : State} {a1 a2 a3 a4} (h1 : Keeps z0 z1) : Keeps z0 (State.admitOne z1 a1 a2 a3 a4) := by
  unfold State.admitOne
  extract_lets +onlyGivenNames x0
  extract_lets +onlyGivenNames x1
  extract_lets +onlyGivenNames x2
  extract_lets +onlyGivenNames x3
  extract_lets +onlyGivenNames x4
  extract_lets +onlyGivenNames x5
  extract_lets +onlyGivenNames x6
  refine Keeps.cut (s := z0) (t := x6) ?_ (fun _ => ?_)
  · subst x6
    refine State.setRun_keeps ?_
    refine State.endLost_keeps ?_
    assumption
  clear_value x6
  split
  · assumption
  · extract_lets +onlyGivenNames x7
    refine Keeps.cut (s := z0) (t := x7) ?_ (fun _ => ?_)
    · subst x7
      split
      · refine State.frameChecks_keeps ?_
        assumption
      · assumption
    clear_value x7
    extract_lets +onlyGivenNames x8
    refine Keeps.same ?_ rfl rfl rfl rfl rfl rfl rfl rfl rfl rfl rfl
    assumption

theorem State.admitStrips_keeps {z0 z1 : State} {a1} (h1 : Keeps z0 z1) : Keeps z0 (State.admitStrips z1 a1) := by
  unfold State.admitStrips
  refine Keeps.foldl ?_ (fun _ _ _ => ?_)
  · assumption
  · refine Keeps.foldl ?_ (fun _ _ _ => ?_)
    · assumption
    · refine State.admitOne_keeps ?_
      assumption

theorem execRowDeadline_keeps {z0 z1 t0 : State} {a1 a2 a3} (h1 : Keeps z0 z1) (ht : execRowDeadline a1 a2 a3 z1 = .next t0) :
    Keeps z0 t0 := by
  unfold execRowDeadline at ht
  extract_lets +onlyGivenNames x0 at ht
  cases ht
  split
  · extract_lets +onlyGivenNames x1
    refine Keeps.cut (s := z0) (t := x1) ?_ (fun _ => ?_)
    · subst x1
      refine State.missRow_keeps ?_
      assumption
    clear_value x1
    split
    · refine State.admitStrips_keeps ?_
      assumption
    · assumption
  · assumption

theorem State.flagFault_keeps {z0 z1 : State} {a1 a2 a3 a4} (h1 : Keeps z0 z1) : Keeps z0 (State.flagFault z1 a1 a2 a3 a4) := by
  unfold State.flagFault
  refine State.raise_keeps ?_
  refine State.count_keeps ?_
  refine State.faultRec_keeps ?_
  assumption

theorem State.checkFlags_keeps {z0 z1 : State} {a1 a2 a3 a4} (h1 : Keeps z0 z1) : Keeps z0 (State.checkFlags z1 a1 a2 a3 a4).1 := by
  unfold State.checkFlags
  refine Keeps.foldl_fst ?_ (fun _ _ _ => ?_)
  · dsimp only
    assumption
  · split
    · split
      · dsimp only
        refine State.flagFault_keeps ?_
        assumption
      · dsimp only
        assumption
    · dsimp only
      refine State.flagFault_keeps ?_
      assumption

theorem State.checkCounters_keeps {z0 z1 : State} {a1 a2 a3} (h1 : Keeps z0 z1) : Keeps z0 (State.checkCounters z1 a1 a2 a3).1 := by
  unfold State.checkCounters
  refine Keeps.foldl_fst ?_ (fun _ _ _ => ?_)
  · dsimp only
    assumption
  · extract_lets +onlyGivenNames x0
    extract_lets +onlyGivenNames x1
    refine Keeps.cut (s := z0) (t := x1) ?_ (fun _ => ?_)
    · subst x1
      split
      · refine State.counterFault_keeps ?_
        assumption
      · assumption
    clear_value x1
    extract_lets +onlyGivenNames x2
    dsimp only
    refine State.setClu_keeps ?_
    assumption

theorem State.readFlag_keeps {z0 z1 : State} {a1 a2} (h1 : Keeps z0 z1) : Keeps z0 (State.readFlag z1 a1 a2) := by
  unfold State.readFlag
  split
  · assumption
  · extract_lets +onlyGivenNames x0
    extract_lets +onlyGivenNames x1
    refine State.setClu_keeps ?_
    assumption

theorem State.readFlags_keeps {z0 z1 : State} {a1 a2 a3} (h1 : Keeps z0 z1) : Keeps z0 (State.readFlags z1 a1 a2 a3) := by
  unfold State.readFlags
  refine Keeps.foldl ?_ (fun _ _ _ => ?_)
  · assumption
  · refine State.readFlag_keeps ?_
    assumption

theorem State.readySuccessors_keeps {z0 z1 : State} {a1 a2 a3} (h1 : Keeps z0 z1) : Keeps z0 (State.readySuccessors z1 a1 a2 a3).1 := by
  unfold State.readySuccessors
  refine Keeps.foldl_fst ?_ (fun _ _ _ => ?_)
  · dsimp only
    assumption
  · extract_lets +onlyGivenNames x0
    refine Keeps.cut (s := z0) (t := x0.1) ?_ (fun _ => ?_)
    · subst x0
      refine State.decCounter_keeps ?_
      assumption
    clear_value x0
    split
    · dsimp only
      refine State.counterFault_keeps ?_
      assumption
    · dsimp only
      assumption

theorem State.setFlag_keeps {z0 z1 : State} {a1 a2 a3} (h1 : Keeps z0 z1) : Keeps z0 (State.setFlag z1 a1 a2 a3).1 := by
  unfold State.setFlag
  split
  · dsimp only
    refine State.flagFault_keeps ?_
    assumption
  · extract_lets +onlyGivenNames x0
    dsimp only
    refine State.setClu_keeps ?_
    assumption

theorem State.setFlags_keeps {z0 z1 : State} {a1 a2 a3 a4 a5 a6} (h1 : Keeps z0 z1) : Keeps z0 (State.setFlags z1 a1 a2 a3 a4 a5 a6).1 := by
  unfold State.setFlags
  refine Keeps.foldl_fst ?_ (fun _ _ _ => ?_)
  · dsimp only
    assumption
  · extract_lets +onlyGivenNames x0
    extract_lets +onlyGivenNames x1
    refine Keeps.cut (s := z0) (t := x1.1) ?_ (fun _ => ?_)
    · subst x1
      refine State.setFlag_keeps ?_
      assumption
    clear_value x1
    dsimp only
    assumption

theorem State.addRun_keeps {z0 z1 : State} {a1} (h1 : Keeps z0 z1) : Keeps z0 (State.addRun z1 a1) := by
  unfold State.addRun
  refine Keeps.same ?_ rfl rfl rfl rfl rfl rfl rfl rfl rfl rfl rfl
  assumption

theorem State.setRunOf_keeps {z0 z1 : State} {a1} (h1 : Keeps z0 z1) : Keeps z0 (State.setRunOf z1 a1) := by
  unfold State.setRunOf
  refine Keeps.same ?_ rfl rfl rfl rfl rfl rfl rfl rfl rfl rfl rfl
  assumption

theorem State.placeCore_keeps {z0 z1 : State} {a1 a2 a3 a4 a5 a6} (h1 : Keeps z0 z1) : Keeps z0 (State.placeCore z1 a1 a2 a3 a4 a5 a6) := by
  unfold State.placeCore
  extract_lets +onlyGivenNames x0
  extract_lets +onlyGivenNames x1
  extract_lets +onlyGivenNames x2
  refine State.setCore_keeps ?_
  assumption

theorem State.armNode_keeps {z0 z1 : State} {a1 a2 a3} (h1 : Keeps z0 z1) : Keeps z0 (State.armNode z1 a1 a2 a3) := by
  unfold State.armNode
  refine Keeps.foldl ?_ (fun _ _ _ => ?_)
  · assumption
  · refine State.armList_keeps ?_
    assumption

theorem State.startRun_keeps {z0 z1 : State} {a1 a2 a3} (h1 : Keeps z0 z1) : Keeps z0 (State.startRun z1 a1 a2 a3) := by
  unfold State.startRun
  extract_lets +onlyGivenNames x0
  extract_lets +onlyGivenNames x1
  extract_lets +onlyGivenNames x2
  extract_lets +onlyGivenNames x3
  split
  · assumption
  · split
    · refine State.addRun_keeps ?_
      assumption
    · extract_lets +onlyGivenNames x4
      refine Keeps.cut (s := z0) (t := x4.1) ?_ (fun _ => ?_)
      · subst x4
        refine State.checkFlags_keeps ?_
        assumption
      clear_value x4
      extract_lets +onlyGivenNames x5
      refine Keeps.cut (s := z0) (t := x5.1) ?_ (fun _ => ?_)
      · subst x5
        refine State.checkCounters_keeps ?_
        assumption
      clear_value x5
      extract_lets +onlyGivenNames x6
      extract_lets +onlyGivenNames x7
      refine Keeps.cut (s := z0) (t := x7) ?_ (fun _ => ?_)
      · subst x7
        assumption
      clear_value x7
      extract_lets +onlyGivenNames x8
      extract_lets +onlyGivenNames x9
      refine Keeps.cut (s := z0) (t := x9) ?_ (fun _ => ?_)
      · subst x9
        refine Keeps.same ?_ rfl rfl rfl rfl rfl rfl rfl rfl rfl rfl rfl
        assumption
      clear_value x9
      extract_lets +onlyGivenNames x10
      refine Keeps.cut (s := z0) (t := x10) ?_ (fun _ => ?_)
      · subst x10
        refine State.armNode_keeps ?_
        refine State.attachNode_keeps ?_
        refine State.addRun_keeps ?_
        assumption
      clear_value x10
      split
      · refine State.placeCore_keeps ?_
        assumption
      · assumption

theorem execNodeStartClock_keeps {z0 z1 t0 : State} {a1 a2} (h1 : Keeps z0 z1) (ht : execNodeStartClock a1 a2 z1 = .next t0) :
    Keeps z0 t0 := by
  unfold execNodeStartClock at ht
  cases ht
  split
  · split
    · assumption
    · refine State.startRun_keeps ?_
      assumption
  · assumption

theorem State.flagTensor_keeps {z0 z1 : State} {a1 a2 a3 a4 a5} (h1 : Keeps z0 z1) : Keeps z0 (State.flagTensor z1 a1 a2 a3 a4 a5).1 := by
  unfold State.flagTensor
  split
  · exact h1
  · rename_i c _
    extract_lets +onlyGivenNames ok s1 s2 fr
    clear_value fr
    have hs : Keeps z0 s2 := by
      subst s2 s1
      split
      · exact State.freeSlot_keeps h1
      · exact State.raise_keeps (State.count_keeps (State.faultRec_keeps (State.freeSlot_keeps h1)))
    clear_value s2
    dsimp only
    split
    · split
      · exact State.completeImage_keeps hs
      · exact hs
    · exact hs

theorem State.flagEngine_keeps {z0 z1 : State} {a1 a2 a3 a4 a5 a6 a7} (h1 : Keeps z0 z1) : Keeps z0 (State.flagEngine z1 a1 a2 a3 a4 a5 a6 a7).1 := by
  unfold State.flagEngine
  extract_lets +onlyGivenNames c y page
  clear_value y
  split
  · exact State.faultRec_keeps h1
  · split
    · exact h1
    · exact State.engineStrip_keeps (State.lineCheck_keeps h1)

theorem State.flagControl_keeps {z0 z1 : State} {a1 a2 a3} (h1 : Keeps z0 z1) : Keeps z0 (State.flagControl z1 a1 a2 a3).1 := by
  unfold State.flagControl
  extract_lets +onlyGivenNames x0
  extract_lets +onlyGivenNames x1
  extract_lets +onlyGivenNames x2
  refine Keeps.cut (s := z0) (t := x2) ?_ (fun _ => ?_)
  · subst x2
    refine Keeps.foldl ?_ (fun _ _ _ => ?_)
    · assumption
    · refine State.graphPush_keeps ?_
      assumption
  clear_value x2
  extract_lets +onlyGivenNames x3
  extract_lets +onlyGivenNames x4
  refine Keeps.cut (s := z0) (t := x4) ?_ (fun _ => ?_)
  · subst x4
    split
    · refine State.pushTunnel_keeps ?_
      assumption
    · assumption
  clear_value x4
  dsimp only
  assumption

theorem State.flagUnit_keeps {z0 z1 : State} {a1 a2 a3 a4 a5 a6} (h1 : Keeps z0 z1) : Keeps z0 (State.flagUnit z1 a1 a2 a3 a4 a5 a6).1 := by
  unfold State.flagUnit
  split
  · refine State.flagTensor_keeps ?_
    assumption
  · refine State.flagControl_keeps ?_
    assumption
  · refine State.flagEngine_keeps ?_
    assumption
  · refine State.flagEngine_keeps ?_
    assumption
  · refine State.flagEngine_keeps ?_
    assumption
  · refine State.flagEngine_keeps ?_
    assumption
  · refine State.flagEngine_keeps ?_
    assumption
  · refine State.flagEngine_keeps ?_
    assumption
  · refine State.flagEngine_keeps ?_
    assumption
  · dsimp only
    assumption

theorem State.logLocked_keeps {z0 z1 : State} {a1 a2 a3} (h1 : Keeps z0 z1) : Keeps z0 (State.logLocked z1 a1 a2 a3) := by
  unfold State.logLocked
  split
  · split
    · refine State.logDigest_keeps ?_
      assumption
    · assumption
  · assumption

theorem State.capturePoison_keeps {z0 z1 : State} {a1 a2 a3} (h1 : Keeps z0 z1) : Keeps z0 (State.capturePoison z1 a1 a2 a3) := by
  unfold State.capturePoison
  split
  · refine State.pmCause_keeps ?_
    assumption
  · assumption

theorem State.flagRun_keeps {z0 z1 : State} {a1 a2 a3 a4 a5 a6} (h1 : Keeps z0 z1) : Keeps z0 (State.flagRun z1 a1 a2 a3 a4 a5 a6) := by
  unfold State.flagRun
  split
  · refine State.setRunOf_keeps ?_
    assumption
  · extract_lets +onlyGivenNames x0
    refine Keeps.cut (s := z0) (t := x0.1) ?_ (fun _ => ?_)
    · subst x0
      refine State.flagUnit_keeps ?_
      assumption
    clear_value x0
    extract_lets +onlyGivenNames x1
    refine Keeps.cut (s := z0) (t := x1) ?_ (fun _ => ?_)
    · subst x1
      split
      · refine State.passSlots_keeps ?_
        assumption
      · assumption
    clear_value x1
    extract_lets +onlyGivenNames x2
    refine Keeps.cut (s := z0) (t := x2.1) ?_ (fun _ => ?_)
    · subst x2
      refine State.readySuccessors_keeps ?_
      refine State.readFlags_keeps ?_
      assumption
    clear_value x2
    extract_lets +onlyGivenNames x3
    extract_lets +onlyGivenNames x4
    refine Keeps.cut (s := z0) (t := x4.1) ?_ (fun _ => ?_)
    · subst x4
      refine State.setFlags_keeps ?_
      assumption
    clear_value x4
    extract_lets +onlyGivenNames x5
    extract_lets +onlyGivenNames x6
    extract_lets +onlyGivenNames x7
    refine Keeps.cut (s := z0) (t := x7) ?_ (fun _ => ?_)
    · subst x7
      refine State.setRunOf_keeps ?_
      assumption
    clear_value x7
    refine State.settleSets_keeps ?_
    refine State.capturePoison_keeps ?_
    refine State.logLocked_keeps ?_
    assumption

theorem execNodeFlagClock_keeps {z0 z1 t0 : State} {a1 a2 a3 a4} (h1 : Keeps z0 z1) (ht : execNodeFlagClock a1 a2 a3 a4 z1 = .next t0) :
    Keeps z0 t0 := by
  unfold execNodeFlagClock at ht
  cases ht
  split
  · split
    · refine State.flagRun_keeps ?_
      assumption
    · assumption
  · assumption

theorem State.writeRecordField_keeps {z0 z1 : State} {a1 a2 a3 a4} (h1 : Keeps z0 z1) : Keeps z0 (State.writeRecordField z1 a1 a2 a3 a4) := by
  unfold State.writeRecordField
  split
  · assumption
  · extract_lets +onlyGivenNames x0
    extract_lets +onlyGivenNames x1
    extract_lets +onlyGivenNames x2
    refine Keeps.same ?_ rfl rfl rfl rfl rfl rfl rfl rfl rfl rfl rfl
    assumption

theorem State.recordWrite_keeps {z0 z1 : State} {a1 a2 a3} (h1 : Keeps z0 z1) : Keeps z0 (State.recordWrite z1 a1 a2 a3) := by
  unfold State.recordWrite
  extract_lets +onlyGivenNames x0
  split
  · assumption
  · split
    · assumption
    · extract_lets +onlyGivenNames x1
      refine Keeps.cut (s := z0) (t := x1.1) ?_ (fun _ => ?_)
      · subst x1
        refine State.checkFlags_keeps ?_
        assumption
      clear_value x1
      extract_lets +onlyGivenNames x2
      refine Keeps.cut (s := z0) (t := x2.1) ?_ (fun _ => ?_)
      · subst x2
        refine State.checkCounters_keeps ?_
        assumption
      clear_value x2
      extract_lets +onlyGivenNames x3
      extract_lets +onlyGivenNames x4
      extract_lets +onlyGivenNames x5
      extract_lets +onlyGivenNames x6
      extract_lets +onlyGivenNames x7
      refine Keeps.cut (s := z0) (t := x7) ?_ (fun _ => ?_)
      · subst x7
        refine Keeps.foldl ?_ (fun _ _ _ => ?_)
        · assumption
        · refine State.writeRecordField_keeps ?_
          assumption
      clear_value x7
      extract_lets +onlyGivenNames x8
      extract_lets +onlyGivenNames x9
      refine Keeps.cut (s := z0) (t := x9.1) ?_ (fun _ => ?_)
      · subst x9
        refine State.readySuccessors_keeps ?_
        refine State.readFlags_keeps ?_
        assumption
      clear_value x9
      refine State.settleSets_keeps ?_
      refine State.logLocked_keeps ?_
      refine State.addRun_keeps ?_
      assumption

theorem execRecordWrite_keeps {z0 z1 t0 : State} {a1 a2} (h1 : Keeps z0 z1) (ht : execRecordWrite a1 a2 z1 = .next t0) :
    Keeps z0 t0 := by
  unfold execRecordWrite at ht
  cases ht
  split
  · split
    · refine State.recordWrite_keeps ?_
      assumption
    · assumption
  · assumption

end Sys2Proof.Machine
end

