-- ==== Sys2Proof/Laws/Keeps/Sign.lean ====
section
/-! SUPPORT. The operations of Machine/Sign.lean are steps of the machine (`Keeps`). -/

set_option Elab.async false

namespace Sys2Proof.Machine

theorem State.ownBlock_keeps {z0 z1 : State} (h1 : Keeps z0 z1) : Keeps z0 (State.ownBlock z1).2 := by
  unfold State.ownBlock
  extract_lets +onlyGivenNames x0
  refine Keeps.cut (s := z0) (t := x0.2) ?_ (fun _ => ?_)
  · subst x0
    refine State.drawBytes_keeps ?_
    assumption
  clear_value x0
  dsimp only
  assumption

theorem State.setStore_keeps {z0 z1 : State} {a1} (h1 : Keeps z0 z1) : Keeps z0 (State.setStore z1 a1) := by
  unfold State.setStore
  refine Keeps.same ?_ rfl rfl rfl rfl rfl rfl rfl rfl rfl rfl rfl
  assumption

theorem State.writeCheckpoint_keeps {z0 z1 : State} (h1 : Keeps z0 z1) : Keeps z0 (State.writeCheckpoint z1) := by
  unfold State.writeCheckpoint
  extract_lets +onlyGivenNames x0
  extract_lets +onlyGivenNames x1
  refine Keeps.cut (s := z0) (t := x1.2) ?_ (fun _ => ?_)
  · subst x1
    refine State.ownBlock_keeps ?_
    assumption
  clear_value x1
  extract_lets +onlyGivenNames x2
  refine State.setStore_keeps ?_
  assumption

theorem State.checkpoint_keeps {z0 z1 : State} (h1 : Keeps z0 z1) : Keeps z0 (State.checkpoint z1) := by
  unfold State.checkpoint
  split
  · assumption
  · split
    · refine Keeps.same ?_ rfl rfl rfl rfl rfl rfl rfl rfl rfl rfl rfl
      assumption
    · refine State.writeCheckpoint_keeps ?_
      assumption

theorem State.showAuditSeq_keeps {z0 z1 : State} (h1 : Keeps z0 z1) : Keeps z0 (State.showAuditSeq z1) := by
  unfold State.showAuditSeq
  refine State.wr2_keeps ?_
  refine State.wr2_keeps ?_
  assumption

theorem State.program_keeps {z0 z1 : State} {a1} (h1 : Keeps z0 z1) : Keeps z0 (State.program z1 a1) := by
  unfold State.program
  extract_lets +onlyGivenNames x0
  extract_lets +onlyGivenNames x1
  refine Keeps.cut (s := z0) (t := x1) ?_ (fun _ => ?_)
  · subst x1
    refine State.showAuditSeq_keeps ?_
    refine State.setStore_keeps ?_
    assumption
  clear_value x1
  split
  · refine State.checkpoint_keeps ?_
    assumption
  · assumption

theorem execAuditProgramDone_keeps {z0 z1 t0 : State} (h1 : Keeps z0 z1) (ht : execAuditProgramDone z1 = .next t0) :
    Keeps z0 t0 := by
  unfold execAuditProgramDone at ht
  split at ht
  · cases ht
    assumption
  · extract_lets +onlyGivenNames x0 at ht
    extract_lets +onlyGivenNames x1 at ht
    cases ht
    split
    · refine State.releaseTicket_keeps ?_
      subst x1
      refine State.program_keeps ?_
      refine Keeps.same ?_ rfl rfl rfl rfl rfl rfl rfl rfl rfl rfl rfl
      assumption
    · subst x1
      refine State.program_keeps ?_
      refine Keeps.same ?_ rfl rfl rfl rfl rfl rfl rfl rfl rfl rfl rfl
      assumption

theorem State.drainLost_keeps {z0 z1 : State} (h1 : Keeps z0 z1) : Keeps z0 (State.drainLost z1) := by
  unfold State.drainLost
  split
  · assumption
  · extract_lets +onlyGivenNames x0
    extract_lets +onlyGivenNames x1
    extract_lets +onlyGivenNames x2
    refine Keeps.cut (s := z0) (t := x2) ?_ (fun _ => ?_)
    · subst x2
      refine State.count_keeps ?_
      refine Keeps.same ?_ rfl rfl rfl rfl rfl rfl rfl rfl rfl rfl rfl
      assumption
    clear_value x2
    refine State.program_keeps ?_
    refine State.fault_keeps ?_
    assumption

theorem execAuditDrain_keeps {z0 z1 t0 : State} (h1 : Keeps z0 z1) (ht : execAuditDrain z1 = .next t0) :
    Keeps z0 t0 := by
  unfold execAuditDrain at ht
  cases ht
  split
  · extract_lets +onlyGivenNames x0
    refine Keeps.cut (s := z0) (t := x0) ?_ (fun _ => ?_)
    · subst x0
      refine State.drainLost_keeps ?_
      assumption
    clear_value x0
    refine Keeps.foldl ?_ (fun _ _ _ => ?_)
    · refine Keeps.same ?_ rfl rfl rfl rfl rfl rfl rfl rfl rfl rfl rfl
      assumption
    · refine State.program_keeps ?_
      assumption
  · assumption

end Sys2Proof.Machine
end

