-- ==== Sys2Proof/Laws/Keeps/Supply.lean ====
section
/-! SUPPORT. The operations of Machine/Supply.lean are steps of the machine (`Keeps`). -/

set_option Elab.async false

namespace Sys2Proof.Machine

/-- A device without power keeps its queue and has every list of units. -/
theorem State.withoutPower_after {z0 z1 : State} {a1} (h1 : After z0 z1) : After z0 (State.withoutPower z1 a1) :=
  ⟨h1.1, h1.2.1, h1.2.2.1, fun _ => ⟨List.Pairwise.nil, fun _ h => absurd h List.not_mem_nil⟩, fun _ => List.Pairwise.nil,
    fun _ => List.Pairwise.nil, fun _ => State.reset_sized⟩

theorem execPowerOn_after {z0 t0 : State} (h1 : After z0 z0) (ht : execPowerOn z0 = .next t0) : After z0 t0 := by
  unfold execPowerOn at ht
  cases ht
  split
  · exact State.withoutPower_after h1
  · exact h1

theorem State.sampleStraps_keeps {z0 z1 : State} {a1 a2} (h1 : Keeps z0 z1) : Keeps z0 (State.sampleStraps z1 a1 a2) := by
  unfold State.sampleStraps
  extract_lets +onlyGivenNames x0
  extract_lets +onlyGivenNames x1
  refine Keeps.cut (s := z0) (t := x1) ?_ (fun _ => ?_)
  · subst x1
    refine State.wr_keeps ?_
    refine State.wr_keeps ?_
    refine State.wr_keeps ?_
    assumption
  clear_value x1
  split
  · refine State.fault_keeps ?_
    assumption
  · assumption

theorem State.loadFactory_keeps {z0 z1 : State} (h1 : Keeps z0 z1) : Keeps z0 (State.loadFactory z1) := by
  unfold State.loadFactory
  extract_lets +onlyGivenNames x0
  extract_lets +onlyGivenNames x1
  extract_lets +onlyGivenNames x2
  refine Keeps.cut (s := z0) (t := x2) ?_ (fun _ => ?_)
  · subst x2
    refine State.wr_keeps ?_
    refine State.wr_keeps ?_
    assumption
  clear_value x2
  extract_lets +onlyGivenNames x3
  refine Keeps.cut (s := z0) (t := x3) ?_ (fun _ => ?_)
  · subst x3
    refine Keeps.foldl ?_ (fun _ _ _ => ?_)
    · assumption
    · refine State.wr_keeps ?_
      assumption
  clear_value x3
  refine Keeps.same ?_ rfl rfl rfl rfl rfl rfl rfl rfl rfl rfl rfl
  assumption

theorem execPowerOnRelease_keeps {z0 z1 t0 : State} {a1 a2 a3} (h1 : Keeps z0 z1) (ht : execPowerOnRelease a1 a2 a3 z1 = .next t0) :
    Keeps z0 t0 := by
  unfold execPowerOnRelease at ht
  cases ht
  split
  · assumption
  · extract_lets +onlyGivenNames x0
    extract_lets +onlyGivenNames x1
    refine Keeps.cut (s := z0) (t := x1) ?_ (fun _ => ?_)
    · subst x1
      refine State.loadFactory_keeps ?_
      refine State.setStore_keeps ?_
      assumption
    clear_value x1
    extract_lets +onlyGivenNames x2
    extract_lets +onlyGivenNames x3
    refine Keeps.cut (s := z0) (t := x3) ?_ (fun _ => ?_)
    · subst x3
      refine Keeps.same ?_ rfl rfl rfl rfl rfl rfl rfl rfl rfl rfl rfl
      assumption
    clear_value x3
    refine State.sampleStraps_keeps ?_
    assumption

theorem execPlinthStartupCheck_keeps {z0 z1 t0 : State} {a1} (h1 : Keeps z0 z1) (ht : execPlinthStartupCheck a1 z1 = .next t0) :
    Keeps z0 t0 := by
  unfold execPlinthStartupCheck at ht
  cases ht
  split
  · assumption
  · split
    · refine Keeps.same ?_ rfl rfl rfl rfl rfl rfl rfl rfl rfl rfl rfl
      assumption
    · refine Keeps.same ?_ rfl rfl rfl rfl rfl rfl rfl rfl rfl rfl rfl
      assumption

theorem execPowerOnDetectorStop_after {z0 t0 : State} (h1 : After z0 z0) (ht : execPowerOnDetectorStop z0 = .next t0) :
    After z0 t0 := by
  unfold execPowerOnDetectorStop at ht
  cases ht
  split
  · exact h1
  · exact State.withoutPower_after h1

theorem State.startPd38_keeps {z0 z1 : State} (h1 : Keeps z0 z1) : Keeps z0 (State.startPd38 z1) := by
  unfold State.startPd38
  split
  · assumption
  · extract_lets +onlyGivenNames x0
    refine Keeps.cut (s := z0) (t := x0) ?_ (fun _ => ?_)
    · subst x0
      refine State.setDomain_keeps ?_
      assumption
    clear_value x0
    refine Keeps.same ?_ rfl rfl rfl rfl rfl rfl rfl rfl rfl rfl rfl
    assumption

theorem State.beginRecords_keeps {z0 z1 : State} (h1 : Keeps z0 z1) : Keeps z0 (State.beginRecords z1) := by
  unfold State.beginRecords
  split
  · split
    · refine State.startPd38_keeps ?_
      refine Keeps.same ?_ rfl rfl rfl rfl rfl rfl rfl rfl rfl rfl rfl
      assumption
    · assumption
  · assumption

theorem State.protect_keeps {z0 z1 : State} (h1 : Keeps z0 z1) : Keeps z0 (State.protect z1) := by
  unfold State.protect
  refine State.holdOff_keeps ?_
  refine State.powerOffAll_keeps ?_
  assumption

theorem State.sampleVin_keeps {z0 z1 : State} {a1} (h1 : Keeps z0 z1) : Keeps z0 (State.sampleVin z1 a1) := by
  unfold State.sampleVin
  extract_lets +onlyGivenNames x0
  extract_lets +onlyGivenNames x1
  extract_lets +onlyGivenNames x2
  extract_lets +onlyGivenNames x3
  extract_lets +onlyGivenNames x4
  refine Keeps.cut (s := z0) (t := x4) ?_ (fun _ => ?_)
  · subst x4
    refine State.wr_keeps ?_
    refine Keeps.same ?_ rfl rfl rfl rfl rfl rfl rfl rfl rfl rfl rfl
    assumption
  clear_value x4
  extract_lets +onlyGivenNames x5
  split
  · refine State.fault_keeps ?_
    refine State.addCause_keeps ?_
    assumption
  · split
    · refine State.fault_keeps ?_
      refine State.addCause_keeps ?_
      assumption
    · split
      · refine State.endCauses_keeps ?_
        assumption
      · assumption

theorem State.sampleTemps_keeps {z0 z1 : State} {a1} (h1 : Keeps z0 z1) : Keeps z0 (State.sampleTemps z1 a1) := by
  unfold State.sampleTemps
  extract_lets +onlyGivenNames x0
  extract_lets +onlyGivenNames x1
  extract_lets +onlyGivenNames x2
  extract_lets +onlyGivenNames x3
  extract_lets +onlyGivenNames x4
  extract_lets +onlyGivenNames x5
  extract_lets +onlyGivenNames x6
  extract_lets +onlyGivenNames x7
  extract_lets +onlyGivenNames x8
  refine Keeps.cut (s := z0) (t := x8) ?_ (fun _ => ?_)
  · subst x8
    refine Keeps.same ?_ rfl rfl rfl rfl rfl rfl rfl rfl rfl rfl rfl
    assumption
  clear_value x8
  extract_lets +onlyGivenNames x9
  refine Keeps.cut (s := z0) (t := x9) ?_ (fun _ => ?_)
  · subst x9
    refine State.wr_keeps ?_
    refine State.wr_keeps ?_
    assumption
  clear_value x9
  extract_lets +onlyGivenNames x10
  refine Keeps.cut (s := z0) (t := x10) ?_ (fun _ => ?_)
  · subst x10
    refine Keeps.foldl ?_ (fun _ _ _ => ?_)
    · assumption
    · refine State.wr_keeps ?_
      assumption
  clear_value x10
  extract_lets +onlyGivenNames x11
  refine Keeps.cut (s := z0) (t := x11) ?_ (fun _ => ?_)
  · subst x11
    split
    · refine State.fault_keeps ?_
      assumption
    · assumption
  clear_value x11
  extract_lets +onlyGivenNames x12
  refine Keeps.cut (s := z0) (t := x12) ?_ (fun _ => ?_)
  · subst x12
    split
    · refine State.fault_keeps ?_
      assumption
    · assumption
  clear_value x12
  extract_lets +onlyGivenNames x13
  refine Keeps.cut (s := z0) (t := x13) ?_ (fun _ => ?_)
  · subst x13
    split
    · refine State.fault_keeps ?_
      assumption
    · assumption
  clear_value x13
  extract_lets +onlyGivenNames x14
  refine Keeps.cut (s := z0) (t := x14) ?_ (fun _ => ?_)
  · subst x14
    split
    · refine Keeps.foldl ?_ (fun _ _ _ => ?_)
      · assumption
      · refine State.addCause_keeps ?_
        assumption
    · assumption
  clear_value x14
  split
  · refine State.endCauses_keeps ?_
    assumption
  · assumption

theorem execRegulatorProtection_keeps {z0 z1 t0 : State} (h1 : Keeps z0 z1) (ht : execRegulatorProtection z1 = .next t0) :
    Keeps z0 t0 := by
  unfold execRegulatorProtection at ht
  cases ht
  split
  · refine State.addCause_keeps ?_
    refine State.protect_keeps ?_
    assumption
  · assumption

theorem execThermalTrip_keeps {z0 z1 t0 : State} {a1} (h1 : Keeps z0 z1) (ht : execThermalTrip a1 z1 = .next t0) :
    Keeps z0 t0 := by
  unfold execThermalTrip at ht
  cases ht
  split
  · extract_lets +onlyGivenNames x0
    refine Keeps.cut (s := z0) (t := x0) ?_ (fun _ => ?_)
    · subst x0
      refine State.fault_keeps ?_
      refine State.addCause_keeps ?_
      refine State.protect_keeps ?_
      assumption
    clear_value x0
    refine Keeps.same ?_ rfl rfl rfl rfl rfl rfl rfl rfl rfl rfl rfl
    assumption
  · assumption

theorem execAonThermalStop_after {z0 t0 : State} (h1 : After z0 z0) (ht : execAonThermalStop z0 = .next t0) :
    After z0 t0 := by
  unfold execAonThermalStop at ht
  cases ht
  split <;> first
    | exact h1
    | exact State.withoutPower_after h1

theorem execPdcRampStart_keeps {z0 z1 t0 : State} (h1 : Keeps z0 z1) (ht : execPdcRampStart z1 = .next t0) :
    Keeps z0 t0 := by
  unfold execPdcRampStart at ht
  extract_lets +onlyGivenNames x0 at ht
  cases ht
  split
  · split
    · extract_lets +onlyGivenNames x1
      refine Keeps.cut (s := z0) (t := x1) ?_ (fun _ => ?_)
      · subst x1
        refine State.setDomain_keeps ?_
        assumption
      clear_value x1
      refine Keeps.same ?_ rfl rfl rfl rfl rfl rfl rfl rfl rfl rfl rfl
      assumption
    · assumption
  · assumption

theorem execDomainReady_keeps {z0 z1 t0 : State} {a1} (h1 : Keeps z0 z1) (ht : execDomainReady a1 z1 = .next t0) :
    Keeps z0 t0 := by
  unfold execDomainReady at ht
  cases ht
  split
  · split
    · assumption
    · refine State.becomeReady_keeps ?_
      assumption
  · assumption
  · assumption

theorem State.unitFailed_keeps {z0 z1 : State} {a1 a2} (h1 : Keeps z0 z1) : Keeps z0 (State.unitFailed z1 a1 a2) := by
  unfold State.unitFailed
  split
  · refine State.retireUnit_keeps ?_
    assumption
  · split
    · refine State.clusterFault_keeps ?_
      assumption
    · assumption

theorem execDomainWakeTimeout_keeps {z0 z1 t0 : State} {a1} (h1 : Keeps z0 z1) (ht : execDomainWakeTimeout a1 z1 = .next t0) :
    Keeps z0 t0 := by
  unfold execDomainWakeTimeout at ht
  cases ht
  split
  · split
    · assumption
    · refine State.checkBringup_keeps ?_
      refine State.unitFailed_keeps ?_
      refine State.fault_keeps ?_
      refine State.powerOffTree_keeps ?_
      assumption
  · assumption
  · assumption

theorem State.coreGood_keeps {z0 z1 : State} {a1} (h1 : Keeps z0 z1) : Keeps z0 (State.coreGood z1 a1) := by
  unfold State.coreGood
  extract_lets +onlyGivenNames x0
  refine Keeps.cut (s := z0) (t := x0) ?_ (fun _ => ?_)
  · subst x0
    refine State.retireUnit_keeps ?_
    refine State.setDomain_keeps ?_
    assumption
  clear_value x0
  refine State.powerOff_keeps ?_
  refine State.setDomain_keeps ?_
  assumption

theorem State.clusterGood_keeps {z0 z1 : State} {a1} (h1 : Keeps z0 z1) : Keeps z0 (State.clusterGood z1 a1) := by
  unfold State.clusterGood
  extract_lets +onlyGivenNames x0
  extract_lets +onlyGivenNames x1
  refine Keeps.cut (s := z0) (t := x1) ?_ (fun _ => ?_)
  · subst x1
    refine State.clusterFault_keeps ?_
    refine Keeps.foldl ?_ (fun _ _ _ => ?_)
    · assumption
    · refine State.setDomain_keeps ?_
      assumption
  clear_value x1
  refine State.powerOffTree_keeps ?_
  refine Keeps.foldl ?_ (fun _ _ _ => ?_)
  · assumption
  · refine State.setDomain_keeps ?_
    assumption

theorem execPowerGoodLost_keeps {z0 z1 t0 : State} {a1} (h1 : Keeps z0 z1) (ht : execPowerGoodLost a1 z1 = .next t0) :
    Keeps z0 t0 := by
  unfold execPowerGoodLost at ht
  extract_lets +onlyGivenNames x0 at ht
  cases ht
  split
  · assumption
  · split
    · refine State.coreGood_keeps ?_
      assumption
    · split
      · refine State.clusterGood_keeps ?_
        assumption
      · split
        · refine State.powerOff_keeps ?_
          refine Keeps.foldl ?_ (fun _ _ _ => ?_)
          · assumption
          · refine State.loseFraming_keeps ?_
            assumption
        · split
          · refine State.powerOff_keeps ?_
            assumption
          · extract_lets +onlyGivenNames x1
            extract_lets +onlyGivenNames x2
            extract_lets +onlyGivenNames x3
            refine Keeps.cut (s := z0) (t := x3) ?_ (fun _ => ?_)
            · subst x3
              split
              · refine State.addCause_keeps ?_
                assumption
              · assumption
            clear_value x3
            extract_lets +onlyGivenNames x4
            refine Keeps.cut (s := z0) (t := x4) ?_ (fun _ => ?_)
            · subst x4
              refine State.powerOffAll_keeps ?_
              assumption
            clear_value x4
            split
            · refine State.holdOff_keeps ?_
              assumption
            · assumption

theorem execPdcIdleOff_keeps {z0 z1 t0 : State} {a1} (h1 : Keeps z0 z1) (ht : execPdcIdleOff a1 z1 = .next t0) :
    Keeps z0 t0 := by
  unfold execPdcIdleOff at ht
  cases ht
  split
  · split
    · split
      · refine State.powerOff_keeps ?_
        refine State.setRequest_keeps ?_
        assumption
      · assumption
    · assumption
  · assumption

theorem State.loseRef_keeps {z0 z1 : State} (h1 : Keeps z0 z1) : Keeps z0 (State.loseRef z1) := by
  unfold State.loseRef
  split
  · refine State.fault_keeps ?_
    refine State.wr_keeps ?_
    refine State.wr_keeps ?_
    assumption
  · assumption

theorem execRefLoss_keeps {z0 z1 t0 : State} (h1 : Keeps z0 z1) (ht : execRefLoss z1 = .next t0) :
    Keeps z0 t0 := by
  unfold execRefLoss at ht
  cases ht
  refine State.loseRef_keeps ?_
  assumption

theorem clkRevertAct_keeps {z0 z1 : State} {a1} (h1 : Keeps z0 z1) : Keeps z0 (clkRevertAct z1 a1) := by
  unfold clkRevertAct
  split
  · refine State.wr_keeps ?_
    refine State.wr_keeps ?_
    assumption
  · assumption

theorem execClkmFirstLock_keeps {z0 z1 t0 : State} (h1 : Keeps z0 z1) (ht : execClkmFirstLock z1 = .next t0) :
    Keeps z0 t0 := by
  unfold execClkmFirstLock at ht
  cases ht
  split
  · refine State.wr_keeps ?_
    refine Keeps.same ?_ rfl rfl rfl rfl rfl rfl rfl rfl rfl rfl rfl
    assumption
  · assumption

theorem execLaserEol_keeps {z0 z1 t0 : State} {a1} (h1 : Keeps z0 z1) (ht : execLaserEol a1 z1 = .next t0) :
    Keeps z0 t0 := by
  unfold execLaserEol at ht
  extract_lets +onlyGivenNames x0 at ht
  extract_lets +onlyGivenNames x1 at ht
  cases ht
  split
  · refine State.fault_keeps ?_
    assumption
  · assumption

theorem sleepCheck_keeps {z0 z1 : State} (h1 : Keeps z0 z1) : Keeps z0 (sleepCheck z1).2 := by
  unfold sleepCheck
  split
  · dsimp only
    refine State.wr_keeps ?_
    assumption
  · dsimp only
    assumption

theorem sleepAct_keeps {z0 z1 : State} (h1 : Keeps z0 z1) : Keeps z0 (sleepAct z1) := by
  unfold sleepAct
  split
  · assumption
  · extract_lets +onlyGivenNames x0
    extract_lets +onlyGivenNames x1
    refine Keeps.cut (s := z0) (t := x1) ?_ (fun _ => ?_)
    · subst x1
      refine State.wr_keeps ?_
      refine State.abortTasks_keeps ?_
      assumption
    clear_value x1
    refine Keeps.same ?_ rfl rfl rfl rfl rfl rfl rfl rfl rfl rfl rfl
    assumption

theorem State.enterSleep_keeps {z0 z1 : State} (h1 : Keeps z0 z1) : Keeps z0 (State.enterSleep z1) := by
  unfold State.enterSleep
  split
  · extract_lets +onlyGivenNames x0
    refine Keeps.cut (s := z0) (t := x0) ?_ (fun _ => ?_)
    · subst x0
      refine State.powerOffAll_keeps ?_
      assumption
    clear_value x0
    refine Keeps.same ?_ rfl rfl rfl rfl rfl rfl rfl rfl rfl rfl rfl
    assumption
  · assumption

theorem execWakeTimer_keeps {z0 z1 t0 : State} (h1 : Keeps z0 z1) (ht : execWakeTimer z1 = .next t0) :
    Keeps z0 t0 := by
  unfold execWakeTimer at ht
  cases ht
  split
  · refine State.wr_keeps ?_
    refine Keeps.same ?_ rfl rfl rfl rfl rfl rfl rfl rfl rfl rfl rfl
    assumption
  · assumption

theorem execWakePd38Start_keeps {z0 z1 t0 : State} (h1 : Keeps z0 z1) (ht : execWakePd38Start z1 = .next t0) :
    Keeps z0 t0 := by
  unfold execWakePd38Start at ht
  cases ht
  split
  · split
    · extract_lets +onlyGivenNames x0
      extract_lets +onlyGivenNames x1
      refine Keeps.cut (s := z0) (t := x1) ?_ (fun _ => ?_)
      · subst x1
        refine Keeps.same ?_ rfl rfl rfl rfl rfl rfl rfl rfl rfl rfl rfl
        assumption
      clear_value x1
      split
      · refine State.checkBringup_keeps ?_
        refine State.mgcRequests_keeps ?_
        assumption
      · refine State.startPd38_keeps ?_
        assumption
    · assumption
  · assumption

theorem execResetNFall_keeps {z0 z1 t0 : State} (h1 : Keeps z0 z1) (ht : execResetNFall z1 = .next t0) :
    Keeps z0 t0 := by
  unfold execResetNFall at ht
  cases ht
  split
  · assumption
  · split
    · refine Keeps.same ?_ rfl rfl rfl rfl rfl rfl rfl rfl rfl rfl rfl
      assumption
    · split
      · extract_lets +onlyGivenNames x0
        extract_lets +onlyGivenNames x1
        extract_lets +onlyGivenNames x2
        refine Keeps.cut (s := z0) (t := x2) ?_ (fun _ => ?_)
        · subst x2
          refine Keeps.same ?_ rfl rfl rfl rfl rfl rfl rfl rfl rfl rfl rfl
          assumption
        clear_value x2
        refine State.addCause_keeps ?_
        split
        · refine State.wr_keeps ?_
          assumption
        · assumption
      · assumption

theorem execResetNRise_keeps {z0 z1 t0 : State} {a1 a2} (h1 : Keeps z0 z1) (ht : execResetNRise a1 a2 z1 = .next t0) :
    Keeps z0 t0 := by
  unfold execResetNRise at ht
  cases ht
  split
  · assumption
  · extract_lets +onlyGivenNames x0
    extract_lets +onlyGivenNames x1
    refine State.sampleStraps_keeps ?_
    refine Keeps.same ?_ rfl rfl rfl rfl rfl rfl rfl rfl rfl rfl rfl
    assumption

theorem State.logReset_keeps {z0 z1 : State} {a1 a2} (h1 : Keeps z0 z1) : Keeps z0 (State.logReset z1 a1 a2) := by
  unfold State.logReset
  extract_lets +onlyGivenNames x0
  extract_lets +onlyGivenNames x1
  extract_lets +onlyGivenNames x2
  refine State.wr_keeps ?_
  refine Keeps.same ?_ rfl rfl rfl rfl rfl rfl rfl rfl rfl rfl rfl
  assumption

theorem State.passFailed_keeps {z0 z1 : State} {a1 a2} (h1 : Keeps z0 z1) : Keeps z0 (State.passFailed z1 a1 a2) := by
  unfold State.passFailed
  refine State.fault_keeps ?_
  refine State.wr_keeps ?_
  refine State.wr_keeps ?_
  refine State.wr_keeps ?_
  assumption

theorem State.countWarm_keeps {z0 z1 : State} {a1} (h1 : Keeps z0 z1) : Keeps z0 (State.countWarm z1 a1) := by
  unfold State.countWarm
  extract_lets +onlyGivenNames x0
  refine Keeps.cut (s := z0) (t := x0) ?_ (fun _ => ?_)
  · subst x0
    refine State.wr2_keeps ?_
    refine State.count_keeps ?_
    refine State.wr_keeps ?_
    assumption
  clear_value x0
  refine State.wr_keeps ?_
  refine State.wr_keeps ?_
  assumption

theorem State.holdPorts_keeps {z0 z1 : State} (h1 : Keeps z0 z1) : Keeps z0 (State.holdPorts z1) := by
  unfold State.holdPorts
  extract_lets +onlyGivenNames x0
  extract_lets +onlyGivenNames x1
  refine Keeps.cut (s := z0) (t := x1) ?_ (fun _ => ?_)
  · subst x1
    refine Keeps.foldl ?_ (fun _ _ _ => ?_)
    · assumption
    · split
      · refine State.resetPage_keeps ?_
        refine State.laneLost_keeps ?_
        refine State.setPort_keeps ?_
        refine State.linkDown_keeps ?_
        assumption
      · assumption
  clear_value x1
  refine Keeps.update ?_ rfl rfl (fun h => by simpa [State.Sized] using h)
  assumption

theorem State.dropWork_keeps {z0 z1 : State} (h1 : Keeps z0 z1) : Keeps z0 (State.dropWork z1) := by
  unfold State.dropWork
  refine Keeps.same ?_ rfl rfl rfl rfl rfl rfl rfl rfl rfl rfl rfl
  assumption

theorem State.endTrips_keeps {z0 z1 : State} (h1 : Keeps z0 z1) : Keeps z0 (State.endTrips z1) := by
  unfold State.endTrips
  extract_lets +onlyGivenNames x0
  extract_lets +onlyGivenNames x1
  extract_lets +onlyGivenNames x2
  refine Keeps.cut (s := z0) (t := x2) ?_ (fun _ => ?_)
  · subst x2
    refine State.endCauses_keeps ?_
    assumption
  clear_value x2
  refine Keeps.same ?_ rfl rfl rfl rfl rfl rfl rfl rfl rfl rfl rfl
  assumption

theorem execWarmResetBegin_keeps {z0 z1 t0 : State} (h1 : Keeps z0 z1) (ht : execWarmResetBegin z1 = .next t0) :
    Keeps z0 t0 := by
  unfold execWarmResetBegin at ht
  cases ht
  split
  · assumption
  · split
    · assumption
    · extract_lets +onlyGivenNames x0
      refine Keeps.cut (s := z0) (t := x0) ?_ (fun _ => ?_)
      · subst x0
        split
        · refine State.passFailed_keeps ?_
          assumption
        · assumption
      clear_value x0
      extract_lets +onlyGivenNames x1
      refine Keeps.cut (s := z0) (t := x1) ?_ (fun _ => ?_)
      · subst x1
        refine Keeps.foldl ?_ (fun _ _ _ => ?_)
        · assumption
        · refine State.logReset_keeps ?_
          assumption
      clear_value x1
      extract_lets +onlyGivenNames x2
      refine Keeps.cut (s := z0) (t := x2) ?_ (fun _ => ?_)
      · subst x2
        refine State.holdPorts_keeps ?_
        refine State.dropWork_keeps ?_
        refine Keeps.same ?_ rfl rfl rfl rfl rfl rfl rfl rfl rfl rfl rfl
        assumption
      clear_value x2
      extract_lets +onlyGivenNames x3
      refine Keeps.cut (s := z0) (t := x3) ?_ (fun _ => ?_)
      · subst x3
        refine State.powerOffAll_keeps ?_
        assumption
      clear_value x3
      extract_lets +onlyGivenNames x4
      extract_lets +onlyGivenNames x5
      refine Keeps.cut (s := z0) (t := x5) ?_ (fun _ => ?_)
      · subst x5
        refine Keeps.update ?_ rfl rfl (fun h => by simp_all [State.Sized, VisionState.fresh, x4])
        assumption
      clear_value x5
      refine State.auditStart_keeps ?_
      refine State.endTrips_keeps ?_
      refine State.countWarm_keeps ?_
      refine State.wr_keeps ?_
      assumption

theorem execWarmRestart_keeps {z0 z1 t0 : State} (h1 : Keeps z0 z1) (ht : execWarmRestart z1 = .next t0) :
    Keeps z0 t0 := by
  unfold execWarmRestart at ht
  cases ht
  split
  · assumption
  · split
    · refine State.startPd38_keeps ?_
      refine Keeps.same ?_ rfl rfl rfl rfl rfl rfl rfl rfl rfl rfl rfl
      assumption
    · assumption

end Sys2Proof.Machine
end

