-- ==== Sys2Proof/Laws/Keeps/Beat.lean ====
section
/-! SUPPORT. The operations of Machine/Beat.lean are steps of the machine (`Keeps`). -/

set_option Elab.async false

namespace Sys2Proof.Machine

/-- The next beat. -/
theorem State.nextBeat_after (z : State) : After z z.nextBeat :=
  ⟨rfl, Nat.le_refl _, List.suffix_refl _, id, id, id, fun h => by simpa [State.Sized, State.nextBeat] using h⟩

theorem State.endWarm_keeps {z0 z1 : State} (h1 : Keeps z0 z1) : Keeps z0 (State.endWarm z1) := by
  unfold State.endWarm
  split
  · refine State.endCauses_keeps ?_
    assumption
  · assumption

theorem State.retiredOff_keeps {z0 z1 : State} (h1 : Keeps z0 z1) : Keeps z0 (State.retiredOff z1) := by
  unfold State.retiredOff
  refine Keeps.foldl ?_ (fun _ _ _ => ?_)
  · assumption
  · refine State.powerOff_keeps ?_
    assumption

theorem State.failedOff_keeps {z0 z1 : State} (h1 : Keeps z0 z1) : Keeps z0 (State.failedOff z1) := by
  unfold State.failedOff
  refine Keeps.foldl ?_ (fun _ _ _ => ?_)
  · assumption
  · refine State.powerOff_keeps ?_
    assumption

theorem State.noteIdle_keeps {z0 z1 : State} (h1 : Keeps z0 z1) : Keeps z0 (State.noteIdle z1) := by
  unfold State.noteIdle
  extract_lets +onlyGivenNames x0
  refine Keeps.same ?_ rfl rfl rfl rfl rfl rfl rfl rfl rfl rfl rfl
  assumption

theorem State.wakeCores_keeps {z0 z1 : State} (h1 : Keeps z0 z1) : Keeps z0 (State.wakeCores z1) := by
  unfold State.wakeCores
  split
  · extract_lets +onlyGivenNames x0
    extract_lets +onlyGivenNames x1
    refine State.requestAll_keeps ?_
    assumption
  · assumption

theorem State.sendTriggers_keeps {z0 z1 : State} {a1} (h1 : Keeps z0 z1) : Keeps z0 (State.sendTriggers z1 a1) := by
  unfold State.sendTriggers
  refine Keeps.foldl ?_ (fun _ _ _ => ?_)
  · assumption
  · refine State.sendTrigger_keeps ?_
    assumption

theorem State.beatWork_keeps {z0 z1 : State} (h1 : Keeps z0 z1) : Keeps z0 (State.beatWork z1) := by
  unfold State.beatWork
  extract_lets +onlyGivenNames x0
  refine State.forgetSets_keeps ?_
  refine State.settleSets_keeps ?_
  refine State.sendTriggers_keeps ?_
  refine State.admitStrips_keeps ?_
  assumption

theorem State.beatPower_keeps {z0 z1 : State} (h1 : Keeps z0 z1) : Keeps z0 (State.beatPower z1) := by
  unfold State.beatPower
  refine State.enterSleep_keeps ?_
  refine State.wakeCores_keeps ?_
  refine State.noteIdle_keeps ?_
  refine State.settleOff_keeps ?_
  refine State.failedOff_keeps ?_
  refine State.retiredOff_keeps ?_
  assumption

/-- What a beat boundary does after it has counted the beat. -/
theorem State.beat_keeps {z : State} {a1 a2} : Keeps z.nextBeat (State.beat z a1 a2) := by
  have h := Keeps.refl z.nextBeat
  generalize hz : z.nextBeat = z0 at h
  unfold State.beat
  rw [hz]
  extract_lets +onlyGivenNames x0
  refine Keeps.cut (s := z0) (t := x0) ?_ (fun _ => ?_)
  · subst x0
    refine State.settleRetired_keeps ?_
    refine State.boundaryCommits_keeps ?_
    refine State.blockEvents_keeps ?_
    refine State.beginRecords_keeps ?_
    refine State.endWarm_keeps ?_
    assumption
  clear_value x0
  extract_lets +onlyGivenNames x1
  refine Keeps.cut (s := z0) (t := x1) ?_ (fun _ => ?_)
  · subst x1
    refine State.startTargeted_keeps ?_
    refine State.sampleTemps_keeps ?_
    refine State.sampleVin_keeps ?_
    assumption
  clear_value x1
  refine State.beatPower_keeps ?_
  refine State.beatWork_keeps ?_
  refine State.patrolBeat_keeps ?_
  assumption

theorem execBeatBoundary_after {z0 t0 : State} {a1 a2} (ht : execBeatBoundary a1 a2 z0 = .next t0) :
    After z0 t0 ∧ (t0.time.beatNo = z0.time.beatNo + 1 ∨ t0 = z0) := by
  unfold execBeatBoundary at ht
  split at ht
  · cases ht
  · cases ht
    split
    · have h := State.beat_keeps (z := z0) (a1 := a1.toNat) (a2 := a2)
      exact ⟨(State.nextBeat_after z0).trans h.after, .inl h.beat⟩
    · exact ⟨(Keeps.refl z0).after, .inr rfl⟩

end Sys2Proof.Machine
end

