-- ==== Sys2Proof/Laws/Keeps/BlockReset.lean ====
section
/-! SUPPORT. The operations of Machine/BlockReset.lean are steps of the machine (`Keeps`). -/

set_option Elab.async false

namespace Sys2Proof.Machine

theorem State.absorb_keeps {z0 z1 : State} {a1} (h1 : Keeps z0 z1) : Keeps z0 (State.absorb z1 a1) := by
  unfold State.absorb
  split
  · extract_lets +onlyGivenNames x0
    extract_lets +onlyGivenNames x1
    refine Keeps.cut (s := z0) (t := x1) ?_ (fun _ => ?_)
    · subst x1
      refine Keeps.foldl ?_ (fun _ _ _ => ?_)
      · assumption
      · refine State.logReset_keeps ?_
        assumption
    clear_value x1
    refine Keeps.same ?_ rfl rfl rfl rfl rfl rfl rfl rfl rfl rfl rfl
    assumption
  · assumption

theorem swrstCheck_keeps {z0 z1 : State} {a1 a2} (h1 : Keeps z0 z1) : Keeps z0 (swrstCheck z1 a1 a2).2 := by
  unfold swrstCheck
  split
  · dsimp only
    refine State.logReset_keeps ?_
    assumption
  · dsimp only
    assumption

theorem swrstAct_keeps {z0 z1 : State} {a1 a2} (h1 : Keeps z0 z1) : Keeps z0 (swrstAct z1 a1 a2) := by
  unfold swrstAct
  split
  · assumption
  · extract_lets +onlyGivenNames x0
    extract_lets +onlyGivenNames x1
    refine Keeps.cut (s := z0) (t := x1) ?_ (fun _ => ?_)
    · subst x1
      refine State.absorb_keeps ?_
      assumption
    clear_value x1
    extract_lets +onlyGivenNames x2
    refine Keeps.cut (s := z0) (t := x2) ?_ (fun _ => ?_)
    · subst x2
      refine State.wr_keeps ?_
      refine State.wr_keeps ?_
      refine Keeps.same ?_ rfl rfl rfl rfl rfl rfl rfl rfl rfl rfl rfl
      assumption
    clear_value x2
    split
    · refine State.addCause_keeps ?_
      assumption
    · assumption

theorem State.setReset_keeps {z0 z1 : State} {a1 a2} (h1 : Keeps z0 z1) : Keeps z0 (State.setReset z1 a1 a2) := by
  unfold State.setReset
  refine Keeps.same ?_ rfl rfl rfl rfl rfl rfl rfl rfl rfl rfl rfl
  assumption

theorem execBlkResetIdle_keeps {z0 z1 t0 : State} {a1 a2} (h1 : Keeps z0 z1) (ht : execBlkResetIdle a1 a2 z1 = .next t0) :
    Keeps z0 t0 := by
  unfold execBlkResetIdle at ht
  cases ht
  split
  · refine State.setReset_keeps ?_
    assumption
  · assumption

theorem execBlkResetForced_keeps {z0 z1 t0 : State} {a1} (h1 : Keeps z0 z1) (ht : execBlkResetForced a1 z1 = .next t0) :
    Keeps z0 t0 := by
  unfold execBlkResetForced at ht
  cases ht
  split
  · extract_lets +onlyGivenNames x0
    split
    · assumption
    · extract_lets +onlyGivenNames x1
      refine Keeps.cut (s := z0) (t := x1) ?_ (fun _ => ?_)
      · subst x1
        refine State.fault_keeps ?_
        refine State.setReset_keeps ?_
        assumption
      clear_value x1
      refine State.abortTasks_keeps ?_
      assumption
  · assumption

theorem State.blockLost_keeps {z0 z1 : State} {a1} (h1 : Keeps z0 z1) : Keeps z0 (State.blockLost z1 a1) := by
  unfold State.blockLost
  split
  · refine State.forgetWork_keeps ?_
    refine State.forgetImages_keeps ?_
    assumption
  · refine State.forgetWork_keeps ?_
    refine State.forgetImages_keeps ?_
    assumption
  · refine State.forgetWork_keeps ?_
    refine State.forgetImages_keeps ?_
    assumption
  · refine State.forgetWork_keeps ?_
    refine State.forgetImages_keeps ?_
    assumption
  · refine State.forgetWork_keeps ?_
    refine State.forgetImages_keeps ?_
    assumption
  · refine State.coreLost_keeps ?_
    assumption
  · refine State.coreLost_keeps ?_
    assumption
  · refine State.clusterLost_keeps ?_
    refine Keeps.foldl ?_ (fun _ _ _ => ?_)
    · assumption
    · refine State.coreLost_keeps ?_
      assumption
  · refine State.clusterLost_keeps ?_
    refine Keeps.foldl ?_ (fun _ _ _ => ?_)
    · assumption
    · refine State.coreLost_keeps ?_
      assumption
  · refine State.ifeLost_keeps ?_
    assumption
  · refine Keeps.update ?_ rfl rfl (fun h => by simp_all [State.Sized])
    assumption
  · refine State.setPort_keeps ?_
    refine State.linkDown_keeps ?_
    assumption
  · refine Keeps.same ?_ rfl rfl rfl rfl rfl rfl rfl rfl rfl rfl rfl
    assumption
  · refine State.bodClear_keeps ?_
    assumption
  · refine State.setsGone_keeps ?_
    assumption
  · refine Keeps.same ?_ rfl rfl rfl rfl rfl rfl rfl rfl rfl rfl rfl
    assumption
  · refine State.groupLost_keeps ?_
    assumption
  · refine State.groupLost_keeps ?_
    refine State.groupLost_keeps ?_
    assumption
  · assumption

theorem State.resetSettings_keeps {z0 z1 : State} {a1} (h1 : Keeps z0 z1) : Keeps z0 (State.resetSettings z1 a1) := by
  unfold State.resetSettings
  refine Keeps.foldl ?_ (fun _ _ _ => ?_)
  · refine State.dropShadows_keeps ?_
    assumption
  · split
    · refine Keeps.foldl ?_ (fun _ _ _ => ?_)
      · assumption
      · refine Keeps.foldl ?_ (fun _ _ _ => ?_)
        · assumption
        · refine State.wr_keeps ?_
          assumption
    · assumption

theorem State.resetBlock_keeps {z0 z1 : State} {a1} (h1 : Keeps z0 z1) : Keeps z0 (State.resetBlock z1 a1) := by
  unfold State.resetBlock
  extract_lets +onlyGivenNames x0
  refine Keeps.cut (s := z0) (t := x0) ?_ (fun _ => ?_)
  · subst x0
    refine State.blockLost_keeps ?_
    assumption
  clear_value x0
  extract_lets +onlyGivenNames x1
  refine Keeps.cut (s := z0) (t := x1) ?_ (fun _ => ?_)
  · subst x1
    split
    · refine State.loadPage_keeps ?_
      refine State.resetSettings_keeps ?_
      assumption
    · refine Keeps.foldl ?_ (fun _ _ _ => ?_)
      · assumption
      · refine State.loadPage_keeps ?_
        refine State.resetPage_keeps ?_
        assumption
  clear_value x1
  extract_lets +onlyGivenNames x2
  refine Keeps.cut (s := z0) (t := x2) ?_ (fun _ => ?_)
  · subst x2
    split
    · refine State.linkState_keeps ?_
      assumption
    · refine State.showAbsent_keeps ?_
      assumption
    · assumption
  clear_value x2
  refine State.wr_keeps ?_
  refine State.wr_keeps ?_
  assumption

theorem State.finishOff_keeps {z0 z1 : State} {a1 a2} (h1 : Keeps z0 z1) : Keeps z0 (State.finishOff z1 a1 a2) := by
  unfold State.finishOff
  split
  · refine State.wr_keeps ?_
    assumption
  · extract_lets +onlyGivenNames x0
    refine Keeps.cut (s := z0) (t := x0) ?_ (fun _ => ?_)
    · subst x0
      refine State.powerOff_keeps ?_
      assumption
    clear_value x0
    split
    · refine State.requestOn_keeps ?_
      assumption
    · assumption

theorem execBlkResetDone_keeps {z0 z1 t0 : State} {a1} (h1 : Keeps z0 z1) (ht : execBlkResetDone a1 z1 = .next t0) :
    Keeps z0 t0 := by
  unfold execBlkResetDone at ht
  cases ht
  split
  · extract_lets +onlyGivenNames x0
    refine Keeps.cut (s := z0) (t := x0) ?_ (fun _ => ?_)
    · subst x0
      refine Keeps.same ?_ rfl rfl rfl rfl rfl rfl rfl rfl rfl rfl rfl
      assumption
    clear_value x0
    extract_lets +onlyGivenNames x1
    refine Keeps.cut (s := z0) (t := x1) ?_ (fun _ => ?_)
    · subst x1
      split
      · split
        · refine State.finishOff_keeps ?_
          assumption
        · assumption
      · refine State.resetBlock_keeps ?_
        assumption
    clear_value x1
    extract_lets +onlyGivenNames x2
    refine Keeps.cut (s := z0) (t := x2) ?_ (fun _ => ?_)
    · subst x2
      refine State.logReset_keeps ?_
      assumption
    clear_value x2
    split
    · refine State.endCauses_keeps ?_
      assumption
    · assumption
  · assumption

end Sys2Proof.Machine
end

