-- ==== Sys2Proof/Laws/Keeps/Link.lean ====
section
/-! SUPPORT. The operations of Machine/Link.lean are steps of the machine (`Keeps`). -/

set_option Elab.async false

namespace Sys2Proof.Machine

theorem State.setRxLock_keeps {z0 z1 : State} {a1 a2} (h1 : Keeps z0 z1) : Keeps z0 (State.setRxLock z1 a1 a2) := by
  unfold State.setRxLock
  extract_lets +onlyGivenNames x0
  extract_lets +onlyGivenNames x1
  refine Keeps.cut (s := z0) (t := x1) ?_ (fun _ => ?_)
  · subst x1
    refine State.setPort_keeps ?_
    assumption
  clear_value x1
  split
  · refine Keeps.same ?_ rfl rfl rfl rfl rfl rfl rfl rfl rfl rfl rfl
    assumption
  · assumption

theorem State.sendControl_keeps {z0 z1 : State} {a1 a2 a3} (h1 : Keeps z0 z1) : Keeps z0 (State.sendControl z1 a1 a2 a3) := by
  unfold State.sendControl
  extract_lets +onlyGivenNames x0
  refine State.emit_keeps ?_
  refine State.setPort_keeps ?_
  assumption

theorem State.sendHello_keeps {z0 z1 : State} {a1} (h1 : Keeps z0 z1) : Keeps z0 (State.sendHello z1 a1) := by
  unfold State.sendHello
  extract_lets +onlyGivenNames x0
  extract_lets +onlyGivenNames x1
  refine Keeps.cut (s := z0) (t := x1) ?_ (fun _ => ?_)
  · subst x1
    refine State.sendControl_keeps ?_
    assumption
  clear_value x1
  refine State.setPort_keeps ?_
  assumption

theorem State.sendCredit_keeps {z0 z1 : State} {a1 a2 a3 a4} (h1 : Keeps z0 z1) : Keeps z0 (State.sendCredit z1 a1 a2 a3 a4) := by
  unfold State.sendCredit
  refine State.sendControl_keeps ?_
  assumption

theorem State.grantVc2Port_keeps {z0 z1 : State} {a1} (h1 : Keeps z0 z1) : Keeps z0 (State.grantVc2Port z1 a1) := by
  unfold State.grantVc2Port
  extract_lets +onlyGivenNames x0
  extract_lets +onlyGivenNames x1
  split
  · refine State.sendCredit_keeps ?_
    refine State.wr_keeps ?_
    assumption
  · assumption

theorem State.grantVc2_keeps {z0 z1 : State} (h1 : Keeps z0 z1) : Keeps z0 (State.grantVc2 z1) := by
  unfold State.grantVc2
  refine State.grantVc2Port_keeps ?_
  refine State.grantVc2Port_keeps ?_
  assumption

theorem State.resendFrom_keeps {z0 z1 : State} {a1 a2} (h1 : Keeps z0 z1) : Keeps z0 (State.resendFrom z1 a1 a2) := by
  unfold State.resendFrom
  extract_lets +onlyGivenNames x0
  refine Keeps.foldl ?_ (fun _ _ _ => ?_)
  · refine State.setPort_keeps ?_
    assumption
  · refine State.emit_keeps ?_
    assumption

theorem State.enterRetrain_keeps {z0 z1 : State} {a1} (h1 : Keeps z0 z1) : Keeps z0 (State.enterRetrain z1 a1) := by
  unfold State.enterRetrain
  split
  · extract_lets +onlyGivenNames x0
    refine Keeps.cut (s := z0) (t := x0) ?_ (fun _ => ?_)
    · subst x0
      refine State.count_keeps ?_
      refine State.wr_keeps ?_
      assumption
    clear_value x0
    refine State.setPort_keeps ?_
    assumption
  · assumption

theorem State.replayFrom_keeps {z0 z1 : State} {a1 a2} (h1 : Keeps z0 z1) : Keeps z0 (State.replayFrom z1 a1 a2) := by
  unfold State.replayFrom
  extract_lets +onlyGivenNames x0
  extract_lets +onlyGivenNames x1
  split
  · assumption
  · extract_lets +onlyGivenNames x2
    extract_lets +onlyGivenNames x3
    refine Keeps.cut (s := z0) (t := x3) ?_ (fun _ => ?_)
    · subst x3
      refine State.count_keeps ?_
      refine State.setPort_keeps ?_
      assumption
    clear_value x3
    split
    · refine State.enterRetrain_keeps ?_
      assumption
    · refine State.resendFrom_keeps ?_
      assumption

theorem State.takeAck_keeps {z0 z1 : State} {a1 a2} (h1 : Keeps z0 z1) : Keeps z0 (State.takeAck z1 a1 a2) := by
  unfold State.takeAck
  extract_lets +onlyGivenNames x0
  split
  · refine State.setPort_keeps ?_
    assumption
  · assumption

theorem State.takeNak_keeps {z0 z1 : State} {a1 a2} (h1 : Keeps z0 z1) : Keeps z0 (State.takeNak z1 a1 a2) := by
  unfold State.takeNak
  split
  · refine State.replayFrom_keeps ?_
    refine State.takeAck_keeps ?_
    assumption
  · assumption

theorem State.takeCredit_keeps {z0 z1 : State} {a1 a2 a3 a4} (h1 : Keeps z0 z1) : Keeps z0 (State.takeCredit z1 a1 a2 a3 a4) := by
  unfold State.takeCredit
  split
  · extract_lets +onlyGivenNames x0
    extract_lets +onlyGivenNames x1
    refine State.pump_keeps ?_
    refine State.setPort_keeps ?_
    assumption
  · assumption

theorem State.deliverHeld_keeps {z0 z1 : State} {a1} (h1 : Keeps z0 z1) : Keeps z0 (State.deliverHeld z1 a1) := by
  unfold State.deliverHeld
  extract_lets +onlyGivenNames x0
  refine Keeps.foldl ?_ (fun _ _ _ => ?_)
  · refine Keeps.same ?_ rfl rfl rfl rfl rfl rfl rfl rfl rfl rfl rfl
    assumption
  · refine State.queueEvent_keeps ?_
    assumption

theorem State.comeUp_keeps {z0 z1 : State} {a1} (h1 : Keeps z0 z1) : Keeps z0 (State.comeUp z1 a1) := by
  unfold State.comeUp
  extract_lets +onlyGivenNames x0
  extract_lets +onlyGivenNames x1
  refine Keeps.cut (s := z0) (t := x1) ?_ (fun _ => ?_)
  · subst x1
    refine State.wr_keeps ?_
    refine State.wr_keeps ?_
    assumption
  clear_value x1
  extract_lets +onlyGivenNames x2
  extract_lets +onlyGivenNames x3
  refine Keeps.cut (s := z0) (t := x3) ?_ (fun _ => ?_)
  · subst x3
    refine State.setPort_keeps ?_
    assumption
  clear_value x3
  refine State.deliverHeld_keeps ?_
  refine State.grantVc2_keeps ?_
  refine State.sendCredit_keeps ?_
  assumption

theorem State.takeHello_keeps {z0 z1 : State} {a1 a2 a3} (h1 : Keeps z0 z1) : Keeps z0 (State.takeHello z1 a1 a2 a3) := by
  unfold State.takeHello
  extract_lets +onlyGivenNames x0
  split
  · extract_lets +onlyGivenNames x1
    split
    · refine State.linkState_keeps ?_
      assumption
    · extract_lets +onlyGivenNames x2
      refine Keeps.cut (s := z0) (t := x2) ?_ (fun _ => ?_)
      · subst x2
        refine State.wr_keeps ?_
        assumption
      clear_value x2
      split
      · refine State.comeUp_keeps ?_
        assumption
      · split
        · assumption
        · refine State.fault_keeps ?_
          refine State.setPort_keeps ?_
          assumption
  · assumption

theorem State.negotiate_keeps {z0 z1 : State} {a1 a2} (h1 : Keeps z0 z1) : Keeps z0 (State.negotiate z1 a1 a2) := by
  unfold State.negotiate
  extract_lets +onlyGivenNames x0
  refine Keeps.cut (s := z0) (t := x0) ?_ (fun _ => ?_)
  · subst x0
    refine State.wr_keeps ?_
    refine State.linkState_keeps ?_
    assumption
  clear_value x0
  refine State.sendHello_keeps ?_
  refine State.setPort_keeps ?_
  assumption

theorem execHlBlockLock_keeps {z0 z1 t0 : State} {a1 a2 a3} (h1 : Keeps z0 z1) (ht : execHlBlockLock a1 a2 a3 z1 = .next t0) :
    Keeps z0 t0 := by
  unfold execHlBlockLock at ht
  extract_lets +onlyGivenNames x0 at ht
  extract_lets +onlyGivenNames x1 at ht
  extract_lets +onlyGivenNames x2 at ht
  cases ht
  split
  · assumption
  · extract_lets +onlyGivenNames x3
    refine Keeps.cut (s := z0) (t := x3) ?_ (fun _ => ?_)
    · subst x3
      refine State.setRxLock_keeps ?_
      assumption
    clear_value x3
    split
    · refine State.linkState_keeps ?_
      assumption
    · refine State.negotiate_keeps ?_
      assumption

theorem execHello_keeps {z0 z1 t0 : State} {a1 a2 a3 a4} (h1 : Keeps z0 z1) (ht : execHello a1 a2 a3 a4 z1 = .next t0) :
    Keeps z0 t0 := by
  unfold execHello at ht
  cases ht
  refine State.takeHello_keeps ?_
  assumption

theorem execHelloResend_keeps {z0 z1 t0 : State} {a1} (h1 : Keeps z0 z1) (ht : execHelloResend a1 z1 = .next t0) :
    Keeps z0 t0 := by
  unfold execHelloResend at ht
  extract_lets +onlyGivenNames x0 at ht
  extract_lets +onlyGivenNames x1 at ht
  extract_lets +onlyGivenNames x2 at ht
  cases ht
  split
  · refine State.sendHello_keeps ?_
    assumption
  · assumption

theorem execNak_keeps {z0 z1 t0 : State} {a1 a2} (h1 : Keeps z0 z1) (ht : execNak a1 a2 z1 = .next t0) :
    Keeps z0 t0 := by
  unfold execNak at ht
  cases ht
  refine State.takeNak_keeps ?_
  assumption

theorem execReplayTmo_keeps {z0 z1 t0 : State} {a1} (h1 : Keeps z0 z1) (ht : execReplayTmo a1 z1 = .next t0) :
    Keeps z0 t0 := by
  unfold execReplayTmo at ht
  extract_lets +onlyGivenNames x0 at ht
  extract_lets +onlyGivenNames x1 at ht
  cases ht
  split
  · assumption
  · split
    · refine State.replayFrom_keeps ?_
      assumption
    · assumption

theorem execCredit_keeps {z0 z1 t0 : State} {a1 a2 a3 a4 a5} (h1 : Keeps z0 z1) (ht : execCredit a1 a2 a3 a4 a5 z1 = .next t0) :
    Keeps z0 t0 := by
  unfold execCredit at ht
  cases ht
  refine State.takeCredit_keeps ?_
  assumption

theorem execIdle_keeps {z0 z1 t0 : State} {a1} (h1 : Keeps z0 z1) (ht : execIdle a1 z1 = .next t0) :
    Keeps z0 t0 := by
  unfold execIdle at ht
  cases ht
  split
  · refine State.sendControl_keeps ?_
    assumption
  · assumption

theorem execRetrainDone_keeps {z0 z1 t0 : State} {a1 a2 a3} (h1 : Keeps z0 z1) (ht : execRetrainDone a1 a2 a3 z1 = .next t0) :
    Keeps z0 t0 := by
  unfold execRetrainDone at ht
  extract_lets +onlyGivenNames x0 at ht
  cases ht
  split
  · extract_lets +onlyGivenNames x1
    refine Keeps.cut (s := z0) (t := x1) ?_ (fun _ => ?_)
    · subst x1
      refine State.setRxLock_keeps ?_
      assumption
    clear_value x1
    split
    · assumption
    · extract_lets +onlyGivenNames x2
      extract_lets +onlyGivenNames x3
      refine Keeps.cut (s := z0) (t := x3) ?_ (fun _ => ?_)
      · subst x3
        refine State.fault_keeps ?_
        refine State.wr_keeps ?_
        refine State.wr_keeps ?_
        assumption
      clear_value x3
      extract_lets +onlyGivenNames x4
      refine State.pump_keeps ?_
      refine State.resendFrom_keeps ?_
      refine State.setPort_keeps ?_
      assumption
  · assumption

theorem execRetrainTimeout_keeps {z0 z1 t0 : State} {a1} (h1 : Keeps z0 z1) (ht : execRetrainTimeout a1 z1 = .next t0) :
    Keeps z0 t0 := by
  unfold execRetrainTimeout at ht
  extract_lets +onlyGivenNames x0 at ht
  cases ht
  split
  · refine State.linkDown_keeps ?_
    assumption
  · assumption

theorem execLanesDarkTimeout_keeps {z0 z1 t0 : State} {a1} (h1 : Keeps z0 z1) (ht : execLanesDarkTimeout a1 z1 = .next t0) :
    Keeps z0 t0 := by
  unfold execLanesDarkTimeout at ht
  extract_lets +onlyGivenNames x0 at ht
  cases ht
  split
  · split
    · refine State.linkDown_keeps ?_
      assumption
    · assumption
  · assumption

theorem execKeepalive_keeps {z0 z1 t0 : State} {a1} (h1 : Keeps z0 z1) (ht : execKeepalive a1 z1 = .next t0) :
    Keeps z0 t0 := by
  unfold execKeepalive at ht
  extract_lets +onlyGivenNames x0 at ht
  cases ht
  split
  · refine State.linkDown_keeps ?_
    assumption
  · assumption

theorem retrainAct_keeps {z0 z1 : State} {a1} (h1 : Keeps z0 z1) : Keeps z0 (retrainAct z1 a1) := by
  unfold retrainAct
  refine State.enterRetrain_keeps ?_
  assumption

theorem State.laneDark_keeps {z0 z1 : State} {a1 a2} (h1 : Keeps z0 z1) : Keeps z0 (State.laneDark z1 a1 a2) := by
  unfold State.laneDark
  split
  · assumption
  · extract_lets +onlyGivenNames x0
    extract_lets +onlyGivenNames x1
    extract_lets +onlyGivenNames x2
    extract_lets +onlyGivenNames x3
    refine Keeps.cut (s := z0) (t := x3) ?_ (fun _ => ?_)
    · subst x3
      refine State.setRxLock_keeps ?_
      refine State.wr_keeps ?_
      assumption
    clear_value x3
    extract_lets +onlyGivenNames x4
    extract_lets +onlyGivenNames x5
    refine Keeps.cut (s := z0) (t := x5) ?_ (fun _ => ?_)
    · subst x5
      split
      · refine State.setPort_keeps ?_
        assumption
      · assumption
    clear_value x5
    extract_lets +onlyGivenNames x6
    refine Keeps.cut (s := z0) (t := x6) ?_ (fun _ => ?_)
    · subst x6
      split
      · refine State.loseRef_keeps ?_
        assumption
      · assumption
    clear_value x6
    extract_lets +onlyGivenNames x7
    split
    · refine State.enterRetrain_keeps ?_
      assumption
    · split
      · refine State.linkState_keeps ?_
        assumption
      · assumption

theorem State.slDark_keeps {z0 z1 : State} {a1} (h1 : Keeps z0 z1) : Keeps z0 (State.slDark z1 a1) := by
  unfold State.slDark
  split
  · assumption
  · refine State.fault_keeps ?_
    refine State.wr_keeps ?_
    assumption

theorem execLossOfSignalAssert_keeps {z0 z1 t0 : State} {a1} (h1 : Keeps z0 z1) (ht : execLossOfSignalAssert a1 z1 = .next t0) :
    Keeps z0 t0 := by
  unfold execLossOfSignalAssert at ht
  cases ht
  split
  · refine State.camLoseSignal_keeps ?_
    assumption
  · refine State.laneDark_keeps ?_
    assumption
  · refine State.slDark_keeps ?_
    assumption

theorem execLossOfSignalDeassert_keeps {z0 z1 t0 : State} {a1} (h1 : Keeps z0 z1) (ht : execLossOfSignalDeassert a1 z1 = .next t0) :
    Keeps z0 t0 := by
  unfold execLossOfSignalDeassert at ht
  cases ht
  split
  · refine State.camGainSignal_keeps ?_
    assumption
  · split
    · extract_lets +onlyGivenNames x0
      refine Keeps.cut (s := z0) (t := x0) ?_ (fun _ => ?_)
      · subst x0
        refine State.wr_keeps ?_
        assumption
      clear_value x0
      refine State.setPort_keeps ?_
      assumption
    · assumption
  · split
    · refine State.wr_keeps ?_
      assumption
    · assumption

end Sys2Proof.Machine
end

