-- ==== Sys2Proof/Laws/Keeps/Records.lean ====
section
/-! SUPPORT. The operations of Machine/Records.lean are steps of the machine (`Keeps`). -/

set_option Elab.async false

namespace Sys2Proof.Machine

theorem State.keepCarried_keeps {z0 z1 : State} {a1 a2} (h1 : Keeps z0 z1) : Keeps z0 (State.keepCarried z1 a1 a2) := by
  unfold State.keepCarried
  extract_lets +onlyGivenNames x0
  extract_lets +onlyGivenNames x1
  refine Keeps.same ?_ rfl rfl rfl rfl rfl rfl rfl rfl rfl rfl rfl
  assumption

theorem State.setPair_keeps {z0 z1 : State} {a1 a2} (h1 : Keeps z0 z1) : Keeps z0 (State.setPair z1 a1 a2) := by
  unfold State.setPair
  refine Keeps.update ?_ rfl rfl (fun h => by simpa [State.Sized] using h)
  assumption

theorem State.pairFault_keeps {z0 z1 : State} {a1 a2} (h1 : Keeps z0 z1) : Keeps z0 (State.pairFault z1 a1 a2) := by
  unfold State.pairFault
  extract_lets +onlyGivenNames x0
  split
  · refine State.faultRec_keeps ?_
    assumption
  · refine State.faultRec_keeps ?_
    assumption

theorem State.applyPair_keeps {z0 z1 : State} {a1 a2 a3 a4 a5 a6} (h1 : Keeps z0 z1) : Keeps z0 (State.applyPair z1 a1 a2 a3 a4 a5 a6) := by
  unfold State.applyPair
  extract_lets +onlyGivenNames x0
  extract_lets +onlyGivenNames x1
  refine Keeps.cut (s := z0) (t := x1) ?_ (fun _ => ?_)
  · subst x1
    refine State.wr_keeps ?_
    assumption
  clear_value x1
  split
  · refine State.setPair_keeps ?_
    assumption
  · extract_lets +onlyGivenNames x2
    extract_lets +onlyGivenNames x3
    extract_lets +onlyGivenNames x4
    refine Keeps.cut (s := z0) (t := x4) ?_ (fun _ => ?_)
    · subst x4
      refine State.raise_keeps ?_
      refine State.count_keeps ?_
      refine State.count_keeps ?_
      refine State.pairFault_keeps ?_
      refine State.setPair_keeps ?_
      assumption
    clear_value x4
    extract_lets +onlyGivenNames x5
    refine Keeps.cut (s := z0) (t := x5) ?_ (fun _ => ?_)
    · subst x5
      refine State.wantTargeted_keeps ?_
      refine Keeps.foldl ?_ (fun _ _ _ => ?_)
      · assumption
      · refine State.unitBit_keeps ?_
        assumption
    clear_value x5
    split
    · refine State.addCause_keeps ?_
      assumption
    · assumption

theorem State.countGap_keeps {z0 z1 : State} {a1 a2 a3} (h1 : Keeps z0 z1) : Keeps z0 (State.countGap z1 a1 a2 a3) := by
  unfold State.countGap
  extract_lets +onlyGivenNames x0
  extract_lets +onlyGivenNames x1
  extract_lets +onlyGivenNames x2
  refine State.setPair_keeps ?_
  assumption

theorem State.runPair_keeps {z0 z1 : State} {a1 a2 a3 a4 a5 a6} (h1 : Keeps z0 z1) : Keeps z0 (State.runPair z1 a1 a2 a3 a4 a5 a6).1 := by
  unfold State.runPair
  split
  · dsimp only
    refine State.countGap_keeps ?_
    assumption
  · dsimp only
    refine State.applyPair_keeps ?_
    assumption

theorem State.runPairs_keeps {z0 z1 : State} {a1 a2 a3} (h1 : Keeps z0 z1) : Keeps z0 (State.runPairs z1 a1 a2 a3).1 := by
  unfold State.runPairs
  extract_lets +onlyGivenNames x0
  refine Keeps.foldl_fst ?_ (fun _ _ _ => ?_)
  · dsimp only
    assumption
  · refine State.runPair_keeps ?_
    assumption

theorem State.showSet_keeps {z0 z1 : State} {a1} (h1 : Keeps z0 z1) : Keeps z0 (State.showSet z1 a1) := by
  unfold State.showSet
  refine Keeps.foldl (Keeps.foldl ?_ fun u i hu => ?_) fun u i hu => ?_
  · exact State.wr_keeps (State.wr_keeps (State.wr_keeps (State.wr_keeps (State.wr_keeps h1))))
  · exact State.wr_keeps (State.wr_keeps (State.wr_keeps (State.wr_keeps (State.wr_keeps (State.wr_keeps
      (State.wr_keeps (State.wr_keeps (State.wr_keeps hu))))))))
  · exact State.wr_keeps (State.wr_keeps (State.wr_keeps (State.wr_keeps (State.wr_keeps (State.wr_keeps hu)))))

theorem State.enterSet_keeps {z0 z1 : State} {a1 a2} (h1 : Keeps z0 z1) : Keeps z0 (State.enterSet z1 a1 a2) := by
  unfold State.enterSet
  extract_lets +onlyGivenNames x0
  split
  · assumption
  · extract_lets +onlyGivenNames x1
    extract_lets +onlyGivenNames x2
    extract_lets +onlyGivenNames x3
    extract_lets +onlyGivenNames x4
    refine Keeps.cut (s := z0) (t := x4) ?_ (fun _ => ?_)
    · subst x4
      refine Keeps.update ?_ rfl rfl (fun h => by simp_all [State.Sized])
      assumption
    clear_value x4
    refine State.showSet_keeps ?_
    assumption

theorem State.showPairs_keeps {z0 z1 : State} {a1 a2} (h1 : Keeps z0 z1) : Keeps z0 (State.showPairs z1 a1 a2) := by
  unfold State.showPairs
  extract_lets +onlyGivenNames x0
  refine Keeps.cut (s := z0) (t := x0) ?_ (fun _ => ?_)
  · subst x0
    refine State.wr_keeps ?_
    assumption
  clear_value x0
  refine Keeps.foldl ?_ (fun _ _ _ => ?_)
  · assumption
  · extract_lets +onlyGivenNames x1
    refine State.wr_keeps ?_
    refine State.wr_keeps ?_
    refine State.wr_keeps ?_
    assumption

theorem State.ageField_keeps {z0 z1 : State} {a1 a2 a3 a4 a5} (h1 : Keeps z0 z1) : Keeps z0 (State.ageField z1 a1 a2 a3 a4 a5) := by
  unfold State.ageField
  split
  · extract_lets +onlyGivenNames x0
    extract_lets +onlyGivenNames x1
    refine Keeps.cut (s := z0) (t := x1) ?_ (fun _ => ?_)
    · subst x1
      refine State.wr_keeps ?_
      refine State.wr_keeps ?_
      refine State.wr_keeps ?_
      assumption
    clear_value x1
    extract_lets +onlyGivenNames x2
    refine Keeps.cut (s := z0) (t := x2) ?_ (fun _ => ?_)
    · subst x2
      refine State.wr_keeps ?_
      assumption
    clear_value x2
    split
    · refine State.count_keeps ?_
      assumption
    · assumption
  · refine State.wr_keeps ?_
    refine State.wr_keeps ?_
    assumption
  · refine State.wr_keeps ?_
    refine State.wr_keeps ?_
    assumption

end Sys2Proof.Machine
end

