-- ==== Sys2Proof/Laws/Keeps/Plinth.lean ====
section
/-! SUPPORT. The operations of Machine/Plinth.lean are steps of the machine (`Keeps`). -/

set_option Elab.async false

namespace Sys2Proof.Machine

theorem State.endBudget_keeps {z0 z1 : State} {a1} (h1 : Keeps z0 z1) : Keeps z0 (State.endBudget z1 a1) := by
  unfold State.endBudget
  extract_lets +onlyGivenNames x0
  split
  · assumption
  · extract_lets +onlyGivenNames x1
    refine State.endCauses_keeps ?_
    refine State.wantTargeted_keeps ?_
    assumption

theorem State.checkBudget_keeps {z0 z1 : State} {a1} (h1 : Keeps z0 z1) : Keeps z0 (State.checkBudget z1 a1) := by
  unfold State.checkBudget
  extract_lets +onlyGivenNames x0
  split
  · refine State.addCause_keeps ?_
    assumption
  · assumption

theorem State.countInvalid_keeps {z0 z1 : State} {a1} (h1 : Keeps z0 z1) : Keeps z0 (State.countInvalid z1 a1) := by
  unfold State.countInvalid
  extract_lets +onlyGivenNames x0
  extract_lets +onlyGivenNames x1
  refine Keeps.cut (s := z0) (t := x1) ?_ (fun _ => ?_)
  · subst x1
    refine State.wr_keeps ?_
    refine State.wr_keeps ?_
    assumption
  clear_value x1
  refine Keeps.same ?_ rfl rfl rfl rfl rfl rfl rfl rfl rfl rfl rfl
  assumption

theorem State.evaluateRecord_keeps {z0 z1 : State} {a1} (h1 : Keeps z0 z1) : Keeps z0 (State.evaluateRecord z1 a1).1 := by
  unfold State.evaluateRecord
  split
  · exact State.enterSet_keeps h1
  · rename_i r _
    extract_lets +onlyGivenNames old swapped s0 s1 ready cs was s2 m s3 res s4 fail rate cams s5 before s6
    clear_value old
    have h0 : Keeps z0 s0 := by
      subst s0
      split
      · exact State.keepCarried_keeps h1
      · exact h1
    clear_value s0
    have hs1 : Keeps z0 s1 := State.enterSet_keeps h0
    clear_value s1
    have hs2 : Keeps z0 s2.1 := by
      subst s2
      split
      · exact State.runPairs_keeps hs1
      · exact Keeps.foldl hs1 fun _ _ h => State.countGap_keeps h
    subst m
    clear_value s2
    have hs3 : Keeps z0 s3 := Keeps.foldl hs2 fun _ _ h => State.ageField_keeps h
    clear_value s3
    have hs4 : Keeps z0 s4 := by
      subst s4
      split
      · exact State.count_keeps hs3
      · exact hs3
    clear_value s4
    have hs5 : Keeps z0 s5 := State.showPairs_keeps hs4
    clear_value s5
    have hs6 : Keeps z0 s6 := by
      subst s6
      split
      · exact hs5
      · exact State.raise_keeps hs5
    exact hs6

theorem execRecordLatch_keeps {z0 z1 t0 : State} {a1} (h1 : Keeps z0 z1) (ht : execRecordLatch a1 z1 = .next t0) :
    Keeps z0 t0 := by
  unfold execRecordLatch at ht
  extract_lets +onlyGivenNames x0 at ht
  extract_lets +onlyGivenNames x1 at ht
  cases ht
  split
  · assumption
  · extract_lets +onlyGivenNames x2
    refine Keeps.cut (s := z0) (t := x2) ?_ (fun _ => ?_)
    · subst x2
      split
      · assumption
      · refine State.startAnew_keeps ?_
        refine State.addCause_keeps ?_
        assumption
    clear_value x2
    extract_lets +onlyGivenNames x3
    refine Keeps.cut (s := z0) (t := x3.1) ?_ (fun _ => ?_)
    · subst x3
      refine State.evaluateRecord_keeps ?_
      assumption
    clear_value x3
    extract_lets +onlyGivenNames x4
    extract_lets +onlyGivenNames x5
    extract_lets +onlyGivenNames x6
    refine Keeps.cut (s := z0) (t := x6) ?_ (fun _ => ?_)
    · subst x6
      refine State.checkBudget_keeps ?_
      refine State.endBudget_keeps ?_
      assumption
    clear_value x6
    extract_lets +onlyGivenNames x7
    extract_lets +onlyGivenNames x8
    extract_lets +onlyGivenNames x9
    refine Keeps.cut (s := z0) (t := x9) ?_ (fun _ => ?_)
    · subst x9
      refine State.wr_keeps ?_
      refine State.countInvalid_keeps ?_
      assumption
    clear_value x9
    extract_lets +onlyGivenNames x10
    refine Keeps.same ?_ rfl rfl rfl rfl rfl rfl rfl rfl rfl rfl rfl
    assumption

theorem State.emitSl_keeps {z0 z1 : State} {a1} (h1 : Keeps z0 z1) : Keeps z0 (State.emitSl z1 a1) := by
  unfold State.emitSl
  refine State.emit_keeps ?_
  refine State.emit_keeps ?_
  assumption

theorem execRecordEmit_keeps {z0 z1 t0 : State} (h1 : Keeps z0 z1) (ht : execRecordEmit z1 = .next t0) :
    Keeps z0 t0 := by
  unfold execRecordEmit at ht
  cases ht
  split
  · assumption
  · split
    · assumption
    · extract_lets +onlyGivenNames x0
      extract_lets +onlyGivenNames x1
      refine Keeps.cut (s := z0) (t := x1) ?_ (fun _ => ?_)
      · subst x1
        refine State.emitSl_keeps ?_
        assumption
      clear_value x1
      refine Keeps.same ?_ rfl rfl rfl rfl rfl rfl rfl rfl rfl rfl rfl
      assumption

theorem State.copyRecord_keeps {z0 z1 : State} {a1} (h1 : Keeps z0 z1) : Keeps z0 (State.copyRecord z1 a1) := by
  unfold State.copyRecord
  extract_lets +onlyGivenNames x0
  split
  · assumption
  · extract_lets +onlyGivenNames x1
    split
    · refine State.pump_keeps ?_
      refine State.setPort_keeps ?_
      refine State.count_keeps ?_
      assumption
    · refine State.pump_keeps ?_
      refine State.setPort_keeps ?_
      assumption

theorem execFaultWindow_keeps {z0 z1 t0 : State} (h1 : Keeps z0 z1) (ht : execFaultWindow z1 = .next t0) :
    Keeps z0 t0 := by
  unfold execFaultWindow at ht
  cases ht
  split
  · assumption
  · extract_lets +onlyGivenNames x0
    extract_lets +onlyGivenNames x1
    extract_lets +onlyGivenNames x2
    extract_lets +onlyGivenNames x3
    extract_lets +onlyGivenNames x4
    refine Keeps.cut (s := z0) (t := x4) ?_ (fun _ => ?_)
    · subst x4
      refine Keeps.foldl ?_ (fun _ _ _ => ?_)
      · assumption
      · refine State.emitSl_keeps ?_
        assumption
    clear_value x4
    extract_lets +onlyGivenNames x5
    extract_lets +onlyGivenNames x6
    extract_lets +onlyGivenNames x7
    refine Keeps.cut (s := z0) (t := x7) ?_ (fun _ => ?_)
    · subst x7
      refine Keeps.same ?_ rfl rfl rfl rfl rfl rfl rfl rfl rfl rfl rfl
      assumption
    clear_value x7
    refine State.copyRecord_keeps ?_
    refine State.copyRecord_keeps ?_
    assumption

theorem execSafeMark_keeps {z0 z1 t0 : State} (h1 : Keeps z0 z1) (ht : execSafeMark z1 = .next t0) :
    Keeps z0 t0 := by
  unfold execSafeMark at ht
  cases ht
  split
  · assumption
  · split
    · assumption
    · refine State.emitSl_keeps ?_
      refine Keeps.same ?_ rfl rfl rfl rfl rfl rfl rfl rfl rfl rfl rfl
      assumption

theorem State.motionWake_keeps {z0 z1 : State} {a1} (h1 : Keeps z0 z1) : Keeps z0 (State.motionWake z1 a1) := by
  unfold State.motionWake
  split
  · assumption
  · split
    · refine Keeps.same ?_ rfl rfl rfl rfl rfl rfl rfl rfl rfl rfl rfl
      assumption
    · split
      · refine State.wr_keeps ?_
        refine Keeps.same ?_ rfl rfl rfl rfl rfl rfl rfl rfl rfl rfl rfl
        assumption
      · assumption

theorem State.useOdo_keeps {z0 z1 : State} {a1 a2 a3} (h1 : Keeps z0 z1) : Keeps z0 (State.useOdo z1 a1 a2 a3) := by
  unfold State.useOdo
  extract_lets +onlyGivenNames x0
  extract_lets +onlyGivenNames x1
  extract_lets +onlyGivenNames x2
  extract_lets +onlyGivenNames x3
  refine Keeps.cut (s := z0) (t := x3) ?_ (fun _ => ?_)
  · subst x3
    refine Keeps.same ?_ rfl rfl rfl rfl rfl rfl rfl rfl rfl rfl rfl
    assumption
  clear_value x3
  extract_lets +onlyGivenNames x4
  refine Keeps.cut (s := z0) (t := x4) ?_ (fun _ => ?_)
  · subst x4
    refine State.wr_keeps ?_
    refine State.wr2_keeps ?_
    assumption
  clear_value x4
  refine State.motionWake_keeps ?_
  assumption

theorem State.useVt_keeps {z0 z1 : State} {a1 a2} (h1 : Keeps z0 z1) : Keeps z0 (State.useVt z1 a1 a2) := by
  unfold State.useVt
  refine State.wr2_keeps ?_
  refine Keeps.same ?_ rfl rfl rfl rfl rfl rfl rfl rfl rfl rfl rfl
  assumption

theorem State.useFrame_keeps {z0 z1 : State} {a1 a2 a3 a4} (h1 : Keeps z0 z1) : Keeps z0 (State.useFrame z1 a1 a2 a3 a4) := by
  unfold State.useFrame
  extract_lets +onlyGivenNames x0
  split
  · extract_lets +onlyGivenNames x1
    extract_lets +onlyGivenNames x2
    extract_lets +onlyGivenNames x3
    refine Keeps.cut (s := z0) (t := x3) ?_ (fun _ => ?_)
    · subst x3
      refine Keeps.same ?_ rfl rfl rfl rfl rfl rfl rfl rfl rfl rfl rfl
      assumption
    clear_value x3
    split
    · refine State.useOdo_keeps ?_
      assumption
    · refine State.useVt_keeps ?_
      assumption
  · split
    · split
      · refine State.fault_keeps ?_
        refine State.count_keeps ?_
        assumption
      · assumption
    · assumption

theorem State.followInhibit_keeps {z0 z1 : State} (h1 : Keeps z0 z1) : Keeps z0 (State.followInhibit z1) := by
  unfold State.followInhibit
  split
  · refine State.addCause_keeps ?_
    assumption
  · refine State.endCauses_keeps ?_
    assumption

theorem State.acceptClear_keeps {z0 z1 : State} {a1} (h1 : Keeps z0 z1) : Keeps z0 (State.acceptClear z1 a1) := by
  unfold State.acceptClear
  extract_lets +onlyGivenNames x0
  extract_lets +onlyGivenNames x1
  extract_lets +onlyGivenNames x2
  refine Keeps.cut (s := z0) (t := x2) ?_ (fun _ => ?_)
  · subst x2
    refine Keeps.update ?_ rfl rfl (fun h => by simpa [State.Sized] using h)
    assumption
  clear_value x2
  extract_lets +onlyGivenNames x3
  refine Keeps.cut (s := z0) (t := x3) ?_ (fun _ => ?_)
  · subst x3
    refine State.wr_keeps ?_
    refine State.wr_keeps ?_
    refine State.wr_keeps ?_
    refine State.wr_keeps ?_
    refine State.wr_keeps ?_
    assumption
  clear_value x3
  refine State.raise_keeps ?_
  refine State.faultRec_keeps ?_
  assumption

theorem State.decideClear_keeps {z0 z1 : State} {a1 a2 a3 a4} (h1 : Keeps z0 z1) : Keeps z0 (State.decideClear z1 a1 a2 a3 a4) := by
  unfold State.decideClear
  extract_lets +onlyGivenNames x0
  extract_lets +onlyGivenNames x1
  refine Keeps.cut (s := z0) (t := x1) ?_ (fun _ => ?_)
  · subst x1
    refine State.plinthAudit_keeps ?_
    refine State.wr_keeps ?_
    assumption
  clear_value x1
  split
  · refine State.acceptClear_keeps ?_
    assumption
  · refine State.raise_keeps ?_
    assumption

theorem State.slCommand_keeps {z0 z1 : State} {a1 a2 a3} (h1 : Keeps z0 z1) : Keeps z0 (State.slCommand z1 a1 a2 a3) := by
  unfold State.slCommand
  extract_lets +onlyGivenNames x0
  split
  · assumption
  · extract_lets +onlyGivenNames x1
    extract_lets +onlyGivenNames x2
    refine Keeps.cut (s := z0) (t := x2) ?_ (fun _ => ?_)
    · subst x2
      refine State.wr_keeps ?_
      refine Keeps.same ?_ rfl rfl rfl rfl rfl rfl rfl rfl rfl rfl rfl
      assumption
    clear_value x2
    split
    · refine State.followInhibit_keeps ?_
      refine State.plinthAudit_keeps ?_
      refine State.wr_keeps ?_
      assumption
    · extract_lets +onlyGivenNames x3
      extract_lets +onlyGivenNames x4
      refine Keeps.cut (s := z0) (t := x4) ?_ (fun _ => ?_)
      · subst x4
        refine State.decideClear_keeps ?_
        assumption
      clear_value x4
      refine Keeps.same ?_ rfl rfl rfl rfl rfl rfl rfl rfl rfl rfl rfl
      assumption

theorem State.downlink_keeps {z0 z1 : State} {a1 a2 a3} (h1 : Keeps z0 z1) : Keeps z0 (State.downlink z1 a1 a2 a3) := by
  unfold State.downlink
  split
  · assumption
  · split
    · refine State.count_keeps ?_
      assumption
    · split
      · refine State.useFrame_keeps ?_
        assumption
      · refine State.slCommand_keeps ?_
        assumption

theorem execOdometry_keeps {z0 z1 t0 : State} {a1 a2 a3} (h1 : Keeps z0 z1) (ht : execOdometry a1 a2 a3 z1 = .next t0) :
    Keeps z0 t0 := by
  unfold execOdometry at ht
  cases ht
  refine State.downlink_keeps ?_
  assumption

theorem execVtime_keeps {z0 z1 t0 : State} {a1 a2 a3} (h1 : Keeps z0 z1) (ht : execVtime a1 a2 a3 z1 = .next t0) :
    Keeps z0 t0 := by
  unfold execVtime at ht
  cases ht
  refine State.downlink_keeps ?_
  assumption

theorem execInhibit_keeps {z0 z1 t0 : State} {a1 a2} (h1 : Keeps z0 z1) (ht : execInhibit a1 a2 z1 = .next t0) :
    Keeps z0 t0 := by
  unfold execInhibit at ht
  cases ht
  refine State.downlink_keeps ?_
  assumption

theorem execClear_keeps {z0 z1 t0 : State} {a1 a2} (h1 : Keeps z0 z1) (ht : execClear a1 a2 z1 = .next t0) :
    Keeps z0 t0 := by
  unfold execClear at ht
  cases ht
  refine State.downlink_keeps ?_
  assumption

theorem plnClearAct_keeps {z0 z1 : State} {a1 a2} (h1 : Keeps z0 z1) : Keeps z0 (plnClearAct z1 a1 a2) := by
  unfold plnClearAct
  refine State.decideClear_keeps ?_
  assumption

theorem plnInhibitAct_keeps {z0 z1 : State} {a1 a2 a3} (h1 : Keeps z0 z1) : Keeps z0 (plnInhibitAct z1 a1 a2 a3) := by
  unfold plnInhibitAct
  refine State.followInhibit_keeps ?_
  refine State.plinthAudit_keeps ?_
  refine State.wr_keeps ?_
  assumption

end Sys2Proof.Machine
end

