-- ==== Sys2Proof/Laws/Keeps/Options.lean ====
section
/-! SUPPORT. The operations of Machine/Options.lean are steps of the machine (`Keeps`). -/

set_option Elab.async false

namespace Sys2Proof.Machine

theorem State.runFirmware_keeps {z0 z1 : State} {a1} (h1 : Keeps z0 z1) : Keeps z0 (State.runFirmware z1 a1) := by
  unfold State.runFirmware
  refine Keeps.same ?_ rfl rfl rfl rfl rfl rfl rfl rfl rfl rfl rfl
  assumption

theorem State.awaitBoot_keeps {z0 z1 : State} (h1 : Keeps z0 z1) : Keeps z0 (State.awaitBoot z1) := by
  unfold State.awaitBoot
  refine Keeps.same ?_ rfl rfl rfl rfl rfl rfl rfl rfl rfl rfl rfl
  assumption

theorem execFirmwareVerify_keeps {z0 z1 t0 : State} {a1} (h1 : Keeps z0 z1) (ht : execFirmwareVerify a1 z1 = .next t0) :
    Keeps z0 t0 := by
  unfold execFirmwareVerify at ht
  extract_lets +onlyGivenNames x0 at ht
  extract_lets +onlyGivenNames x1 at ht
  cases ht
  split
  · assumption
  · assumption
  · split
    · assumption
    · split
      · refine State.awaitBoot_keeps ?_
        assumption
      · split
        · refine State.awaitBoot_keeps ?_
          refine State.fault_keeps ?_
          refine State.fault_keeps ?_
          assumption
        · split
          · refine State.awaitBoot_keeps ?_
            refine State.fault_keeps ?_
            assumption
          · split
            · refine State.awaitBoot_keeps ?_
              refine State.fault_keeps ?_
              assumption
            · refine State.runFirmware_keeps ?_
              assumption

theorem State.optField_keeps {z0 z1 : State} {a1 a2 a3 a4 a5 a6} (h1 : Keeps z0 z1) : Keeps z0 (State.optField z1 a1 a2 a3 a4 a5 a6) := by
  unfold State.optField
  split
  · split
    · assumption
    · refine State.wr_keeps ?_
      assumption
  · split
    · assumption
    · refine State.wr_keeps ?_
      assumption
  · refine State.wrShadow_keeps ?_
    assumption
  · assumption
  · assumption
  · assumption

/-- What an option record leaves. -/
theorem State.optRecord_keeps {z0 z1 t : State} {b r} (h1 : Keeps z0 z1) (ht : State.optRecord z1 b r = .ok t) : Keeps z0 t := by
  unfold State.optRecord at ht
  split at ht
  · cases ht
  · rename_i p _
    extract_lets +onlyGivenNames w all hit known u at ht
    have hu : Keeps z0 u := Keeps.foldl h1 fun _ _ h => State.optField_keeps h
    clear_value u
    split at ht
    · cases ht
    · split at ht
      · cases ht
      · split at ht
        · cases ht
        · split at ht
          · split at ht
            · cases ht
            · cases ht
              exact State.dropShadows_keeps (State.withShadows_keeps hu)
          · cases ht
            exact hu

/-- What a layer of records leaves. -/
theorem optLayer_keeps {z0 z1 t : State} {b l i} (h1 : Keeps z0 z1) (ht : optLayer b l i z1 = .ok t) : Keeps z0 t := by
  induction l generalizing i z1 with
  | nil => cases ht; exact h1
  | cons r l ih =>
    unfold optLayer at ht
    split at ht
    · cases ht
    · rename_i u hu
      exact ih (State.optRecord_keeps h1 hu) ht

theorem State.optStart_keeps {z0 z1 : State} (h1 : Keeps z0 z1) : Keeps z0 (State.optStart z1) := by
  refine h1.step rfl (Nat.le_refl _) (List.suffix_refl _) id (fun x => RegFile.wf_filter x) (fun x => RegFile.wf_filter x) id rfl

theorem State.applyOptions_keeps {z0 z1 z2 : State} (h1 : Keeps z0 z1) (h2 : Keeps z0 z2) : Keeps z0 (State.applyOptions z1 z2) := by
  unfold State.applyOptions
  refine State.followInhibit_keeps (Keeps.foldl ?_ fun _ _ h => State.loadPage_keeps h)
  refine h1.step rfl (Nat.le_refl _) (List.suffix_refl _) id (fun x => layRegs_wf (RegFile.wf_filter x)) (fun x => layRegs_wf (RegFile.wf_filter x)) id rfl

theorem State.passDone_keeps {z0 z1 : State} {a1 a2 a3} (h1 : Keeps z0 z1) : Keeps z0 (State.passDone z1 a1 a2 a3) := by
  unfold State.passDone
  extract_lets +onlyGivenNames x0
  refine Keeps.cut (s := z0) (t := x0) ?_ (fun _ => ?_)
  · subst x0
    refine State.wr_keeps ?_
    refine State.wr_keeps ?_
    refine State.wr_keeps ?_
    assumption
  clear_value x0
  extract_lets +onlyGivenNames x1
  refine Keeps.cut (s := z0) (t := x1) ?_ (fun _ => ?_)
  · subst x1
    refine Keeps.foldl ?_ (fun _ _ _ => ?_)
    · assumption
    · refine State.wr_keeps ?_
      assumption
  clear_value x1
  split
  · refine State.wr_keeps ?_
    assumption
  · split
    · refine State.plinthAudit_keeps ?_
      refine State.fault_keeps ?_
      refine State.wr_keeps ?_
      assumption
    · assumption

theorem State.afterOptions_keeps {z0 z1 : State} (h1 : Keeps z0 z1) : Keeps z0 (State.afterOptions z1) := by
  unfold State.afterOptions
  split
  · refine State.checkBringup_keeps ?_
    refine State.mgcRequests_keeps ?_
    refine State.startFirmware_keeps ?_
    assumption
  · assumption

theorem execOptionPass_keeps {z0 z1 t0 : State} {a1} (h1 : Keeps z0 z1) (ht : execOptionPass a1 z1 = .next t0) :
    Keeps z0 t0 := by
  unfold execOptionPass at ht
  cases ht
  split
  · exact h1
  · extract_lets +onlyGivenNames st fac s0 alone
    have h0 : Keeps z0 s0 := State.wr_keeps h1
    clear_value s0
    split
    · exact State.passFailed_keeps h0
    · split
      · exact State.fault_keeps (Keeps.same h0 rfl rfl rfl rfl rfl rfl rfl rfl rfl rfl rfl)
      · rename_i t ht
        have hk : Keeps z0 t := by
          split at ht
          · exact optLayer_keeps (State.optStart_keeps h1) ht
          · cases ht
        split
        · exact State.afterOptions_keeps (State.passDone_keeps (State.applyOptions_keeps h0 hk))
        · extract_lets +onlyGivenNames c
          split
          · exact State.passFailed_keeps h0
          · extract_lets +onlyGivenNames rs
            split
            · exact State.passFailed_keeps h0
            · rename_i t2 ht2
              exact State.afterOptions_keeps (State.passDone_keeps (State.applyOptions_keeps h0 (optLayer_keeps hk ht2)))

end Sys2Proof.Machine
end

