-- ==== Sys2Proof/Laws/Keeps/Messages.lean ====
section
/-! SUPPORT. The operations of Machine/Messages.lean are steps of the machine (`Keeps`). -/

set_option Elab.async false

namespace Sys2Proof.Machine

theorem State.whenUp_keeps {z0 z1 z2 : State} {a1} (h1 : Keeps z0 z1) (h2 : Keeps z0 z2) : Keeps z0 (State.whenUp z1 a1 z2) := by
  unfold State.whenUp
  split
  · assumption
  · assumption

theorem State.memRead_keeps {z0 z1 : State} {a1 a2 a3} (h1 : Keeps z0 z1) : Keeps z0 (State.memRead z1 a1 a2 a3) := by
  unfold State.memRead
  extract_lets +onlyGivenNames x0
  extract_lets +onlyGivenNames x1
  split
  · refine State.complete_keeps ?_
    assumption
  · split
    · refine State.complete_keeps ?_
      assumption
    · split
      · refine State.complete_keeps ?_
        assumption
      · extract_lets +onlyGivenNames x2
        refine State.complete_keeps ?_
        assumption

theorem State.memWrite_keeps {z0 z1 : State} {a1 a2 a3} (h1 : Keeps z0 z1) : Keeps z0 (State.memWrite z1 a1 a2 a3) := by
  unfold State.memWrite
  extract_lets +onlyGivenNames x0
  split
  · refine State.complete_keeps ?_
    assumption
  · refine State.complete_keeps ?_
    refine State.store_keeps ?_
    assumption

theorem execMemRd_keeps {z0 z1 t0 : State} {a1 a2 a3} (h1 : Keeps z0 z1) (ht : execMemRd a1 a2 a3 z1 = .next t0) :
    Keeps z0 t0 := by
  unfold execMemRd at ht
  cases ht
  refine State.whenUp_keeps ?_ ?_
  · assumption
  · refine State.memRead_keeps ?_
    assumption

theorem execMemWr_keeps {z0 z1 t0 : State} {a1 a2 a3} (h1 : Keeps z0 z1) (ht : execMemWr a1 a2 a3 z1 = .next t0) :
    Keeps z0 t0 := by
  unfold execMemWr at ht
  cases ht
  refine State.whenUp_keeps ?_ ?_
  · assumption
  · refine State.memWrite_keeps ?_
    assumption

theorem State.hostFailed_keeps {z0 z1 : State} {a1 a2} (h1 : Keeps z0 z1) : Keeps z0 (State.hostFailed z1 a1 a2) := by
  unfold State.hostFailed
  refine State.abortTask_keeps ?_
  refine State.faultRec_keeps ?_
  assumption

theorem State.hostCompletion_keeps {z0 z1 : State} {a1 a2 a3 a4} (h1 : Keeps z0 z1) : Keeps z0 (State.hostCompletion z1 a1 a2 a3 a4) := by
  unfold State.hostCompletion
  split
  · assumption
  · extract_lets +onlyGivenNames x0
    extract_lets +onlyGivenNames x1
    refine Keeps.cut (s := z0) (t := x1) ?_ (fun _ => ?_)
    · subst x1
      refine State.setPort_keeps ?_
      assumption
    clear_value x1
    split
    · refine State.hostFailed_keeps ?_
      assumption
    · split
      · assumption
      · refine State.store_keeps ?_
        refine State.markWrite_keeps ?_
        assumption

theorem execHostCompletion_keeps {z0 z1 t0 : State} {a1 a2 a3 a4} (h1 : Keeps z0 z1) (ht : execHostCompletion a1 a2 a3 a4 z1 = .next t0) :
    Keeps z0 t0 := by
  unfold execHostCompletion at ht
  cases ht
  refine State.whenUp_keeps ?_ ?_
  · assumption
  · refine State.hostCompletion_keeps ?_
    assumption

theorem execHostTimeout_keeps {z0 z1 t0 : State} {a1 a2} (h1 : Keeps z0 z1) (ht : execHostTimeout a1 a2 z1 = .next t0) :
    Keeps z0 t0 := by
  unfold execHostTimeout at ht
  extract_lets +onlyGivenNames x0 at ht
  cases ht
  split
  · assumption
  · split
    · refine State.hostFailed_keeps ?_
      assumption
    · assumption

theorem State.jobSubmit_keeps {z0 z1 : State} {a1 a2 a3} (h1 : Keeps z0 z1) : Keeps z0 (State.jobSubmit z1 a1 a2 a3) := by
  unfold State.jobSubmit
  extract_lets +onlyGivenNames x0
  extract_lets +onlyGivenNames x1
  split
  · assumption
  · extract_lets +onlyGivenNames x2
    refine Keeps.cut (s := z0) (t := x2) ?_ (fun _ => ?_)
    · subst x2
      refine State.wr_keeps ?_
      assumption
    clear_value x2
    split
    · extract_lets +onlyGivenNames x3
      extract_lets +onlyGivenNames x4
      refine State.setPort_keeps ?_
      assumption
    · refine State.grantVc2_keeps ?_
      refine State.jobDone_keeps ?_
      assumption

theorem execJobSubmit_keeps {z0 z1 t0 : State} {a1 a2 a3} (h1 : Keeps z0 z1) (ht : execJobSubmit a1 a2 a3 z1 = .next t0) :
    Keeps z0 t0 := by
  unfold execJobSubmit at ht
  cases ht
  refine State.whenUp_keeps ?_ ?_
  · assumption
  · refine State.jobSubmit_keeps ?_
    assumption

theorem execJobIntakeAdmit_keeps {z0 z1 t0 : State} {a1} (h1 : Keeps z0 z1) (ht : execJobIntakeAdmit a1 z1 = .next t0) :
    Keeps z0 t0 := by
  unfold execJobIntakeAdmit at ht
  extract_lets +onlyGivenNames x0 at ht
  cases ht
  split
  · split
    · extract_lets +onlyGivenNames x1
      refine Keeps.cut (s := z0) (t := x1) ?_ (fun _ => ?_)
      · subst x1
        refine State.setPort_keeps ?_
        assumption
      clear_value x1
      refine Keeps.same ?_ rfl rfl rfl rfl rfl rfl rfl rfl rfl rfl rfl
      assumption
    · assumption
  · assumption

theorem State.openSession_keeps {z0 z1 : State} {a1 a2} (h1 : Keeps z0 z1) : Keeps z0 (State.openSession z1 a1 a2) := by
  unfold State.openSession
  extract_lets +onlyGivenNames x0
  split
  · refine State.complete_keeps ?_
    assumption
  · split
    · refine State.complete_keeps ?_
      assumption
    · split
      · extract_lets +onlyGivenNames x1
        extract_lets +onlyGivenNames x2
        extract_lets +onlyGivenNames x3
        refine Keeps.cut (s := z0) (t := x3) ?_ (fun _ => ?_)
        · subst x3
          refine Keeps.same ?_ rfl rfl rfl rfl rfl rfl rfl rfl rfl rfl rfl
          assumption
        clear_value x3
        refine State.complete_keeps ?_
        refine State.audit_keeps ?_
        assumption
      · extract_lets +onlyGivenNames x4
        refine Keeps.cut (s := z0) (t := x4.2) ?_ (fun _ => ?_)
        · subst x4
          refine State.drawBytes_keeps ?_
          assumption
        clear_value x4
        extract_lets +onlyGivenNames x5
        refine State.complete_keeps ?_
        refine State.setPort_keeps ?_
        assumption

theorem execSessionOpen_keeps {z0 z1 t0 : State} {a1 a2} (h1 : Keeps z0 z1) (ht : execSessionOpen a1 a2 z1 = .next t0) :
    Keeps z0 t0 := by
  unfold execSessionOpen at ht
  cases ht
  refine State.whenUp_keeps ?_ ?_
  · assumption
  · refine State.openSession_keeps ?_
    assumption

theorem State.takeResponse_keeps {z0 z1 : State} {a1 a2} (h1 : Keeps z0 z1) : Keeps z0 (State.takeResponse z1 a1 a2) := by
  unfold State.takeResponse
  extract_lets +onlyGivenNames x0
  extract_lets +onlyGivenNames x1
  split
  · refine State.complete_keeps ?_
    assumption
  · split
    · refine State.complete_keeps ?_
      assumption
    · extract_lets +onlyGivenNames x2
      refine State.setPort_keeps ?_
      assumption

theorem execSessionResponse_keeps {z0 z1 t0 : State} {a1 a2} (h1 : Keeps z0 z1) (ht : execSessionResponse a1 a2 z1 = .next t0) :
    Keeps z0 t0 := by
  unfold execSessionResponse at ht
  cases ht
  refine State.whenUp_keeps ?_ ?_
  · assumption
  · refine State.takeResponse_keeps ?_
    assumption

theorem State.sessionOpened_keeps {z0 z1 : State} {a1 a2} (h1 : Keeps z0 z1) : Keeps z0 (State.sessionOpened z1 a1 a2) := by
  unfold State.sessionOpened
  extract_lets +onlyGivenNames x0
  extract_lets +onlyGivenNames x1
  extract_lets +onlyGivenNames x2
  extract_lets +onlyGivenNames x3
  refine Keeps.cut (s := z0) (t := x3) ?_ (fun _ => ?_)
  · subst x3
    refine Keeps.same ?_ rfl rfl rfl rfl rfl rfl rfl rfl rfl rfl rfl
    assumption
  clear_value x3
  extract_lets +onlyGivenNames x4
  refine Keeps.cut (s := z0) (t := x4) ?_ (fun _ => ?_)
  · subst x4
    refine State.wr_keeps ?_
    refine State.wr_keeps ?_
    assumption
  clear_value x4
  refine State.complete_keeps ?_
  refine State.sessionEvent_keeps ?_
  refine State.audit_keeps ?_
  assumption

theorem State.sessionFailed_keeps {z0 z1 : State} {a1 a2} (h1 : Keeps z0 z1) : Keeps z0 (State.sessionFailed z1 a1 a2) := by
  unfold State.sessionFailed
  extract_lets +onlyGivenNames x0
  extract_lets +onlyGivenNames x1
  extract_lets +onlyGivenNames x2
  extract_lets +onlyGivenNames x3
  refine Keeps.cut (s := z0) (t := x3) ?_ (fun _ => ?_)
  · subst x3
    refine Keeps.same ?_ rfl rfl rfl rfl rfl rfl rfl rfl rfl rfl rfl
    assumption
  clear_value x3
  extract_lets +onlyGivenNames x4
  extract_lets +onlyGivenNames x5
  refine Keeps.cut (s := z0) (t := x5) ?_ (fun _ => ?_)
  · subst x5
    refine State.audit_keeps ?_
    refine State.fault_keeps ?_
    refine State.wr_keeps ?_
    assumption
  clear_value x5
  extract_lets +onlyGivenNames x6
  refine Keeps.cut (s := z0) (t := x6) ?_ (fun _ => ?_)
  · subst x6
    refine State.fault_keeps ?_
    refine State.wr_keeps ?_
    assumption
  clear_value x6
  extract_lets +onlyGivenNames x7
  extract_lets +onlyGivenNames x8
  refine Keeps.cut (s := z0) (t := x8) ?_ (fun _ => ?_)
  · subst x8
    split
    · assumption
    · refine State.audit_keeps ?_
      refine State.setPort_keeps ?_
      assumption
  clear_value x8
  refine State.complete_keeps ?_
  assumption

theorem execSessionResult_keeps {z0 z1 t0 : State} {a1} (h1 : Keeps z0 z1) (ht : execSessionResult a1 z1 = .next t0) :
    Keeps z0 t0 := by
  unfold execSessionResult at ht
  extract_lets +onlyGivenNames x0 at ht
  cases ht
  split
  · assumption
  · extract_lets +onlyGivenNames x1
    refine Keeps.cut (s := z0) (t := x1) ?_ (fun _ => ?_)
    · subst x1
      refine State.setPort_keeps ?_
      assumption
    clear_value x1
    extract_lets +onlyGivenNames x2
    split
    · refine State.sessionOpened_keeps ?_
      assumption
    · refine State.sessionFailed_keeps ?_
      assumption

theorem execLockoutEnd_keeps {z0 z1 t0 : State} {a1} (h1 : Keeps z0 z1) (ht : execLockoutEnd a1 z1 = .next t0) :
    Keeps z0 t0 := by
  unfold execLockoutEnd at ht
  extract_lets +onlyGivenNames x0 at ht
  extract_lets +onlyGivenNames x1 at ht
  cases ht
  split
  · split
    · refine State.wr_keeps ?_
      refine State.wr_keeps ?_
      refine State.setPort_keeps ?_
      assumption
    · assumption
  · assumption

theorem execNonceExpire_keeps {z0 z1 t0 : State} {a1} (h1 : Keeps z0 z1) (ht : execNonceExpire a1 z1 = .next t0) :
    Keeps z0 t0 := by
  unfold execNonceExpire at ht
  extract_lets +onlyGivenNames x0 at ht
  cases ht
  split
  · split
    · refine State.setPort_keeps ?_
      assumption
    · assumption
  · assumption

theorem State.closeSession_keeps {z0 z1 : State} {a1} (h1 : Keeps z0 z1) : Keeps z0 (State.closeSession z1 a1) := by
  unfold State.closeSession
  extract_lets +onlyGivenNames x0
  split
  · refine State.complete_keeps ?_
    assumption
  · extract_lets +onlyGivenNames x1
    extract_lets +onlyGivenNames x2
    extract_lets +onlyGivenNames x3
    refine Keeps.cut (s := z0) (t := x3) ?_ (fun _ => ?_)
    · subst x3
      refine Keeps.same ?_ rfl rfl rfl rfl rfl rfl rfl rfl rfl rfl rfl
      assumption
    clear_value x3
    refine State.complete_keeps ?_
    refine State.endSession_keeps ?_
    assumption

theorem execSessionClose_keeps {z0 z1 t0 : State} {a1} (h1 : Keeps z0 z1) (ht : execSessionClose a1 z1 = .next t0) :
    Keeps z0 t0 := by
  unfold execSessionClose at ht
  cases ht
  refine State.whenUp_keeps ?_ ?_
  · assumption
  · refine State.closeSession_keeps ?_
    assumption

theorem State.subscribe_keeps {z0 z1 : State} {a1 a2} (h1 : Keeps z0 z1) : Keeps z0 (State.subscribe z1 a1 a2) := by
  unfold State.subscribe
  extract_lets +onlyGivenNames x0
  extract_lets +onlyGivenNames x1
  split
  · refine State.complete_keeps ?_
    assumption
  · split
    · refine State.complete_keeps ?_
      assumption
    · split
      · refine State.complete_keeps ?_
        assumption
      · extract_lets +onlyGivenNames x2
        extract_lets +onlyGivenNames x3
        refine Keeps.cut (s := z0) (t := x3) ?_ (fun _ => ?_)
        · subst x3
          refine State.setPort_keeps ?_
          assumption
        clear_value x3
        refine State.complete_keeps ?_
        refine State.wr_keeps ?_
        assumption

theorem execRecCopy_keeps {z0 z1 t0 : State} {a1 a2} (h1 : Keeps z0 z1) (ht : execRecCopy a1 a2 z1 = .next t0) :
    Keeps z0 t0 := by
  unfold execRecCopy at ht
  cases ht
  refine State.whenUp_keeps ?_ ?_
  · assumption
  · refine State.subscribe_keeps ?_
    assumption

theorem execEvtLoss_keeps {z0 z1 t0 : State} {a1} (h1 : Keeps z0 z1) (ht : execEvtLoss a1 z1 = .next t0) :
    Keeps z0 t0 := by
  unfold execEvtLoss at ht
  extract_lets +onlyGivenNames x0 at ht
  extract_lets +onlyGivenNames x1 at ht
  cases ht
  split
  · refine State.queueEvent_keeps ?_
    refine State.setPort_keeps ?_
    assumption
  · assumption

theorem State.beginBoot_keeps {z0 z1 : State} {a1 a2} (h1 : Keeps z0 z1) : Keeps z0 (State.beginBoot z1 a1 a2) := by
  unfold State.beginBoot
  extract_lets +onlyGivenNames x0
  extract_lets +onlyGivenNames x1
  split
  · refine State.complete_keeps ?_
    assumption
  · split
    · refine State.complete_keeps ?_
      assumption
    · split
      · refine State.complete_keeps ?_
        assumption
      · split
        · refine State.complete_keeps ?_
          refine State.fault_keeps ?_
          assumption
        · split
          · refine State.complete_keeps ?_
            refine State.fault_keeps ?_
            assumption
          · extract_lets +onlyGivenNames x2
            refine State.requestOn_keeps ?_
            refine State.wr_keeps ?_
            refine Keeps.same ?_ rfl rfl rfl rfl rfl rfl rfl rfl rfl rfl rfl
            assumption

theorem execBootBegin_keeps {z0 z1 t0 : State} {a1 a2} (h1 : Keeps z0 z1) (ht : execBootBegin a1 a2 z1 = .next t0) :
    Keeps z0 t0 := by
  unfold execBootBegin at ht
  cases ht
  refine State.whenUp_keeps ?_ ?_
  · assumption
  · refine State.beginBoot_keeps ?_
    assumption

theorem execBootBeginReady_keeps {z0 z1 t0 : State} (h1 : Keeps z0 z1) (ht : execBootBeginReady z1 = .next t0) :
    Keeps z0 t0 := by
  unfold execBootBeginReady at ht
  cases ht
  split
  · split
    · refine State.complete_keeps ?_
      refine Keeps.same ?_ rfl rfl rfl rfl rfl rfl rfl rfl rfl rfl rfl
      assumption
    · assumption
  · assumption

theorem State.bootChunk_keeps {z0 z1 : State} {a1 a2 a3} (h1 : Keeps z0 z1) : Keeps z0 (State.bootChunk z1 a1 a2 a3) := by
  unfold State.bootChunk
  split
  · refine State.complete_keeps ?_
    assumption
  · split
    · refine State.complete_keeps ?_
      assumption
    · split
      · refine State.complete_keeps ?_
        assumption
      · split
        · refine State.complete_keeps ?_
          assumption
        · extract_lets +onlyGivenNames x0
          extract_lets +onlyGivenNames x1
          refine Keeps.cut (s := z0) (t := x1) ?_ (fun _ => ?_)
          · subst x1
            refine Keeps.same ?_ rfl rfl rfl rfl rfl rfl rfl rfl rfl rfl rfl
            assumption
          clear_value x1
          refine State.complete_keeps ?_
          refine State.store_keeps ?_
          assumption

theorem execBootChunk_keeps {z0 z1 t0 : State} {a1 a2 a3} (h1 : Keeps z0 z1) (ht : execBootChunk a1 a2 a3 z1 = .next t0) :
    Keeps z0 t0 := by
  unfold execBootChunk at ht
  cases ht
  refine State.whenUp_keeps ?_ ?_
  · assumption
  · refine State.bootChunk_keeps ?_
    assumption

theorem State.endBoot_keeps {z0 z1 : State} {a1} (h1 : Keeps z0 z1) : Keeps z0 (State.endBoot z1 a1) := by
  unfold State.endBoot
  extract_lets +onlyGivenNames x0
  split
  · refine State.complete_keeps ?_
    assumption
  · split
    · refine State.complete_keeps ?_
      assumption
    · split
      · refine State.complete_keeps ?_
        assumption
      · extract_lets +onlyGivenNames x1
        extract_lets +onlyGivenNames x2
        refine Keeps.cut (s := z0) (t := x2) ?_ (fun _ => ?_)
        · subst x2
          refine State.wr_keeps ?_
          refine Keeps.same ?_ rfl rfl rfl rfl rfl rfl rfl rfl rfl rfl rfl
          assumption
        clear_value x2
        split
        · extract_lets +onlyGivenNames x3
          refine Keeps.cut (s := z0) (t := x3) ?_ (fun _ => ?_)
          · subst x3
            refine State.runFirmware_keeps ?_
            refine State.complete_keeps ?_
            assumption
          clear_value x3
          extract_lets +onlyGivenNames x4
          extract_lets +onlyGivenNames x5
          refine Keeps.cut (s := z0) (t := x5) ?_ (fun _ => ?_)
          · subst x5
            refine Keeps.same ?_ rfl rfl rfl rfl rfl rfl rfl rfl rfl rfl rfl
            assumption
          clear_value x5
          extract_lets +onlyGivenNames x6
          extract_lets +onlyGivenNames x7
          refine State.negotiate_keeps ?_
          refine State.setPort_keeps ?_
          assumption
        · refine State.complete_keeps ?_
          refine State.fault_keeps ?_
          assumption

theorem execBootEnd_keeps {z0 z1 t0 : State} {a1} (h1 : Keeps z0 z1) (ht : execBootEnd a1 z1 = .next t0) :
    Keeps z0 t0 := by
  unfold execBootEnd at ht
  cases ht
  refine State.whenUp_keeps ?_ ?_
  · assumption
  · refine State.endBoot_keeps ?_
    assumption

end Sys2Proof.Machine
end

