-- ==== Sys2Proof/Laws/Keeps/Mgc.lean ====
section
/-! SUPPORT. The operations of Machine/Mgc.lean are steps of the machine (`Keeps`). -/

set_option Elab.async false

namespace Sys2Proof.Machine

theorem storeAct_keeps {z0 z1 : State} {a1 a2 a3 a4} (h1 : Keeps z0 z1) : Keeps z0 (storeAct z1 a1 a2 a3 a4) := by
  unfold storeAct
  split
  · assumption
  · extract_lets +onlyGivenNames x0
    extract_lets +onlyGivenNames x1
    extract_lets +onlyGivenNames x2
    extract_lets +onlyGivenNames x3
    extract_lets +onlyGivenNames x4
    refine Keeps.cut (s := z0) (t := x4) ?_ (fun _ => ?_)
    · subst x4
      refine State.wr_keeps ?_
      assumption
    clear_value x4
    extract_lets +onlyGivenNames x5
    refine Keeps.cut (s := z0) (t := x5) ?_ (fun _ => ?_)
    · subst x5
      split
      · refine State.setStore_keeps ?_
        assumption
      · assumption
    clear_value x5
    refine Keeps.same ?_ rfl rfl rfl rfl rfl rfl rfl rfl rfl rfl rfl
    assumption

theorem execStoreDone_keeps {z0 z1 t0 : State} (h1 : Keeps z0 z1) (ht : execStoreDone z1 = .next t0) :
    Keeps z0 t0 := by
  unfold execStoreDone at ht
  cases ht
  split
  · assumption
  · extract_lets +onlyGivenNames x0
    extract_lets +onlyGivenNames x1
    refine Keeps.cut (s := z0) (t := x1) ?_ (fun _ => ?_)
    · subst x1
      refine Keeps.same ?_ rfl rfl rfl rfl rfl rfl rfl rfl rfl rfl rfl
      assumption
    clear_value x1
    extract_lets +onlyGivenNames x2
    refine Keeps.cut (s := z0) (t := x2) ?_ (fun _ => ?_)
    · subst x2
      split
      · refine State.setStore_keeps ?_
        assumption
      · refine State.fault_keeps ?_
        assumption
    clear_value x2
    extract_lets +onlyGivenNames x3
    refine Keeps.cut (s := z0) (t := x3) ?_ (fun _ => ?_)
    · subst x3
      refine State.wr_keeps ?_
      refine State.wr_keeps ?_
      refine State.wr_keeps ?_
      assumption
    clear_value x3
    refine State.raise_keeps ?_
    refine State.audit_keeps ?_
    assumption

theorem attAct_keeps {z0 z1 : State} {a1 a2} (h1 : Keeps z0 z1) : Keeps z0 (attAct z1 a1 a2) := by
  unfold attAct
  extract_lets +onlyGivenNames x0
  extract_lets +onlyGivenNames x1
  refine Keeps.cut (s := z0) (t := x1) ?_ (fun _ => ?_)
  · subst x1
    refine State.wr_keeps ?_
    assumption
  clear_value x1
  refine Keeps.same ?_ rfl rfl rfl rfl rfl rfl rfl rfl rfl rfl rfl
  assumption

theorem execAttDone_keeps {z0 z1 t0 : State} (h1 : Keeps z0 z1) (ht : execAttDone z1 = .next t0) :
    Keeps z0 t0 := by
  unfold execAttDone at ht
  cases ht
  split
  · assumption
  · extract_lets +onlyGivenNames x0
    extract_lets +onlyGivenNames x1
    refine Keeps.cut (s := z0) (t := x1.2) ?_ (fun _ => ?_)
    · subst x1
      refine State.ownBlock_keeps ?_
      assumption
    clear_value x1
    extract_lets +onlyGivenNames x2
    refine Keeps.cut (s := z0) (t := x2) ?_ (fun _ => ?_)
    · subst x2
      split
      · refine State.store_keeps ?_
        assumption
      · assumption
    clear_value x2
    extract_lets +onlyGivenNames x3
    extract_lets +onlyGivenNames x4
    refine Keeps.cut (s := z0) (t := x4) ?_ (fun _ => ?_)
    · subst x4
      refine Keeps.same ?_ rfl rfl rfl rfl rfl rfl rfl rfl rfl rfl rfl
      assumption
    clear_value x4
    extract_lets +onlyGivenNames x5
    refine Keeps.cut (s := z0) (t := x5) ?_ (fun _ => ?_)
    · subst x5
      refine State.raise_keeps ?_
      refine State.audit_keeps ?_
      refine State.wr_keeps ?_
      assumption
    clear_value x5
    split
    · refine State.checkpoint_keeps ?_
      assumption
    · assumption

theorem audAct_keeps {z0 z1 : State} (h1 : Keeps z0 z1) : Keeps z0 (audAct z1) := by
  unfold audAct
  extract_lets +onlyGivenNames x0
  refine Keeps.same ?_ rfl rfl rfl rfl rfl rfl rfl rfl rfl rfl rfl
  assumption

theorem execAudDone_keeps {z0 z1 t0 : State} (h1 : Keeps z0 z1) (ht : execAudDone z1 = .next t0) :
    Keeps z0 t0 := by
  unfold execAudDone at ht
  cases ht
  split
  · assumption
  · extract_lets +onlyGivenNames x0
    extract_lets +onlyGivenNames x1
    refine Keeps.cut (s := z0) (t := x1) ?_ (fun _ => ?_)
    · subst x1
      refine Keeps.same ?_ rfl rfl rfl rfl rfl rfl rfl rfl rfl rfl rfl
      assumption
    clear_value x1
    extract_lets +onlyGivenNames x2
    refine Keeps.cut (s := z0) (t := x2) ?_ (fun _ => ?_)
    · subst x2
      split
      · refine State.store_keeps ?_
        assumption
      · assumption
    clear_value x2
    refine State.raise_keeps ?_
    assumption

theorem lcCheck_keeps {z0 z1 : State} {a1 a2} (h1 : Keeps z0 z1) : Keeps z0 (lcCheck z1 a1 a2).2 := by
  unfold lcCheck
  split
  · dsimp only
    assumption
  · extract_lets +onlyGivenNames x0
    split
    · dsimp only
      assumption
    · dsimp only
      refine State.wr_keeps ?_
      assumption

theorem lcAct_keeps {z0 z1 : State} {a1 a2 a3} (h1 : Keeps z0 z1) : Keeps z0 (lcAct z1 a1 a2 a3) := by
  unfold lcAct
  split
  · assumption
  · extract_lets +onlyGivenNames x0
    refine Keeps.cut (s := z0) (t := x0) ?_ (fun _ => ?_)
    · subst x0
      refine State.wr_keeps ?_
      assumption
    clear_value x0
    refine Keeps.same ?_ rfl rfl rfl rfl rfl rfl rfl rfl rfl rfl rfl
    assumption

theorem State.wipeAon_keeps {z0 z1 : State} (h1 : Keeps z0 z1) : Keeps z0 (State.wipeAon z1) := by
  unfold State.wipeAon
  extract_lets +onlyGivenNames x0
  refine Keeps.cut (s := z0) (t := x0) ?_ (fun _ => ?_)
  · subst x0
    refine Keeps.same ?_ rfl rfl rfl rfl rfl rfl rfl rfl rfl rfl rfl
    assumption
  clear_value x0
  refine Keeps.foldl ?_ (fun _ _ _ => ?_)
  · assumption
  · split
    · refine State.wr_keeps ?_
      assumption
    · refine State.wr_keeps ?_
      assumption

theorem execLcChanged_keeps {z0 z1 t0 : State} (h1 : Keeps z0 z1) (ht : execLcChanged z1 = .next t0) :
    Keeps z0 t0 := by
  unfold execLcChanged at ht
  cases ht
  split
  · assumption
  · extract_lets +onlyGivenNames x0
    extract_lets +onlyGivenNames x1
    refine Keeps.cut (s := z0) (t := x1) ?_ (fun _ => ?_)
    · subst x1
      refine State.setStore_keeps ?_
      assumption
    clear_value x1
    extract_lets +onlyGivenNames x2
    refine Keeps.cut (s := z0) (t := x2) ?_ (fun _ => ?_)
    · subst x2
      refine State.loadFactory_keeps ?_
      refine State.wipeAon_keeps ?_
      refine State.powerOffAll_keeps ?_
      assumption
    clear_value x2
    extract_lets +onlyGivenNames x3
    refine Keeps.cut (s := z0) (t := x3) ?_ (fun _ => ?_)
    · subst x3
      refine State.startPd38_keeps ?_
      refine State.setDomain_keeps ?_
      refine State.mgcLost_keeps ?_
      assumption
    clear_value x3
    extract_lets +onlyGivenNames x4
    refine Keeps.cut (s := z0) (t := x4) ?_ (fun _ => ?_)
    · subst x4
      refine State.wr_keeps ?_
      refine State.wr_keeps ?_
      refine State.wr_keeps ?_
      assumption
    clear_value x4
    refine State.raise_keeps ?_
    refine State.audit_keeps ?_
    assumption

end Sys2Proof.Machine
end

