-- ==== Sys2Proof/Laws/Keeps/Registers.lean ====
section
/-! SUPPORT. The operations of Machine/Registers.lean are steps of the machine (`Keeps`). -/

set_option Elab.async false

namespace Sys2Proof.Machine

theorem State.plainWrite_keeps {z0 z1 : State} {a1 a2 a3 a4} (h1 : Keeps z0 z1) : Keeps z0 (State.plainWrite z1 a1 a2 a3 a4) := by
  unfold State.plainWrite
  extract_lets +onlyGivenNames x0
  split
  · assumption
  · assumption
  · refine State.wrShadow_keeps ?_
    assumption
  · split
    · assumption
    · refine State.wr_keeps ?_
      assumption
  · split
    · assumption
    · refine State.wr_keeps ?_
      assumption
  · split
    · refine State.wr_keeps ?_
      assumption
    · assumption

theorem State.plainWord_keeps {z0 z1 : State} {a1 a2 a3 a4} (h1 : Keeps z0 z1) : Keeps z0 (State.plainWord z1 a1 a2 a3 a4) := by
  unfold State.plainWord
  refine Keeps.foldl ?_ (fun _ _ _ => ?_)
  · assumption
  · refine State.plainWrite_keeps ?_
    assumption

theorem State.headerCheck_keeps {z0 z1 : State} {a1 a2 a3 a4 a5} (h1 : Keeps z0 z1) : Keeps z0 (State.headerCheck z1 a1 a2 a3 a4 a5).2 := by
  unfold State.headerCheck
  split
  · dsimp only
    assumption
  · split
    · refine swrstCheck_keeps ?_
      assumption
    · split
      · refine goCheck_keeps ?_
        assumption
      · dsimp only
        assumption

theorem State.actCheck_keeps {z0 z1 z2 : State} {a1 a2 a3 a4 a5 a6 a7 a8 a9} (h1 : Keeps z0 z1) (h2 : Keeps z0 z2) : Keeps z0 (State.actCheck z1 z2 a1 a2 a3 a4 a5 a6 a7 a8 a9).2 := by
  unfold State.actCheck
  split
  · split
    · refine sleepCheck_keeps ?_
      assumption
    · dsimp only
      assumption
  · split
    · dsimp only
      assumption
    · split
      · refine tunPushCheck_keeps ?_
        assumption
      · dsimp only
        assumption
  · split
    · refine pqPushCheck_keeps ?_
      assumption
    · dsimp only
      assumption
  · split
    · refine opCheck_keeps ?_
      assumption
    · split
      · refine instCheck_keeps ?_
        assumption
      · split
        · refine cancelCheck_keeps ?_
          assumption
        · dsimp only
          assumption
  · split
    · split
      · dsimp only
        assumption
      · refine armCheck_keeps ?_
        assumption
    · dsimp only
      assumption
  · split
    · refine entHiCheck_keeps ?_
      assumption
    · split
      · split
        · dsimp only
          assumption
        · refine bulkCheck_keeps ?_
          assumption
      · dsimp only
        assumption
  · split
    · dsimp only
      assumption
    · dsimp only
      assumption
  · split
    · refine lcCheck_keeps ?_
      assumption
    · dsimp only
      assumption
  · split
    · dsimp only
      assumption
    · split
      · dsimp only
        assumption
      · split
        · dsimp only
          assumption
        · dsimp only
          assumption
  · dsimp only
    assumption
  · dsimp only
    assumption
  · dsimp only
    assumption
  · dsimp only
    assumption
  · dsimp only
    assumption
  · dsimp only
    assumption
  · dsimp only
    assumption
  · dsimp only
    assumption
  · dsimp only
    assumption
  · dsimp only
    assumption
  · dsimp only
    assumption
  · dsimp only
    assumption
  · dsimp only
    assumption
  · dsimp only
    assumption
  · dsimp only
    assumption
  · dsimp only
    assumption
  · dsimp only
    assumption
  · dsimp only
    assumption
  · dsimp only
    assumption
  · dsimp only
    assumption
  · dsimp only
    assumption
  · dsimp only
    assumption
  · dsimp only
    assumption
  · dsimp only
    assumption

theorem State.fieldCheck_keeps {z0 z1 z2 : State} {a1 a2 a3 a4 a5 a6} (h1 : Keeps z0 z1) (h2 : Keeps z0 z2) : Keeps z0 (State.fieldCheck z1 z2 a1 a2 a3 a4 a5 a6).2 := by
  unfold State.fieldCheck
  extract_lets +onlyGivenNames x0
  extract_lets +onlyGivenNames x1
  extract_lets +onlyGivenNames x2
  extract_lets +onlyGivenNames x3
  split
  · dsimp only
    assumption
  · split
    · dsimp only
      assumption
    · split
      · refine State.headerCheck_keeps ?_
        assumption
      · split
        · dsimp only
          assumption
        · split
          · dsimp only
            assumption
          · split
            · dsimp only
              assumption
            · refine State.actCheck_keeps ?_ ?_
              · assumption
              · assumption
        · split
          · dsimp only
            assumption
          · split
            · dsimp only
              assumption
            · refine State.actCheck_keeps ?_ ?_
              · assumption
              · assumption
        · split
          · dsimp only
            assumption
          · refine State.actCheck_keeps ?_ ?_
            · assumption
            · assumption
        · dsimp only
          assumption
        · dsimp only
          assumption

theorem firstRefused_keeps {z0 z1 : State} {a1 a2} (h1 : Keeps z0 z1) (hf : ∀ x, Keeps z0 (a1 x).2) : Keeps z0 (firstRefused a1 z1 a2).2 := by
  induction a2 with
  | nil => exact h1
  | cons x r ih =>
    unfold firstRefused
    dsimp only
    split
    · exact ih
    · exact hf x

theorem State.wordCheck_keeps {z0 z1 : State} {a1 a2 a3 a4 a5 a6} (h1 : Keeps z0 z1) : Keeps z0 (State.wordCheck z1 a1 a2 a3 a4 a5 a6).2 := by
  unfold State.wordCheck
  extract_lets +onlyGivenNames x0
  split
  · dsimp only
    refine State.fault_keeps ?_
    assumption
  · split
    · dsimp only
      assumption
    · extract_lets +onlyGivenNames x1
      refine Keeps.cut (s := z0) (t := x1) ?_ (fun _ => ?_)
      · subst x1
        refine State.plainWord_keeps ?_
        assumption
      clear_value x1
      refine firstRefused_keeps ?_ ?_
      · assumption
      · intro _
        refine State.fieldCheck_keeps ?_ ?_
        · assumption
        · assumption

theorem State.pairsCheck_keeps {z0 z1 : State} {a1 a2 a3 a4 a5} (h1 : Keeps z0 z1) : Keeps z0 (State.pairsCheck z1 a1 a2 a3 a4 a5).2 := by
  induction a5 generalizing a4 z1 with
  | nil => exact h1
  | cons x r ih =>
    obtain ⟨v, m⟩ := x
    unfold State.pairsCheck
    dsimp only
    split
    · exact ih (State.wordCheck_keeps h1)
    · exact State.wordCheck_keeps h1

theorem State.untried_keeps {z0 z1 z2 : State} {a1 a2 a3} (h1 : Keeps z0 z1) (h2 : Keeps z0 z2) : Keeps z0 (State.untried z1 z2 a1 a2 a3) := by
  induction a3 generalizing a2 z2 with
  | nil =>
    unfold State.untried
    refine ⟨⟨h2.1.1, h2.1.2.1, h2.1.2.2.1, h2.1.2.2.2.1, h2.1.2.2.2.2.1, fun x => ?_, h2.1.2.2.2.2.2.2⟩, h2.2⟩
    dsimp only
    split
    · exact h1.shadow x
    · exact h2.shadow x
  | cons x r ih =>
    obtain ⟨v, m⟩ := x
    unfold State.untried
    refine ih (Keeps.foldl h2 fun u y hu => ?_)
    split
    · exact State.wr_keeps hu
    · exact State.wr_keeps hu
    · exact State.wr_keeps hu
    all_goals exact hu

theorem State.writeCheck_keeps {z0 z1 : State} {a1 a2 a3} (h1 : Keeps z0 z1) : Keeps z0 (State.writeCheck z1 a1 a2 a3).2 := by
  unfold State.writeCheck
  extract_lets +onlyGivenNames x0
  split
  · dsimp only
    assumption
  · split
    · dsimp only
      assumption
    · split
      · dsimp only
        assumption
      · split
        · dsimp only
          assumption
        · split
          · dsimp only
            assumption
          · extract_lets +onlyGivenNames x1
            split
            · dsimp only
              assumption
            · split
              · dsimp only
                assumption
              · extract_lets +onlyGivenNames x2
                refine Keeps.cut (s := z0) (t := x2.2) ?_ (fun _ => ?_)
                · subst x2
                  refine State.pairsCheck_keeps ?_
                  assumption
                clear_value x2
                split
                · dsimp only
                  assumption
                · dsimp only
                  refine State.untried_keeps ?_ ?_
                  · assumption
                  · assumption

theorem State.clearCounters_keeps {z0 z1 : State} {a1} (h1 : Keeps z0 z1) : Keeps z0 (State.clearCounters z1 a1) := by
  unfold State.clearCounters
  refine Keeps.foldl ?_ (fun _ _ _ => ?_)
  · assumption
  · refine Keeps.foldl ?_ (fun _ _ _ => ?_)
    · assumption
    · refine Keeps.foldl ?_ (fun _ _ _ => ?_)
      · assumption
      · refine State.wr_keeps ?_
        assumption

theorem State.unmask_keeps {z0 z1 z2 : State} {a1} (h1 : Keeps z0 z1) (h2 : Keeps z0 z2) : Keeps z0 (State.unmask z1 z2 a1) := by
  unfold State.unmask
  extract_lets +onlyGivenNames x0
  extract_lets +onlyGivenNames x1
  split
  · refine Keeps.same ?_ rfl rfl rfl rfl rfl rfl rfl rfl rfl rfl rfl
    assumption
  · assumption

theorem State.headerAct_keeps {z0 z1 z2 : State} {a1 a2 a3 a4} (h1 : Keeps z0 z1) (h2 : Keeps z0 z2) : Keeps z0 (State.headerAct z1 z2 a1 a2 a3 a4) := by
  unfold State.headerAct
  split
  · refine State.wr_keeps ?_
    assumption
  · split
    · refine State.unmask_keeps ?_ ?_
      · assumption
      · assumption
    · split
      · refine swrstAct_keeps ?_
        assumption
      · split
        · refine goAct_keeps ?_
          assumption
        · assumption

theorem State.pageAct_keeps {z0 z1 : State} {a1 a2 a3 a4 a5 a6 a7 a8 a9 a10} (h1 : Keeps z0 z1) : Keeps z0 (State.pageAct z1 a1 a2 a3 a4 a5 a6 a7 a8 a9 a10) := by
  unfold State.pageAct
  split
  · split
    · refine State.clearCounters_keeps ?_
      assumption
    · assumption
  · split
    · split
      · refine onReqAct_keeps ?_
        assumption
      · split
        · refine onReqAct_keeps ?_
          assumption
        · split
          · refine sleepAct_keeps ?_
            assumption
          · assumption
    · split
      · refine clkRevertAct_keeps ?_
        assumption
      · assumption
    · split
      · refine retrainAct_keeps ?_
        assumption
      · split
        · refine State.grantVc2_keeps ?_
          assumption
        · assumption
    · split
      · refine portEnAct_keeps ?_
        assumption
      · split
        · refine State.pushTunnel_keeps ?_
          assumption
        · assumption
    · split
      · refine State.queueParams_keeps ?_
        assumption
      · assumption
    · split
      · refine opAct_keeps ?_
        assumption
      · split
        · refine loadAddrAct_keeps ?_
          assumption
        · split
          · refine cancelAct_keeps ?_
            assumption
          · assumption
    · split
      · refine armAct_keeps ?_
        assumption
      · assumption
    · split
      · refine entHiAct_keeps ?_
        assumption
      · split
        · refine bulkAct_keeps ?_
          assumption
        · assumption
    · split
      · refine resumeAct_keeps ?_
        assumption
      · split
        · refine invAct_keeps ?_
          assumption
        · assumption
    · split
      · refine pmReleaseAct_keeps ?_
        assumption
      · assumption
    · split
      · refine plnClearAct_keeps ?_
        assumption
      · split
        · refine plnInhibitAct_keeps ?_
          assumption
        · assumption
    · split
      · refine rspReqAct_keeps ?_
        assumption
      · assumption
    · split
      · refine lcAct_keeps ?_
        assumption
      · assumption
    · split
      · refine storeAct_keeps ?_
        assumption
      · split
        · refine attAct_keeps ?_
          assumption
        · split
          · refine audAct_keeps ?_
            assumption
          · split
            · refine State.checkpoint_keeps ?_
              assumption
            · assumption
    · assumption
    · assumption
    · assumption
    · assumption
    · assumption
    · assumption
    · assumption
    · assumption
    · assumption
    · assumption
    · assumption
    · assumption
    · assumption
    · assumption
    · assumption
    · assumption
    · assumption
    · assumption
    · assumption

theorem State.wordAct_keeps {z0 z1 : State} {a1 a2 a3 a4 a5 a6 a7} (h1 : Keeps z0 z1) : Keeps z0 (State.wordAct z1 a1 a2 a3 a4 a5 a6 a7) := by
  unfold State.wordAct
  refine Keeps.foldl ?_ (fun _ _ _ => ?_)
  · refine State.plainWord_keeps ?_
    assumption
  · extract_lets +onlyGivenNames x0
    extract_lets +onlyGivenNames x1
    split
    · refine State.headerAct_keeps ?_ ?_
      · assumption
      · assumption
    · refine State.pageAct_keeps ?_
      assumption

theorem State.pairsAct_keeps {z0 z1 : State} {a1 a2 a3 a4 a5 a6} (h1 : Keeps z0 z1) : Keeps z0 (State.pairsAct z1 a1 a2 a3 a4 a5 a6) := by
  induction a6 generalizing a5 z1 with
  | nil => exact h1
  | cons x r ih =>
    obtain ⟨v, m⟩ := x
    unfold State.pairsAct
    exact ih (State.wordAct_keeps h1)

theorem State.regWrite_keeps {z0 z1 : State} {a1 a2 a3 a4} (h1 : Keeps z0 z1) : Keeps z0 (State.regWrite z1 a1 a2 a3 a4) := by
  unfold State.regWrite
  split
  · assumption
  · extract_lets +onlyGivenNames x0
    refine Keeps.cut (s := z0) (t := x0.2) ?_ (fun _ => ?_)
    · subst x0
      refine State.writeCheck_keeps ?_
      assumption
    clear_value x0
    split
    · refine State.complete_keeps ?_
      assumption
    · split
      · assumption
      · extract_lets +onlyGivenNames x1
        refine Keeps.cut (s := z0) (t := x1) ?_ (fun _ => ?_)
        · subst x1
          refine State.pairsAct_keeps ?_
          assumption
        clear_value x1
        split
        · refine State.completeAudited_keeps ?_
          assumption
        · refine State.complete_keeps ?_
          assumption

theorem State.regWrite1_keeps {z0 z1 : State} {a1 a2 a3 a4 a5 a6} (h1 : Keeps z0 z1) : Keeps z0 (State.regWrite1 z1 a1 a2 a3 a4 a5 a6) := by
  unfold State.regWrite1
  refine State.regWrite_keeps ?_
  assumption

theorem State.readField_keeps {z0 z1 : State} {a1 a2} (h1 : Keeps z0 z1) : Keeps z0 (State.readField z1 a1 a2).2 := by
  unfold State.readField
  extract_lets +onlyGivenNames x0
  split
  · dsimp only
    assumption
  · dsimp only
    assumption
  · split
    · dsimp only
      split
      · refine State.wr_keeps ?_
        assumption
      · assumption
    · split
      · refine State.entLoRead_keeps ?_
        assumption
      · dsimp only
        assumption
    · split
      · extract_lets +onlyGivenNames x1
        refine Keeps.cut (s := z0) (t := x1.2) ?_ (fun _ => ?_)
        · subst x1
          refine State.draw_keeps ?_
          assumption
        clear_value x1
        dsimp only
        assumption
      · dsimp only
        assumption
    · dsimp only
      assumption
  · split
    · dsimp only
      split
      · refine State.wr_keeps ?_
        assumption
      · assumption
    · split
      · refine State.entLoRead_keeps ?_
        assumption
      · dsimp only
        assumption
    · split
      · extract_lets +onlyGivenNames x2
        refine Keeps.cut (s := z0) (t := x2.2) ?_ (fun _ => ?_)
        · subst x2
          refine State.draw_keeps ?_
          assumption
        clear_value x2
        dsimp only
        assumption
      · dsimp only
        assumption
    · dsimp only
      assumption
  · split
    · dsimp only
      split
      · refine State.wr_keeps ?_
        assumption
      · assumption
    · split
      · refine State.entLoRead_keeps ?_
        assumption
      · dsimp only
        assumption
    · split
      · extract_lets +onlyGivenNames x3
        refine Keeps.cut (s := z0) (t := x3.2) ?_ (fun _ => ?_)
        · subst x3
          refine State.draw_keeps ?_
          assumption
        clear_value x3
        dsimp only
        assumption
      · dsimp only
        assumption
    · dsimp only
      assumption
  · split
    · dsimp only
      split
      · refine State.wr_keeps ?_
        assumption
      · assumption
    · split
      · refine State.entLoRead_keeps ?_
        assumption
      · dsimp only
        assumption
    · split
      · extract_lets +onlyGivenNames x4
        refine Keeps.cut (s := z0) (t := x4.2) ?_ (fun _ => ?_)
        · subst x4
          refine State.draw_keeps ?_
          assumption
        clear_value x4
        dsimp only
        assumption
      · dsimp only
        assumption
    · dsimp only
      assumption

theorem State.readWord_keeps {z0 z1 : State} {a1 a2} (h1 : Keeps z0 z1) : Keeps z0 (State.readWord z1 a1 a2).2 := by
  unfold State.readWord
  refine Keeps.foldl_snd ?_ (fun _ _ _ => ?_)
  · dsimp only
    assumption
  · extract_lets +onlyGivenNames x0
    refine Keeps.cut (s := z0) (t := x0.2) ?_ (fun _ => ?_)
    · subst x0
      refine State.readField_keeps ?_
      assumption
    clear_value x0
    dsimp only
    assumption

theorem State.readWords_keeps {z0 z1 : State} {a1 a2 a3} (h1 : Keeps z0 z1) : Keeps z0 (State.readWords z1 a1 a2 a3).2 := by
  induction a3 generalizing a2 z1 with
  | zero => exact h1
  | succ n ih =>
    unfold State.readWords
    exact ih (State.readWord_keeps h1)

theorem State.readRetention_keeps {z0 z1 : State} {a1 a2 a3} (h1 : Keeps z0 z1) : Keeps z0 (State.readRetention z1 a1 a2 a3) := by
  unfold State.readRetention
  extract_lets +onlyGivenNames x0
  split
  · refine State.complete_keeps ?_
    assumption
  · split
    · refine State.complete_keeps ?_
      assumption
    · refine State.complete_keeps ?_
      assumption

theorem State.regRead_keeps {z0 z1 : State} {a1 a2 a3} (h1 : Keeps z0 z1) : Keeps z0 (State.regRead z1 a1 a2 a3) := by
  unfold State.regRead
  split
  · assumption
  · split
    · refine State.complete_keeps ?_
      assumption
    · split
      · refine State.complete_keeps ?_
        assumption
      · split
        · refine State.readRetention_keeps ?_
          assumption
        · split
          · refine State.complete_keeps ?_
            assumption
          · extract_lets +onlyGivenNames x0
            extract_lets +onlyGivenNames x1
            split
            · refine State.complete_keeps ?_
              assumption
            · split
              · refine State.complete_keeps ?_
                assumption
              · extract_lets +onlyGivenNames x2
                refine Keeps.cut (s := z0) (t := x2.2) ?_ (fun _ => ?_)
                · subst x2
                  refine State.readWords_keeps ?_
                  assumption
                clear_value x2
                refine State.complete_keeps ?_
                assumption

end Sys2Proof.Machine
end

