-- ==== Sys2Proof/Laws/Keeps/Cells.lean ====
section
/-! SUPPORT. The operations of Machine/Cells.lean are steps of the machine (`Keeps`). -/

set_option Elab.async false

namespace Sys2Proof.Machine

theorem State.malformed_keeps {z0 z1 : State} {a1 a2} (h1 : Keeps z0 z1) : Keeps z0 (State.malformed z1 a1 a2) := by
  unfold State.malformed
  split
  · refine State.complete_keeps ?_
    assumption
  · assumption

theorem State.regWriteMsg_keeps {z0 z1 : State} {a1 a2 a3} (h1 : Keeps z0 z1) : Keeps z0 (State.regWriteMsg z1 a1 a2 a3) := by
  unfold State.regWriteMsg
  extract_lets +onlyGivenNames x0
  refine Keeps.cut (s := z0) (t := x0.2) ?_ (fun _ => ?_)
  · subst x0
    refine State.draw_keeps ?_
    assumption
  clear_value x0
  refine State.regWrite_keeps ?_
  assumption

theorem State.deliver_keeps {z0 z1 : State} {a1 a2 a3 a4 a5} (h1 : Keeps z0 z1) : Keeps z0 (State.deliver z1 a1 a2 a3 a4 a5) := by
  unfold State.deliver
  refine Keeps.ite (State.regRead_keeps h1) ?_
  refine Keeps.ite (State.regWriteMsg_keeps h1) ?_
  refine Keeps.ite (State.openSession_keeps h1) ?_
  refine Keeps.ite (State.takeResponse_keeps h1) ?_
  refine Keeps.ite (State.closeSession_keeps h1) ?_
  refine Keeps.ite (State.subscribe_keeps h1) ?_
  refine Keeps.ite (State.beginBoot_keeps h1) ?_
  refine Keeps.ite (State.bootChunk_keeps h1) ?_
  refine Keeps.ite (State.endBoot_keeps h1) ?_
  refine Keeps.ite (State.memRead_keeps h1) ?_
  refine Keeps.ite (State.memWrite_keeps h1) ?_
  refine Keeps.ite (State.hostCompletion_keeps h1) ?_
  refine Keeps.ite (State.jobSubmit_keeps h1) ?_
  exact h1

theorem State.spendVc2_keeps {z0 z1 : State} {a1 a2} (h1 : Keeps z0 z1) : Keeps z0 (State.spendVc2 z1 a1 a2) := by
  unfold State.spendVc2
  refine State.wr_keeps ?_
  assumption

theorem State.wrongChannel_keeps {z0 z1 : State} {a1 a2 a3 a4} (h1 : Keeps z0 z1) : Keeps z0 (State.wrongChannel z1 a1 a2 a3 a4) := by
  unfold State.wrongChannel
  extract_lets +onlyGivenNames x0
  refine Keeps.cut (s := z0) (t := x0) ?_ (fun _ => ?_)
  · subst x0
    split
    · refine State.complete_keeps ?_
      assumption
    · assumption
  clear_value x0
  split
  · refine State.grantVc2_keeps ?_
    refine State.spendVc2_keeps ?_
    assumption
  · assumption

theorem State.takeMessage_keeps {z0 z1 : State} {a1 a2 a3 a4} (h1 : Keeps z0 z1) : Keeps z0 (State.takeMessage z1 a1 a2 a3 a4) := by
  unfold State.takeMessage
  extract_lets +onlyGivenNames x0
  extract_lets +onlyGivenNames x1
  extract_lets +onlyGivenNames x2
  extract_lets +onlyGivenNames x3
  extract_lets +onlyGivenNames x4
  split
  · refine State.wrongChannel_keeps ?_
    assumption
  · split
    · split
      · refine State.jobSubmit_keeps ?_
        refine State.spendVc2_keeps ?_
        assumption
      · refine State.malformed_keeps ?_
        assumption
    · refine State.deliver_keeps ?_
      assumption

theorem State.nakOnce_keeps {z0 z1 : State} {a1} (h1 : Keeps z0 z1) : Keeps z0 (State.nakOnce z1 a1) := by
  unfold State.nakOnce
  extract_lets +onlyGivenNames x0
  split
  · assumption
  · refine State.sendControl_keeps ?_
    refine State.setPort_keeps ?_
    assumption

theorem State.discardCell_keeps {z0 z1 : State} {a1} (h1 : Keeps z0 z1) : Keeps z0 (State.discardCell z1 a1) := by
  unfold State.discardCell
  extract_lets +onlyGivenNames x0
  refine Keeps.cut (s := z0) (t := x0) ?_ (fun _ => ?_)
  · subst x0
    refine State.count_keeps ?_
    assumption
  clear_value x0
  split
  · refine State.nakOnce_keeps ?_
    assumption
  · assumption

theorem State.takeFec_keeps {z0 z1 : State} {a1 a2} (h1 : Keeps z0 z1) : Keeps z0 (State.takeFec z1 a1 a2) := by
  unfold State.takeFec
  split
  · assumption
  · refine State.count_keeps ?_
    assumption
  · extract_lets +onlyGivenNames x0
    extract_lets +onlyGivenNames x1
    refine Keeps.cut (s := z0) (t := x1) ?_ (fun _ => ?_)
    · subst x1
      refine State.count_keeps ?_
      refine State.setPort_keeps ?_
      assumption
    clear_value x1
    split
    · refine State.enterRetrain_keeps ?_
      assumption
    · assumption

theorem State.returnCredits_keeps {z0 z1 : State} {a1 a2 a3} (h1 : Keeps z0 z1) : Keeps z0 (State.returnCredits z1 a1 a2 a3) := by
  unfold State.returnCredits
  split
  · assumption
  · extract_lets +onlyGivenNames x0
    refine Keeps.cut (s := z0) (t := x0) ?_ (fun _ => ?_)
    · subst x0
      refine State.setPort_keeps ?_
      assumption
    clear_value x0
    split
    · refine State.sendCredit_keeps ?_
      assumption
    · refine State.sendCredit_keeps ?_
      assumption

theorem State.takeData_keeps {z0 z1 : State} {a1 a2 a3 a4 a5} (h1 : Keeps z0 z1) : Keeps z0 (State.takeData z1 a1 a2 a3 a4 a5) := by
  unfold State.takeData
  extract_lets +onlyGivenNames x0
  extract_lets +onlyGivenNames x1
  extract_lets +onlyGivenNames x2
  extract_lets +onlyGivenNames x3
  extract_lets +onlyGivenNames x4
  extract_lets +onlyGivenNames x5
  split
  · refine State.returnCredits_keeps ?_
    refine State.takeMessage_keeps ?_
    refine State.setPort_keeps ?_
    assumption
  · refine State.setPort_keeps ?_
    assumption

theorem State.takeControl_keeps {z0 z1 : State} {a1 a2} (h1 : Keeps z0 z1) : Keeps z0 (State.takeControl z1 a1 a2) := by
  unfold State.takeControl
  extract_lets +onlyGivenNames x0
  split
  · refine State.takeNak_keeps ?_
    assumption
  · split
    · refine State.takeCredit_keeps ?_
      assumption
    · split
      · refine State.takeHello_keeps ?_
        assumption
      · assumption

theorem State.takeCell_keeps {z0 z1 : State} {a1 a2} (h1 : Keeps z0 z1) : Keeps z0 (State.takeCell z1 a1 a2) := by
  unfold State.takeCell
  extract_lets +onlyGivenNames x0
  extract_lets +onlyGivenNames x1
  extract_lets +onlyGivenNames x2
  extract_lets +onlyGivenNames x3
  refine Keeps.cut (s := z0) (t := x3) ?_ (fun _ => ?_)
  · subst x3
    refine State.setPort_keeps ?_
    assumption
  clear_value x3
  split
  · split
    · refine State.takeControl_keeps ?_
      assumption
    · assumption
  · extract_lets +onlyGivenNames x4
    refine Keeps.cut (s := z0) (t := x4) ?_ (fun _ => ?_)
    · subst x4
      refine State.takeAck_keeps ?_
      assumption
    clear_value x4
    split
    · refine State.takeControl_keeps ?_
      assumption
    · split
      · refine State.discardCell_keeps ?_
        assumption
      · refine State.takeData_keeps ?_
        assumption

theorem execCellReceive_keeps {z0 z1 t0 : State} {a1 a2 a3} (h1 : Keeps z0 z1) (ht : execCellReceive a1 a2 a3 z1 = .next t0) :
    Keeps z0 t0 := by
  unfold execCellReceive at ht
  extract_lets +onlyGivenNames x0 at ht
  extract_lets +onlyGivenNames x1 at ht
  split at ht
  · cases ht
  · cases ht
    split
    · assumption
    · extract_lets +onlyGivenNames x2
      refine Keeps.cut (s := z0) (t := x2) ?_ (fun _ => ?_)
      · subst x2
        refine State.takeFec_keeps ?_
        assumption
      clear_value x2
      split
      · refine State.discardCell_keeps ?_
        assumption
      · refine State.takeCell_keeps ?_
        assumption

end Sys2Proof.Machine
end

