-- ==== Sys2Proof/Laws/Keeps/OpenTasks.lean ====
section
/-! SUPPORT. The operations of Machine/OpenTasks.lean are steps of the machine (`Keeps`). -/

set_option Elab.async false

namespace Sys2Proof.Machine

theorem State.leaveIntake_keeps {z0 z1 : State} {a1 a2} (h1 : Keeps z0 z1) : Keeps z0 (State.leaveIntake z1 a1 a2) := by
  unfold State.leaveIntake
  extract_lets +onlyGivenNames x0
  refine Keeps.same ?_ rfl rfl rfl rfl rfl rfl rfl rfl rfl rfl rfl
  assumption

theorem State.refuseTask_keeps {z0 z1 : State} {a1} (h1 : Keeps z0 z1) : Keeps z0 (State.refuseTask z1 a1) := by
  unfold State.refuseTask
  refine State.jobDone_keeps ?_
  refine State.fault_keeps ?_
  assumption

theorem State.useSlot_keeps {z0 z1 : State} {a1} (h1 : Keeps z0 z1) : Keeps z0 (State.useSlot z1 a1) := by
  unfold State.useSlot
  split
  · refine State.wr_keeps ?_
    refine State.wr_keeps ?_
    assumption
  · assumption

theorem State.takeCounters_keeps {z0 z1 : State} {a1 a2} (h1 : Keeps z0 z1) : Keeps z0 (State.takeCounters z1 a1 a2) := by
  unfold State.takeCounters
  extract_lets +onlyGivenNames x0
  extract_lets +onlyGivenNames x1
  refine State.setClu_keeps ?_
  assumption

theorem State.applySettings_keeps {z0 z1 : State} {a1} (h1 : Keeps z0 z1) : Keeps z0 (State.applySettings z1 a1) := by
  unfold State.applySettings
  refine State.lockPages_keeps (Keeps.foldl (State.writeStreams_keeps (Keeps.foldl (Keeps.foldl h1 fun u x hu => ?_)
    fun u x hu => ?_)) fun u d hu => ?_) h1
  · split
    · exact State.freshContext_keeps (State.enableCtx_keeps (State.writeFields_keeps hu))
    · exact hu
  · have h2 := State.setChan_keeps (a1 := { (State.enableCtx (State.writeFields u (.str (4 * a1.cluster + x.unit % 4)) x.number x.fields)
      (.str (4 * a1.cluster + x.unit % 4)) x.number 1).chan (4 * a1.cluster + x.unit % 4) x.number with ctx := some a1.ctx })
      (State.enableCtx_keeps (a1 := .str (4 * a1.cluster + x.unit % 4)) (a2 := x.number) (a3 := 1)
        (State.writeFields_keeps (a1 := .str (4 * a1.cluster + x.unit % 4)) (a2 := x.number) (a3 := x.fields) hu))
    dsimp only
    split
    · exact h2
    · exact State.armList_keeps h2
  · exact State.setRun_keeps (State.startStream_keeps hu)

theorem State.startTask_keeps {z0 z1 : State} {a1 a2} (h1 : Keeps z0 z1) : Keeps z0 (State.startTask z1 a1 a2) := by
  unfold State.startTask
  extract_lets +onlyGivenNames x0
  extract_lets +onlyGivenNames x1
  refine Keeps.cut (s := z0) (t := x1) ?_ (fun _ => ?_)
  · subst x1
    refine State.takeCounters_keeps ?_
    refine State.useSlot_keeps ?_
    assumption
  clear_value x1
  extract_lets +onlyGivenNames x2
  extract_lets +onlyGivenNames x3
  refine Keeps.cut (s := z0) (t := x3) ?_ (fun _ => ?_)
  · subst x3
    refine Keeps.same ?_ rfl rfl rfl rfl rfl rfl rfl rfl rfl rfl rfl
    assumption
  clear_value x3
  extract_lets +onlyGivenNames x4
  refine Keeps.cut (s := z0) (t := x4) ?_ (fun _ => ?_)
  · subst x4
    refine State.wr_keeps ?_
    refine State.wr_keeps ?_
    assumption
  clear_value x4
  extract_lets +onlyGivenNames x5
  extract_lets +onlyGivenNames x6
  refine Keeps.cut (s := z0) (t := x6) ?_ (fun _ => ?_)
  · subst x6
    refine Keeps.foldl ?_ (fun _ _ _ => ?_)
    · assumption
    · refine State.attachNode_keeps ?_
      assumption
  clear_value x6
  refine Keeps.foldl ?_ (fun _ _ _ => ?_)
  · refine State.applySettings_keeps ?_
    assumption
  · refine State.makeReady_keeps ?_
    assumption

theorem State.takeJob_keeps {z0 z1 : State} {a1 a2 a3 a4} (h1 : Keeps z0 z1) : Keeps z0 (State.takeJob z1 a1 a2 a3 a4) := by
  unfold State.takeJob
  extract_lets +onlyGivenNames x0
  extract_lets +onlyGivenNames x1
  refine Keeps.cut (s := z0) (t := x1) ?_ (fun _ => ?_)
  · subst x1
    refine State.leaveIntake_keeps ?_
    assumption
  clear_value x1
  extract_lets +onlyGivenNames x2
  refine Keeps.cut (s := z0) (t := x2) ?_ (fun _ => ?_)
  · subst x2
    refine State.leaveIntake_keeps ?_
    assumption
  clear_value x2
  split
  · refine State.grantVc2_keeps ?_
    refine State.refuseTask_keeps ?_
    assumption
  · extract_lets +onlyGivenNames x3
    extract_lets +onlyGivenNames x4
    extract_lets +onlyGivenNames x5
    refine Keeps.cut (s := z0) (t := x5) ?_ (fun _ => ?_)
    · subst x5
      refine Keeps.same ?_ rfl rfl rfl rfl rfl rfl rfl rfl rfl rfl rfl
      assumption
    clear_value x5
    extract_lets +onlyGivenNames x6
    split
    · refine State.grantVc2_keeps ?_
      refine State.refuseTask_keeps ?_
      assumption
    · refine State.grantVc2_keeps ?_
      refine State.startTask_keeps ?_
      assumption

theorem execTaskStart_keeps {z0 z1 t0 : State} (h1 : Keeps z0 z1) (ht : execTaskStart z1 = .next t0) :
    Keeps z0 t0 := by
  unfold execTaskStart at ht
  cases ht
  split
  · assumption
  · split
    · assumption
    · refine State.takeJob_keeps ?_
      assumption

end Sys2Proof.Machine
end

