-- ==== Sys2Proof/Laws/Keeps/Writes.lean ====
section
/-! SUPPORT. The operations of Machine/Writes.lean are steps of the machine (`Keeps`). -/

set_option Elab.async false

namespace Sys2Proof.Machine

theorem execBlkSwrst_keeps {z0 z1 t0 : State} {a1 a2 a3 a4} (h1 : Keeps z0 z1) (ht : execBlkSwrst a1 a2 a3 a4 z1 = .next t0) :
    Keeps z0 t0 := by
  unfold execBlkSwrst at ht
  cases ht
  refine State.regWrite_keeps ?_
  assumption

theorem execBlkEnWrite_keeps {z0 z1 t0 : State} {a1 a2 a3 a4} (h1 : Keeps z0 z1) (ht : execBlkEnWrite a1 a2 a3 a4 z1 = .next t0) :
    Keeps z0 t0 := by
  unfold execBlkEnWrite at ht
  cases ht
  refine State.regWrite_keeps ?_
  assumption

theorem execBlkCommitGo_keeps {z0 z1 t0 : State} {a1 a2 a3 a4} (h1 : Keeps z0 z1) (ht : execBlkCommitGo a1 a2 a3 a4 z1 = .next t0) :
    Keeps z0 t0 := by
  unfold execBlkCommitGo at ht
  cases ht
  refine State.regWrite_keeps ?_
  assumption

theorem execBlkEvtStatClear_keeps {z0 z1 t0 : State} {a1 a2 a3 a4} (h1 : Keeps z0 z1) (ht : execBlkEvtStatClear a1 a2 a3 a4 z1 = .next t0) :
    Keeps z0 t0 := by
  unfold execBlkEvtStatClear at ht
  cases ht
  refine State.regWrite_keeps ?_
  assumption

theorem execBlkEvtMaskWrite_keeps {z0 z1 t0 : State} {a1 a2 a3 a4} (h1 : Keeps z0 z1) (ht : execBlkEvtMaskWrite a1 a2 a3 a4 z1 = .next t0) :
    Keeps z0 t0 := by
  unfold execBlkEvtMaskWrite at ht
  cases ht
  refine State.regWrite_keeps ?_
  assumption

theorem execCntClr_keeps {z0 z1 t0 : State} {a1 a2 a3 a4} (h1 : Keeps z0 z1) (ht : execCntClr a1 a2 a3 a4 z1 = .next t0) :
    Keeps z0 t0 := by
  unfold execCntClr at ht
  cases ht
  split
  · split
    · refine State.regWrite1_keeps ?_
      assumption
    · assumption
  · assumption

theorem execPlainRegisterWrite_keeps {z0 z1 t0 : State} {a1 a2 a3} (h1 : Keeps z0 z1) (ht : execPlainRegisterWrite a1 a2 a3 z1 = .next t0) :
    Keeps z0 t0 := by
  unfold execPlainRegisterWrite at ht
  extract_lets +onlyGivenNames x0 at ht
  cases ht
  refine State.regWrite_keeps ?_
  subst x0
  refine State.draw_keeps ?_
  assumption

theorem execRegRd_keeps {z0 z1 t0 : State} {a1 a2 a3} (h1 : Keeps z0 z1) (ht : execRegRd a1 a2 a3 z1 = .next t0) :
    Keeps z0 t0 := by
  unfold execRegRd at ht
  cases ht
  refine State.regRead_keeps ?_
  assumption

theorem execDevBeatRead_keeps {z0 z1 t0 : State} {a1} (h1 : Keeps z0 z1) (ht : execDevBeatRead a1 z1 = .next t0) :
    Keeps z0 t0 := by
  unfold execDevBeatRead at ht
  cases ht
  refine State.regRead_keeps ?_
  assumption

theorem execBodEntRead_keeps {z0 z1 t0 : State} {a1} (h1 : Keeps z0 z1) (ht : execBodEntRead a1 z1 = .next t0) :
    Keeps z0 t0 := by
  unfold execBodEntRead at ht
  cases ht
  refine State.regRead_keeps ?_
  assumption

theorem execPdcOnReq_keeps {z0 z1 t0 : State} {a1 a2 a3 a4} (h1 : Keeps z0 z1) (ht : execPdcOnReq a1 a2 a3 a4 z1 = .next t0) :
    Keeps z0 t0 := by
  unfold execPdcOnReq at ht
  cases ht
  refine State.regWrite1_keeps ?_
  assumption

theorem execSleepEnter_keeps {z0 z1 t0 : State} {a1 a2 a3} (h1 : Keeps z0 z1) (ht : execSleepEnter a1 a2 a3 z1 = .next t0) :
    Keeps z0 t0 := by
  unfold execSleepEnter at ht
  cases ht
  refine State.regWrite1_keeps ?_
  assumption

theorem execClkRevert_keeps {z0 z1 t0 : State} {a1 a2 a3 a4} (h1 : Keeps z0 z1) (ht : execClkRevert a1 a2 a3 a4 z1 = .next t0) :
    Keeps z0 t0 := by
  unfold execClkRevert at ht
  cases ht
  refine State.regWrite1_keeps ?_
  assumption

theorem execRetrain_keeps {z0 z1 t0 : State} {a1 a2 a3 a4} (h1 : Keeps z0 z1) (ht : execRetrain a1 a2 a3 a4 z1 = .next t0) :
    Keeps z0 t0 := by
  unfold execRetrain at ht
  cases ht
  refine State.regWrite1_keeps ?_
  assumption

theorem execTunPush_keeps {z0 z1 t0 : State} {a1 a2 a3} (h1 : Keeps z0 z1) (ht : execTunPush a1 a2 a3 z1 = .next t0) :
    Keeps z0 t0 := by
  unfold execTunPush at ht
  cases ht
  refine State.regWrite1_keeps ?_
  assumption

theorem execPortEn_keeps {z0 z1 t0 : State} {a1 a2 a3} (h1 : Keeps z0 z1) (ht : execPortEn a1 a2 a3 z1 = .next t0) :
    Keeps z0 t0 := by
  unfold execPortEn at ht
  cases ht
  refine State.regWrite1_keeps ?_
  assumption

theorem execPqPush_keeps {z0 z1 t0 : State} {a1 a2 a3} (h1 : Keeps z0 z1) (ht : execPqPush a1 a2 a3 z1 = .next t0) :
    Keeps z0 t0 := by
  unfold execPqPush at ht
  cases ht
  refine State.regWrite1_keeps ?_
  assumption

theorem execPmRelease_keeps {z0 z1 t0 : State} {a1 a2 a3} (h1 : Keeps z0 z1) (ht : execPmRelease a1 a2 a3 z1 = .next t0) :
    Keeps z0 t0 := by
  unfold execPmRelease at ht
  cases ht
  refine State.regWrite1_keeps ?_
  assumption

theorem execStreamArm_keeps {z0 z1 t0 : State} {a1 a2 a3 a4 a5} (h1 : Keeps z0 z1) (ht : execStreamArm a1 a2 a3 a4 a5 z1 = .next t0) :
    Keeps z0 t0 := by
  unfold execStreamArm at ht
  cases ht
  refine State.regWrite1_keeps ?_
  assumption

theorem execResumeCtx_keeps {z0 z1 t0 : State} {a1 a2 a3} (h1 : Keeps z0 z1) (ht : execResumeCtx a1 a2 a3 z1 = .next t0) :
    Keeps z0 t0 := by
  unfold execResumeCtx at ht
  cases ht
  refine State.regWrite1_keeps ?_
  assumption

theorem execInvCtx_keeps {z0 z1 t0 : State} {a1 a2 a3} (h1 : Keeps z0 z1) (ht : execInvCtx a1 a2 a3 z1 = .next t0) :
    Keeps z0 t0 := by
  unfold execInvCtx at ht
  cases ht
  refine State.regWrite1_keeps ?_
  assumption

theorem execBodEntWrite_keeps {z0 z1 t0 : State} {a1 a2 a3} (h1 : Keeps z0 z1) (ht : execBodEntWrite a1 a2 a3 z1 = .next t0) :
    Keeps z0 t0 := by
  unfold execBodEntWrite at ht
  cases ht
  refine State.regWrite1_keeps ?_
  assumption

theorem execBulkGo_keeps {z0 z1 t0 : State} {a1 a2 a3} (h1 : Keeps z0 z1) (ht : execBulkGo a1 a2 a3 z1 = .next t0) :
    Keeps z0 t0 := by
  unfold execBulkGo at ht
  cases ht
  refine State.regWrite1_keeps ?_
  assumption

theorem execLoad_keeps {z0 z1 t0 : State} {a1 a2 a3} (h1 : Keeps z0 z1) (ht : execLoad a1 a2 a3 z1 = .next t0) :
    Keeps z0 t0 := by
  unfold execLoad at ht
  cases ht
  refine State.regWrite1_keeps ?_
  assumption

theorem execStart_keeps {z0 z1 t0 : State} {a1 a2 a3} (h1 : Keeps z0 z1) (ht : execStart a1 a2 a3 z1 = .next t0) :
    Keeps z0 t0 := by
  unfold execStart at ht
  cases ht
  refine State.regWrite1_keeps ?_
  assumption

theorem execStop_keeps {z0 z1 t0 : State} {a1 a2 a3} (h1 : Keeps z0 z1) (ht : execStop a1 a2 a3 z1 = .next t0) :
    Keeps z0 t0 := by
  unfold execStop at ht
  cases ht
  refine State.regWrite1_keeps ?_
  assumption

theorem execSwap_keeps {z0 z1 t0 : State} {a1 a2 a3} (h1 : Keeps z0 z1) (ht : execSwap a1 a2 a3 z1 = .next t0) :
    Keeps z0 t0 := by
  unfold execSwap at ht
  cases ht
  refine State.regWrite1_keeps ?_
  assumption

theorem execDiscard_keeps {z0 z1 t0 : State} {a1 a2 a3} (h1 : Keeps z0 z1) (ht : execDiscard a1 a2 a3 z1 = .next t0) :
    Keeps z0 t0 := by
  unfold execDiscard at ht
  cases ht
  refine State.regWrite1_keeps ?_
  assumption

theorem execLoadAddr_keeps {z0 z1 t0 : State} {a1 a2 a3} (h1 : Keeps z0 z1) (ht : execLoadAddr a1 a2 a3 z1 = .next t0) :
    Keeps z0 t0 := by
  unfold execLoadAddr at ht
  cases ht
  refine State.regWrite1_keeps ?_
  assumption

theorem execCancelCtx_keeps {z0 z1 t0 : State} {a1 a2 a3} (h1 : Keeps z0 z1) (ht : execCancelCtx a1 a2 a3 z1 = .next t0) :
    Keeps z0 t0 := by
  unfold execCancelCtx at ht
  cases ht
  refine State.regWrite1_keeps ?_
  assumption

theorem execPlnClear_keeps {z0 z1 t0 : State} {a1 a2 a3} (h1 : Keeps z0 z1) (ht : execPlnClear a1 a2 a3 z1 = .next t0) :
    Keeps z0 t0 := by
  unfold execPlnClear at ht
  cases ht
  refine State.regWrite1_keeps ?_
  assumption

theorem execPlnInhibit_keeps {z0 z1 t0 : State} {a1 a2 a3} (h1 : Keeps z0 z1) (ht : execPlnInhibit a1 a2 a3 z1 = .next t0) :
    Keeps z0 t0 := by
  unfold execPlnInhibit at ht
  cases ht
  refine State.regWrite1_keeps ?_
  assumption

theorem execRspReq_keeps {z0 z1 t0 : State} {a1 a2 a3} (h1 : Keeps z0 z1) (ht : execRspReq a1 a2 a3 z1 = .next t0) :
    Keeps z0 t0 := by
  unfold execRspReq at ht
  cases ht
  refine State.regWrite1_keeps ?_
  assumption

theorem execWriteFirmware_keeps {z0 z1 t0 : State} {a1 a2 a3} (h1 : Keeps z0 z1) (ht : execWriteFirmware a1 a2 a3 z1 = .next t0) :
    Keeps z0 t0 := by
  unfold execWriteFirmware at ht
  cases ht
  refine State.regWrite1_keeps ?_
  assumption

theorem execWriteOptions_keeps {z0 z1 t0 : State} {a1 a2 a3} (h1 : Keeps z0 z1) (ht : execWriteOptions a1 a2 a3 z1 = .next t0) :
    Keeps z0 t0 := by
  unfold execWriteOptions at ht
  cases ht
  refine State.regWrite1_keeps ?_
  assumption

theorem execWriteGraph_keeps {z0 z1 t0 : State} {a1 a2 a3} (h1 : Keeps z0 z1) (ht : execWriteGraph a1 a2 a3 z1 = .next t0) :
    Keeps z0 t0 := by
  unfold execWriteGraph at ht
  cases ht
  refine State.regWrite1_keeps ?_
  assumption

theorem execEraseGraph_keeps {z0 z1 t0 : State} {a1 a2 a3} (h1 : Keeps z0 z1) (ht : execEraseGraph a1 a2 a3 z1 = .next t0) :
    Keeps z0 t0 := by
  unfold execEraseGraph at ht
  cases ht
  refine State.regWrite1_keeps ?_
  assumption

theorem execWriteKeys_keeps {z0 z1 t0 : State} {a1 a2 a3} (h1 : Keeps z0 z1) (ht : execWriteKeys a1 a2 a3 z1 = .next t0) :
    Keeps z0 t0 := by
  unfold execWriteKeys at ht
  cases ht
  refine State.regWrite1_keeps ?_
  assumption

theorem execRaiseFwFloor_keeps {z0 z1 t0 : State} {a1 a2 a3} (h1 : Keeps z0 z1) (ht : execRaiseFwFloor a1 a2 a3 z1 = .next t0) :
    Keeps z0 t0 := by
  unfold execRaiseFwFloor at ht
  cases ht
  refine State.regWrite1_keeps ?_
  assumption

theorem execWriteFactory_keeps {z0 z1 t0 : State} {a1 a2 a3} (h1 : Keeps z0 z1) (ht : execWriteFactory a1 a2 a3 z1 = .next t0) :
    Keeps z0 t0 := by
  unfold execWriteFactory at ht
  cases ht
  refine State.regWrite1_keeps ?_
  assumption

theorem execAttGo_keeps {z0 z1 t0 : State} {a1 a2 a3} (h1 : Keeps z0 z1) (ht : execAttGo a1 a2 a3 z1 = .next t0) :
    Keeps z0 t0 := by
  unfold execAttGo at ht
  cases ht
  refine State.regWrite1_keeps ?_
  assumption

theorem execAudGo_keeps {z0 z1 t0 : State} {a1 a2 a3} (h1 : Keeps z0 z1) (ht : execAudGo a1 a2 a3 z1 = .next t0) :
    Keeps z0 t0 := by
  unfold execAudGo at ht
  cases ht
  refine State.regWrite1_keeps ?_
  assumption

theorem execAudCkpt_keeps {z0 z1 t0 : State} {a1 a2 a3} (h1 : Keeps z0 z1) (ht : execAudCkpt a1 a2 a3 z1 = .next t0) :
    Keeps z0 t0 := by
  unfold execAudCkpt at ht
  cases ht
  refine State.regWrite1_keeps ?_
  assumption

theorem execLcToProvisioned_keeps {z0 z1 t0 : State} {a1 a2 a3} (h1 : Keeps z0 z1) (ht : execLcToProvisioned a1 a2 a3 z1 = .next t0) :
    Keeps z0 t0 := by
  unfold execLcToProvisioned at ht
  cases ht
  refine State.regWrite1_keeps ?_
  assumption

theorem execLcToService_keeps {z0 z1 t0 : State} {a1 a2 a3} (h1 : Keeps z0 z1) (ht : execLcToService a1 a2 a3 z1 = .next t0) :
    Keeps z0 t0 := by
  unfold execLcToService at ht
  cases ht
  refine State.regWrite1_keeps ?_
  assumption

theorem execLcToDiagnose_keeps {z0 z1 t0 : State} {a1 a2 a3} (h1 : Keeps z0 z1) (ht : execLcToDiagnose a1 a2 a3 z1 = .next t0) :
    Keeps z0 t0 := by
  unfold execLcToDiagnose at ht
  cases ht
  refine State.regWrite1_keeps ?_
  assumption

theorem execLcToReturn_keeps {z0 z1 t0 : State} {a1 a2 a3} (h1 : Keeps z0 z1) (ht : execLcToReturn a1 a2 a3 z1 = .next t0) :
    Keeps z0 t0 := by
  unfold execLcToReturn at ht
  cases ht
  refine State.regWrite1_keeps ?_
  assumption

theorem execLcToScrapped_keeps {z0 z1 t0 : State} {a1 a2 a3} (h1 : Keeps z0 z1) (ht : execLcToScrapped a1 a2 a3 z1 = .next t0) :
    Keeps z0 t0 := by
  unfold execLcToScrapped at ht
  cases ht
  refine State.regWrite1_keeps ?_
  assumption

end Sys2Proof.Machine
end

