-- ==== Sys2Proof/Laws/State.lean ====
section
/-! SUPPORT. What the plain updates of State leave as it was: one lemma per field and update. -/

namespace Sys2Proof.Machine

variable (s : State)

/-! `State.wr` -/

@[simp] theorem State.wr_pending (p : Page) (f : RField) (v i j : Nat) : (s.wr p f v i j).pending = s.pending := rfl
@[simp] theorem State.wr_draws (p : Page) (f : RField) (v i j : Nat) : (s.wr p f v i j).draws = s.draws := rfl
@[simp] theorem State.wr_time (p : Page) (f : RField) (v i j : Nat) : (s.wr p f v i j).time = s.time := rfl
@[simp] theorem State.wr_power (p : Page) (f : RField) (v i j : Nat) : (s.wr p f v i j).power = s.power := rfl
@[simp] theorem State.wr_sensors (p : Page) (f : RField) (v i j : Nat) : (s.wr p f v i j).sensors = s.sensors := rfl
@[simp] theorem State.wr_clock (p : Page) (f : RField) (v i j : Nat) : (s.wr p f v i j).clock = s.clock := rfl
@[simp] theorem State.wr_shadow (p : Page) (f : RField) (v i j : Nat) : (s.wr p f v i j).shadow = s.shadow := rfl
@[simp] theorem State.wr_events (p : Page) (f : RField) (v i j : Nat) : (s.wr p f v i j).events = s.events := rfl
@[simp] theorem State.wr_commits (p : Page) (f : RField) (v i j : Nat) : (s.wr p f v i j).commits = s.commits := rfl
@[simp] theorem State.wr_resets (p : Page) (f : RField) (v i j : Nat) : (s.wr p f v i j).resets = s.resets := rfl
@[simp] theorem State.wr_retention (p : Page) (f : RField) (v i j : Nat) : (s.wr p f v i j).retention = s.retention := rfl
@[simp] theorem State.wr_link (p : Page) (f : RField) (v i j : Nat) : (s.wr p f v i j).link = s.link := rfl
@[simp] theorem State.wr_mgc (p : Page) (f : RField) (v i j : Nat) : (s.wr p f v i j).mgc = s.mgc := rfl
@[simp] theorem State.wr_plinth (p : Page) (f : RField) (v i j : Nat) : (s.wr p f v i j).plinth = s.plinth := rfl
@[simp] theorem State.wr_rasp (p : Page) (f : RField) (v i j : Nat) : (s.wr p f v i j).rasp = s.rasp := rfl
@[simp] theorem State.wr_amt (p : Page) (f : RField) (v i j : Nat) : (s.wr p f v i j).amt = s.amt := rfl
@[simp] theorem State.wr_clusters (p : Page) (f : RField) (v i j : Nat) : (s.wr p f v i j).clusters = s.clusters := rfl
@[simp] theorem State.wr_fabric (p : Page) (f : RField) (v i j : Nat) : (s.wr p f v i j).fabric = s.fabric := rfl
@[simp] theorem State.wr_vision (p : Page) (f : RField) (v i j : Nat) : (s.wr p f v i j).vision = s.vision := rfl
@[simp] theorem State.wr_wire (p : Page) (f : RField) (v i j : Nat) : (s.wr p f v i j).wire = s.wire := rfl

/-! `State.wrShadow` -/

@[simp] theorem State.wrShadow_pending (p : Page) (f : RField) (v i j : Nat) : (s.wrShadow p f v i j).pending = s.pending := rfl
@[simp] theorem State.wrShadow_draws (p : Page) (f : RField) (v i j : Nat) : (s.wrShadow p f v i j).draws = s.draws := rfl
@[simp] theorem State.wrShadow_time (p : Page) (f : RField) (v i j : Nat) : (s.wrShadow p f v i j).time = s.time := rfl
@[simp] theorem State.wrShadow_power (p : Page) (f : RField) (v i j : Nat) : (s.wrShadow p f v i j).power = s.power := rfl
@[simp] theorem State.wrShadow_sensors (p : Page) (f : RField) (v i j : Nat) : (s.wrShadow p f v i j).sensors = s.sensors := rfl
@[simp] theorem State.wrShadow_clock (p : Page) (f : RField) (v i j : Nat) : (s.wrShadow p f v i j).clock = s.clock := rfl
@[simp] theorem State.wrShadow_regs (p : Page) (f : RField) (v i j : Nat) : (s.wrShadow p f v i j).regs = s.regs := rfl
@[simp] theorem State.wrShadow_events (p : Page) (f : RField) (v i j : Nat) : (s.wrShadow p f v i j).events = s.events := rfl
@[simp] theorem State.wrShadow_commits (p : Page) (f : RField) (v i j : Nat) : (s.wrShadow p f v i j).commits = s.commits := rfl
@[simp] theorem State.wrShadow_resets (p : Page) (f : RField) (v i j : Nat) : (s.wrShadow p f v i j).resets = s.resets := rfl
@[simp] theorem State.wrShadow_retention (p : Page) (f : RField) (v i j : Nat) : (s.wrShadow p f v i j).retention = s.retention := rfl
@[simp] theorem State.wrShadow_link (p : Page) (f : RField) (v i j : Nat) : (s.wrShadow p f v i j).link = s.link := rfl
@[simp] theorem State.wrShadow_mgc (p : Page) (f : RField) (v i j : Nat) : (s.wrShadow p f v i j).mgc = s.mgc := rfl
@[simp] theorem State.wrShadow_plinth (p : Page) (f : RField) (v i j : Nat) : (s.wrShadow p f v i j).plinth = s.plinth := rfl
@[simp] theorem State.wrShadow_rasp (p : Page) (f : RField) (v i j : Nat) : (s.wrShadow p f v i j).rasp = s.rasp := rfl
@[simp] theorem State.wrShadow_amt (p : Page) (f : RField) (v i j : Nat) : (s.wrShadow p f v i j).amt = s.amt := rfl
@[simp] theorem State.wrShadow_clusters (p : Page) (f : RField) (v i j : Nat) : (s.wrShadow p f v i j).clusters = s.clusters := rfl
@[simp] theorem State.wrShadow_fabric (p : Page) (f : RField) (v i j : Nat) : (s.wrShadow p f v i j).fabric = s.fabric := rfl
@[simp] theorem State.wrShadow_vision (p : Page) (f : RField) (v i j : Nat) : (s.wrShadow p f v i j).vision = s.vision := rfl
@[simp] theorem State.wrShadow_wire (p : Page) (f : RField) (v i j : Nat) : (s.wrShadow p f v i j).wire = s.wire := rfl

/-! `State.count` -/

@[simp] theorem State.count_pending (p : Page) (f : RField) (d i j : Nat) : (s.count p f d i j).pending = s.pending := rfl
@[simp] theorem State.count_draws (p : Page) (f : RField) (d i j : Nat) : (s.count p f d i j).draws = s.draws := rfl
@[simp] theorem State.count_time (p : Page) (f : RField) (d i j : Nat) : (s.count p f d i j).time = s.time := rfl
@[simp] theorem State.count_power (p : Page) (f : RField) (d i j : Nat) : (s.count p f d i j).power = s.power := rfl
@[simp] theorem State.count_sensors (p : Page) (f : RField) (d i j : Nat) : (s.count p f d i j).sensors = s.sensors := rfl
@[simp] theorem State.count_clock (p : Page) (f : RField) (d i j : Nat) : (s.count p f d i j).clock = s.clock := rfl
@[simp] theorem State.count_shadow (p : Page) (f : RField) (d i j : Nat) : (s.count p f d i j).shadow = s.shadow := rfl
@[simp] theorem State.count_events (p : Page) (f : RField) (d i j : Nat) : (s.count p f d i j).events = s.events := rfl
@[simp] theorem State.count_commits (p : Page) (f : RField) (d i j : Nat) : (s.count p f d i j).commits = s.commits := rfl
@[simp] theorem State.count_resets (p : Page) (f : RField) (d i j : Nat) : (s.count p f d i j).resets = s.resets := rfl
@[simp] theorem State.count_retention (p : Page) (f : RField) (d i j : Nat) : (s.count p f d i j).retention = s.retention := rfl
@[simp] theorem State.count_link (p : Page) (f : RField) (d i j : Nat) : (s.count p f d i j).link = s.link := rfl
@[simp] theorem State.count_mgc (p : Page) (f : RField) (d i j : Nat) : (s.count p f d i j).mgc = s.mgc := rfl
@[simp] theorem State.count_plinth (p : Page) (f : RField) (d i j : Nat) : (s.count p f d i j).plinth = s.plinth := rfl
@[simp] theorem State.count_rasp (p : Page) (f : RField) (d i j : Nat) : (s.count p f d i j).rasp = s.rasp := rfl
@[simp] theorem State.count_amt (p : Page) (f : RField) (d i j : Nat) : (s.count p f d i j).amt = s.amt := rfl
@[simp] theorem State.count_clusters (p : Page) (f : RField) (d i j : Nat) : (s.count p f d i j).clusters = s.clusters := rfl
@[simp] theorem State.count_fabric (p : Page) (f : RField) (d i j : Nat) : (s.count p f d i j).fabric = s.fabric := rfl
@[simp] theorem State.count_vision (p : Page) (f : RField) (d i j : Nat) : (s.count p f d i j).vision = s.vision := rfl
@[simp] theorem State.count_wire (p : Page) (f : RField) (d i j : Nat) : (s.count p f d i j).wire = s.wire := rfl

/-! `State.wr2` -/

@[simp] theorem State.wr2_pending (p : Page) (lo hi : RField) (v : Nat) : (s.wr2 p lo hi v).pending = s.pending := rfl
@[simp] theorem State.wr2_draws (p : Page) (lo hi : RField) (v : Nat) : (s.wr2 p lo hi v).draws = s.draws := rfl
@[simp] theorem State.wr2_time (p : Page) (lo hi : RField) (v : Nat) : (s.wr2 p lo hi v).time = s.time := rfl
@[simp] theorem State.wr2_power (p : Page) (lo hi : RField) (v : Nat) : (s.wr2 p lo hi v).power = s.power := rfl
@[simp] theorem State.wr2_sensors (p : Page) (lo hi : RField) (v : Nat) : (s.wr2 p lo hi v).sensors = s.sensors := rfl
@[simp] theorem State.wr2_clock (p : Page) (lo hi : RField) (v : Nat) : (s.wr2 p lo hi v).clock = s.clock := rfl
@[simp] theorem State.wr2_shadow (p : Page) (lo hi : RField) (v : Nat) : (s.wr2 p lo hi v).shadow = s.shadow := rfl
@[simp] theorem State.wr2_events (p : Page) (lo hi : RField) (v : Nat) : (s.wr2 p lo hi v).events = s.events := rfl
@[simp] theorem State.wr2_commits (p : Page) (lo hi : RField) (v : Nat) : (s.wr2 p lo hi v).commits = s.commits := rfl
@[simp] theorem State.wr2_resets (p : Page) (lo hi : RField) (v : Nat) : (s.wr2 p lo hi v).resets = s.resets := rfl
@[simp] theorem State.wr2_retention (p : Page) (lo hi : RField) (v : Nat) : (s.wr2 p lo hi v).retention = s.retention := rfl
@[simp] theorem State.wr2_link (p : Page) (lo hi : RField) (v : Nat) : (s.wr2 p lo hi v).link = s.link := rfl
@[simp] theorem State.wr2_mgc (p : Page) (lo hi : RField) (v : Nat) : (s.wr2 p lo hi v).mgc = s.mgc := rfl
@[simp] theorem State.wr2_plinth (p : Page) (lo hi : RField) (v : Nat) : (s.wr2 p lo hi v).plinth = s.plinth := rfl
@[simp] theorem State.wr2_rasp (p : Page) (lo hi : RField) (v : Nat) : (s.wr2 p lo hi v).rasp = s.rasp := rfl
@[simp] theorem State.wr2_amt (p : Page) (lo hi : RField) (v : Nat) : (s.wr2 p lo hi v).amt = s.amt := rfl
@[simp] theorem State.wr2_clusters (p : Page) (lo hi : RField) (v : Nat) : (s.wr2 p lo hi v).clusters = s.clusters := rfl
@[simp] theorem State.wr2_fabric (p : Page) (lo hi : RField) (v : Nat) : (s.wr2 p lo hi v).fabric = s.fabric := rfl
@[simp] theorem State.wr2_vision (p : Page) (lo hi : RField) (v : Nat) : (s.wr2 p lo hi v).vision = s.vision := rfl
@[simp] theorem State.wr2_wire (p : Page) (lo hi : RField) (v : Nat) : (s.wr2 p lo hi v).wire = s.wire := rfl

/-! `State.clearPage` -/

@[simp] theorem State.clearPage_pending (p : Page) : (s.clearPage p).pending = s.pending := rfl
@[simp] theorem State.clearPage_draws (p : Page) : (s.clearPage p).draws = s.draws := rfl
@[simp] theorem State.clearPage_time (p : Page) : (s.clearPage p).time = s.time := rfl
@[simp] theorem State.clearPage_power (p : Page) : (s.clearPage p).power = s.power := rfl
@[simp] theorem State.clearPage_sensors (p : Page) : (s.clearPage p).sensors = s.sensors := rfl
@[simp] theorem State.clearPage_clock (p : Page) : (s.clearPage p).clock = s.clock := rfl
@[simp] theorem State.clearPage_resets (p : Page) : (s.clearPage p).resets = s.resets := rfl
@[simp] theorem State.clearPage_retention (p : Page) : (s.clearPage p).retention = s.retention := rfl
@[simp] theorem State.clearPage_link (p : Page) : (s.clearPage p).link = s.link := rfl
@[simp] theorem State.clearPage_mgc (p : Page) : (s.clearPage p).mgc = s.mgc := rfl
@[simp] theorem State.clearPage_plinth (p : Page) : (s.clearPage p).plinth = s.plinth := rfl
@[simp] theorem State.clearPage_rasp (p : Page) : (s.clearPage p).rasp = s.rasp := rfl
@[simp] theorem State.clearPage_amt (p : Page) : (s.clearPage p).amt = s.amt := rfl
@[simp] theorem State.clearPage_clusters (p : Page) : (s.clearPage p).clusters = s.clusters := rfl
@[simp] theorem State.clearPage_fabric (p : Page) : (s.clearPage p).fabric = s.fabric := rfl
@[simp] theorem State.clearPage_vision (p : Page) : (s.clearPage p).vision = s.vision := rfl
@[simp] theorem State.clearPage_wire (p : Page) : (s.clearPage p).wire = s.wire := rfl

/-! `State.store` -/

@[simp] theorem State.store_pending (a : Nat) (b : List Byte) : (s.store a b).pending = s.pending := rfl
@[simp] theorem State.store_draws (a : Nat) (b : List Byte) : (s.store a b).draws = s.draws := rfl
@[simp] theorem State.store_time (a : Nat) (b : List Byte) : (s.store a b).time = s.time := rfl
@[simp] theorem State.store_power (a : Nat) (b : List Byte) : (s.store a b).power = s.power := rfl
@[simp] theorem State.store_sensors (a : Nat) (b : List Byte) : (s.store a b).sensors = s.sensors := rfl
@[simp] theorem State.store_clock (a : Nat) (b : List Byte) : (s.store a b).clock = s.clock := rfl
@[simp] theorem State.store_regs (a : Nat) (b : List Byte) : (s.store a b).regs = s.regs := rfl
@[simp] theorem State.store_shadow (a : Nat) (b : List Byte) : (s.store a b).shadow = s.shadow := rfl
@[simp] theorem State.store_events (a : Nat) (b : List Byte) : (s.store a b).events = s.events := rfl
@[simp] theorem State.store_commits (a : Nat) (b : List Byte) : (s.store a b).commits = s.commits := rfl
@[simp] theorem State.store_resets (a : Nat) (b : List Byte) : (s.store a b).resets = s.resets := rfl
@[simp] theorem State.store_retention (a : Nat) (b : List Byte) : (s.store a b).retention = s.retention := rfl
@[simp] theorem State.store_link (a : Nat) (b : List Byte) : (s.store a b).link = s.link := rfl
@[simp] theorem State.store_mgc (a : Nat) (b : List Byte) : (s.store a b).mgc = s.mgc := rfl
@[simp] theorem State.store_plinth (a : Nat) (b : List Byte) : (s.store a b).plinth = s.plinth := rfl
@[simp] theorem State.store_rasp (a : Nat) (b : List Byte) : (s.store a b).rasp = s.rasp := rfl
@[simp] theorem State.store_amt (a : Nat) (b : List Byte) : (s.store a b).amt = s.amt := rfl
@[simp] theorem State.store_clusters (a : Nat) (b : List Byte) : (s.store a b).clusters = s.clusters := rfl
@[simp] theorem State.store_vision (a : Nat) (b : List Byte) : (s.store a b).vision = s.vision := rfl
@[simp] theorem State.store_wire (a : Nat) (b : List Byte) : (s.store a b).wire = s.wire := rfl

/-! `State.wipe` -/

@[simp] theorem State.wipe_pending (a n : Nat) : (s.wipe a n).pending = s.pending := rfl
@[simp] theorem State.wipe_draws (a n : Nat) : (s.wipe a n).draws = s.draws := rfl
@[simp] theorem State.wipe_time (a n : Nat) : (s.wipe a n).time = s.time := rfl
@[simp] theorem State.wipe_power (a n : Nat) : (s.wipe a n).power = s.power := rfl
@[simp] theorem State.wipe_sensors (a n : Nat) : (s.wipe a n).sensors = s.sensors := rfl
@[simp] theorem State.wipe_clock (a n : Nat) : (s.wipe a n).clock = s.clock := rfl
@[simp] theorem State.wipe_regs (a n : Nat) : (s.wipe a n).regs = s.regs := rfl
@[simp] theorem State.wipe_shadow (a n : Nat) : (s.wipe a n).shadow = s.shadow := rfl
@[simp] theorem State.wipe_events (a n : Nat) : (s.wipe a n).events = s.events := rfl
@[simp] theorem State.wipe_commits (a n : Nat) : (s.wipe a n).commits = s.commits := rfl
@[simp] theorem State.wipe_resets (a n : Nat) : (s.wipe a n).resets = s.resets := rfl
@[simp] theorem State.wipe_retention (a n : Nat) : (s.wipe a n).retention = s.retention := rfl
@[simp] theorem State.wipe_link (a n : Nat) : (s.wipe a n).link = s.link := rfl
@[simp] theorem State.wipe_mgc (a n : Nat) : (s.wipe a n).mgc = s.mgc := rfl
@[simp] theorem State.wipe_plinth (a n : Nat) : (s.wipe a n).plinth = s.plinth := rfl
@[simp] theorem State.wipe_rasp (a n : Nat) : (s.wipe a n).rasp = s.rasp := rfl
@[simp] theorem State.wipe_amt (a n : Nat) : (s.wipe a n).amt = s.amt := rfl
@[simp] theorem State.wipe_clusters (a n : Nat) : (s.wipe a n).clusters = s.clusters := rfl
@[simp] theorem State.wipe_vision (a n : Nat) : (s.wipe a n).vision = s.vision := rfl
@[simp] theorem State.wipe_wire (a n : Nat) : (s.wipe a n).wire = s.wire := rfl

/-! `State.setDomain` -/

@[simp] theorem State.setDomain_pending (n : Nat) (d : Domain) : (s.setDomain n d).pending = s.pending := rfl
@[simp] theorem State.setDomain_draws (n : Nat) (d : Domain) : (s.setDomain n d).draws = s.draws := rfl
@[simp] theorem State.setDomain_time (n : Nat) (d : Domain) : (s.setDomain n d).time = s.time := rfl
@[simp] theorem State.setDomain_sensors (n : Nat) (d : Domain) : (s.setDomain n d).sensors = s.sensors := rfl
@[simp] theorem State.setDomain_clock (n : Nat) (d : Domain) : (s.setDomain n d).clock = s.clock := rfl
@[simp] theorem State.setDomain_regs (n : Nat) (d : Domain) : (s.setDomain n d).regs = s.regs := rfl
@[simp] theorem State.setDomain_shadow (n : Nat) (d : Domain) : (s.setDomain n d).shadow = s.shadow := rfl
@[simp] theorem State.setDomain_events (n : Nat) (d : Domain) : (s.setDomain n d).events = s.events := rfl
@[simp] theorem State.setDomain_commits (n : Nat) (d : Domain) : (s.setDomain n d).commits = s.commits := rfl
@[simp] theorem State.setDomain_resets (n : Nat) (d : Domain) : (s.setDomain n d).resets = s.resets := rfl
@[simp] theorem State.setDomain_retention (n : Nat) (d : Domain) : (s.setDomain n d).retention = s.retention := rfl
@[simp] theorem State.setDomain_link (n : Nat) (d : Domain) : (s.setDomain n d).link = s.link := rfl
@[simp] theorem State.setDomain_mgc (n : Nat) (d : Domain) : (s.setDomain n d).mgc = s.mgc := rfl
@[simp] theorem State.setDomain_plinth (n : Nat) (d : Domain) : (s.setDomain n d).plinth = s.plinth := rfl
@[simp] theorem State.setDomain_rasp (n : Nat) (d : Domain) : (s.setDomain n d).rasp = s.rasp := rfl
@[simp] theorem State.setDomain_amt (n : Nat) (d : Domain) : (s.setDomain n d).amt = s.amt := rfl
@[simp] theorem State.setDomain_clusters (n : Nat) (d : Domain) : (s.setDomain n d).clusters = s.clusters := rfl
@[simp] theorem State.setDomain_fabric (n : Nat) (d : Domain) : (s.setDomain n d).fabric = s.fabric := rfl
@[simp] theorem State.setDomain_vision (n : Nat) (d : Domain) : (s.setDomain n d).vision = s.vision := rfl
@[simp] theorem State.setDomain_wire (n : Nat) (d : Domain) : (s.setDomain n d).wire = s.wire := rfl

/-! `State.setPort` -/

@[simp] theorem State.setPort_pending (p : Nat) (x : HlPort) : (s.setPort p x).pending = s.pending := rfl
@[simp] theorem State.setPort_draws (p : Nat) (x : HlPort) : (s.setPort p x).draws = s.draws := rfl
@[simp] theorem State.setPort_time (p : Nat) (x : HlPort) : (s.setPort p x).time = s.time := rfl
@[simp] theorem State.setPort_power (p : Nat) (x : HlPort) : (s.setPort p x).power = s.power := rfl
@[simp] theorem State.setPort_sensors (p : Nat) (x : HlPort) : (s.setPort p x).sensors = s.sensors := rfl
@[simp] theorem State.setPort_clock (p : Nat) (x : HlPort) : (s.setPort p x).clock = s.clock := rfl
@[simp] theorem State.setPort_regs (p : Nat) (x : HlPort) : (s.setPort p x).regs = s.regs := rfl
@[simp] theorem State.setPort_shadow (p : Nat) (x : HlPort) : (s.setPort p x).shadow = s.shadow := rfl
@[simp] theorem State.setPort_events (p : Nat) (x : HlPort) : (s.setPort p x).events = s.events := rfl
@[simp] theorem State.setPort_commits (p : Nat) (x : HlPort) : (s.setPort p x).commits = s.commits := rfl
@[simp] theorem State.setPort_resets (p : Nat) (x : HlPort) : (s.setPort p x).resets = s.resets := rfl
@[simp] theorem State.setPort_retention (p : Nat) (x : HlPort) : (s.setPort p x).retention = s.retention := rfl
@[simp] theorem State.setPort_mgc (p : Nat) (x : HlPort) : (s.setPort p x).mgc = s.mgc := rfl
@[simp] theorem State.setPort_plinth (p : Nat) (x : HlPort) : (s.setPort p x).plinth = s.plinth := rfl
@[simp] theorem State.setPort_rasp (p : Nat) (x : HlPort) : (s.setPort p x).rasp = s.rasp := rfl
@[simp] theorem State.setPort_amt (p : Nat) (x : HlPort) : (s.setPort p x).amt = s.amt := rfl
@[simp] theorem State.setPort_clusters (p : Nat) (x : HlPort) : (s.setPort p x).clusters = s.clusters := rfl
@[simp] theorem State.setPort_fabric (p : Nat) (x : HlPort) : (s.setPort p x).fabric = s.fabric := rfl
@[simp] theorem State.setPort_vision (p : Nat) (x : HlPort) : (s.setPort p x).vision = s.vision := rfl
@[simp] theorem State.setPort_wire (p : Nat) (x : HlPort) : (s.setPort p x).wire = s.wire := rfl

/-! `State.emit` -/

@[simp] theorem State.emit_pending (o : Out) : (s.emit o).pending = s.pending := rfl
@[simp] theorem State.emit_draws (o : Out) : (s.emit o).draws = s.draws := rfl
@[simp] theorem State.emit_time (o : Out) : (s.emit o).time = s.time := rfl
@[simp] theorem State.emit_power (o : Out) : (s.emit o).power = s.power := rfl
@[simp] theorem State.emit_sensors (o : Out) : (s.emit o).sensors = s.sensors := rfl
@[simp] theorem State.emit_clock (o : Out) : (s.emit o).clock = s.clock := rfl
@[simp] theorem State.emit_regs (o : Out) : (s.emit o).regs = s.regs := rfl
@[simp] theorem State.emit_shadow (o : Out) : (s.emit o).shadow = s.shadow := rfl
@[simp] theorem State.emit_events (o : Out) : (s.emit o).events = s.events := rfl
@[simp] theorem State.emit_commits (o : Out) : (s.emit o).commits = s.commits := rfl
@[simp] theorem State.emit_resets (o : Out) : (s.emit o).resets = s.resets := rfl
@[simp] theorem State.emit_retention (o : Out) : (s.emit o).retention = s.retention := rfl
@[simp] theorem State.emit_link (o : Out) : (s.emit o).link = s.link := rfl
@[simp] theorem State.emit_mgc (o : Out) : (s.emit o).mgc = s.mgc := rfl
@[simp] theorem State.emit_plinth (o : Out) : (s.emit o).plinth = s.plinth := rfl
@[simp] theorem State.emit_rasp (o : Out) : (s.emit o).rasp = s.rasp := rfl
@[simp] theorem State.emit_amt (o : Out) : (s.emit o).amt = s.amt := rfl
@[simp] theorem State.emit_clusters (o : Out) : (s.emit o).clusters = s.clusters := rfl
@[simp] theorem State.emit_fabric (o : Out) : (s.emit o).fabric = s.fabric := rfl
@[simp] theorem State.emit_vision (o : Out) : (s.emit o).vision = s.vision := rfl

/-! `State.audit` -/

@[simp] theorem State.audit_pending (k a p r : Nat) (d : List Byte) (t : Option Nat) : (s.audit k a p r d t).pending = s.pending := rfl
@[simp] theorem State.audit_draws (k a p r : Nat) (d : List Byte) (t : Option Nat) : (s.audit k a p r d t).draws = s.draws := rfl
@[simp] theorem State.audit_time (k a p r : Nat) (d : List Byte) (t : Option Nat) : (s.audit k a p r d t).time = s.time := rfl
@[simp] theorem State.audit_power (k a p r : Nat) (d : List Byte) (t : Option Nat) : (s.audit k a p r d t).power = s.power := rfl
@[simp] theorem State.audit_sensors (k a p r : Nat) (d : List Byte) (t : Option Nat) : (s.audit k a p r d t).sensors = s.sensors := rfl
@[simp] theorem State.audit_clock (k a p r : Nat) (d : List Byte) (t : Option Nat) : (s.audit k a p r d t).clock = s.clock := rfl
@[simp] theorem State.audit_regs (k a p r : Nat) (d : List Byte) (t : Option Nat) : (s.audit k a p r d t).regs = s.regs := rfl
@[simp] theorem State.audit_shadow (k a p r : Nat) (d : List Byte) (t : Option Nat) : (s.audit k a p r d t).shadow = s.shadow := rfl
@[simp] theorem State.audit_events (k a p r : Nat) (d : List Byte) (t : Option Nat) : (s.audit k a p r d t).events = s.events := rfl
@[simp] theorem State.audit_commits (k a p r : Nat) (d : List Byte) (t : Option Nat) : (s.audit k a p r d t).commits = s.commits := rfl
@[simp] theorem State.audit_resets (k a p r : Nat) (d : List Byte) (t : Option Nat) : (s.audit k a p r d t).resets = s.resets := rfl
@[simp] theorem State.audit_retention (k a p r : Nat) (d : List Byte) (t : Option Nat) : (s.audit k a p r d t).retention = s.retention := rfl
@[simp] theorem State.audit_link (k a p r : Nat) (d : List Byte) (t : Option Nat) : (s.audit k a p r d t).link = s.link := rfl
@[simp] theorem State.audit_plinth (k a p r : Nat) (d : List Byte) (t : Option Nat) : (s.audit k a p r d t).plinth = s.plinth := rfl
@[simp] theorem State.audit_rasp (k a p r : Nat) (d : List Byte) (t : Option Nat) : (s.audit k a p r d t).rasp = s.rasp := rfl
@[simp] theorem State.audit_amt (k a p r : Nat) (d : List Byte) (t : Option Nat) : (s.audit k a p r d t).amt = s.amt := rfl
@[simp] theorem State.audit_clusters (k a p r : Nat) (d : List Byte) (t : Option Nat) : (s.audit k a p r d t).clusters = s.clusters := rfl
@[simp] theorem State.audit_fabric (k a p r : Nat) (d : List Byte) (t : Option Nat) : (s.audit k a p r d t).fabric = s.fabric := rfl
@[simp] theorem State.audit_vision (k a p r : Nat) (d : List Byte) (t : Option Nat) : (s.audit k a p r d t).vision = s.vision := rfl
@[simp] theorem State.audit_wire (k a p r : Nat) (d : List Byte) (t : Option Nat) : (s.audit k a p r d t).wire = s.wire := rfl

end Sys2Proof.Machine
end

