-- ==== Sys2Proof/Laws/Ops.lean ====
section
/-! SUPPORT. What the named operations leave as it was: `…_frame` gives every part of the state that an operation does not
touch at once, the lemmas after it one part each. -/

set_option Elab.async false

namespace Sys2Proof.Machine

/-- Sending cells changes the ports and what has left the device. -/
theorem pumpN_frame (p n : Nat) (s : State) : pumpN p n s = { s with link := (pumpN p n s).link, wire := (pumpN p n s).wire } := by
  induction n generalizing s with
  | zero => rfl
  | succ n ih =>
    unfold pumpN
    extract_lets x
    split
    · rfl
    · rw [ih]
      rfl

variable (s : State)

/-- What `State.pump` touches. -/
theorem State.pump_frame (p : Nat) :
    s.pump p = { s with link := (s.pump p).link, wire := (s.pump p).wire } := by
  unfold State.pump
  split
  · exact pumpN_frame p 2048 s
  · rfl

@[simp] theorem State.pump_pending (p : Nat) : (s.pump p).pending = s.pending := by
  rw [State.pump_frame]
@[simp] theorem State.pump_draws (p : Nat) : (s.pump p).draws = s.draws := by
  rw [State.pump_frame]
@[simp] theorem State.pump_time (p : Nat) : (s.pump p).time = s.time := by
  rw [State.pump_frame]
@[simp] theorem State.pump_power (p : Nat) : (s.pump p).power = s.power := by
  rw [State.pump_frame]
@[simp] theorem State.pump_sensors (p : Nat) : (s.pump p).sensors = s.sensors := by
  rw [State.pump_frame]
@[simp] theorem State.pump_clock (p : Nat) : (s.pump p).clock = s.clock := by
  rw [State.pump_frame]
@[simp] theorem State.pump_regs (p : Nat) : (s.pump p).regs = s.regs := by
  rw [State.pump_frame]
@[simp] theorem State.pump_shadow (p : Nat) : (s.pump p).shadow = s.shadow := by
  rw [State.pump_frame]
@[simp] theorem State.pump_events (p : Nat) : (s.pump p).events = s.events := by
  rw [State.pump_frame]
@[simp] theorem State.pump_commits (p : Nat) : (s.pump p).commits = s.commits := by
  rw [State.pump_frame]
@[simp] theorem State.pump_resets (p : Nat) : (s.pump p).resets = s.resets := by
  rw [State.pump_frame]
@[simp] theorem State.pump_retention (p : Nat) : (s.pump p).retention = s.retention := by
  rw [State.pump_frame]
@[simp] theorem State.pump_mgc (p : Nat) : (s.pump p).mgc = s.mgc := by
  rw [State.pump_frame]
@[simp] theorem State.pump_plinth (p : Nat) : (s.pump p).plinth = s.plinth := by
  rw [State.pump_frame]
@[simp] theorem State.pump_rasp (p : Nat) : (s.pump p).rasp = s.rasp := by
  rw [State.pump_frame]
@[simp] theorem State.pump_amt (p : Nat) : (s.pump p).amt = s.amt := by
  rw [State.pump_frame]
@[simp] theorem State.pump_clusters (p : Nat) : (s.pump p).clusters = s.clusters := by
  rw [State.pump_frame]
@[simp] theorem State.pump_fabric (p : Nat) : (s.pump p).fabric = s.fabric := by
  rw [State.pump_frame]
@[simp] theorem State.pump_vision (p : Nat) : (s.pump p).vision = s.vision := by
  rw [State.pump_frame]

/-- What `State.queueMsg` touches. -/
theorem State.queueMsg_frame (p : Nat) (m : Msg) :
    s.queueMsg p m = { s with link := (s.queueMsg p m).link, wire := (s.queueMsg p m).wire } := by
  unfold State.queueMsg
  dsimp only
  rw [State.pump_frame]
  rfl

@[simp] theorem State.queueMsg_pending (p : Nat) (m : Msg) : (s.queueMsg p m).pending = s.pending := by
  rw [State.queueMsg_frame]
@[simp] theorem State.queueMsg_draws (p : Nat) (m : Msg) : (s.queueMsg p m).draws = s.draws := by
  rw [State.queueMsg_frame]
@[simp] theorem State.queueMsg_time (p : Nat) (m : Msg) : (s.queueMsg p m).time = s.time := by
  rw [State.queueMsg_frame]
@[simp] theorem State.queueMsg_power (p : Nat) (m : Msg) : (s.queueMsg p m).power = s.power := by
  rw [State.queueMsg_frame]
@[simp] theorem State.queueMsg_sensors (p : Nat) (m : Msg) : (s.queueMsg p m).sensors = s.sensors := by
  rw [State.queueMsg_frame]
@[simp] theorem State.queueMsg_clock (p : Nat) (m : Msg) : (s.queueMsg p m).clock = s.clock := by
  rw [State.queueMsg_frame]
@[simp] theorem State.queueMsg_regs (p : Nat) (m : Msg) : (s.queueMsg p m).regs = s.regs := by
  rw [State.queueMsg_frame]
@[simp] theorem State.queueMsg_shadow (p : Nat) (m : Msg) : (s.queueMsg p m).shadow = s.shadow := by
  rw [State.queueMsg_frame]
@[simp] theorem State.queueMsg_events (p : Nat) (m : Msg) : (s.queueMsg p m).events = s.events := by
  rw [State.queueMsg_frame]
@[simp] theorem State.queueMsg_commits (p : Nat) (m : Msg) : (s.queueMsg p m).commits = s.commits := by
  rw [State.queueMsg_frame]
@[simp] theorem State.queueMsg_resets (p : Nat) (m : Msg) : (s.queueMsg p m).resets = s.resets := by
  rw [State.queueMsg_frame]
@[simp] theorem State.queueMsg_retention (p : Nat) (m : Msg) : (s.queueMsg p m).retention = s.retention := by
  rw [State.queueMsg_frame]
@[simp] theorem State.queueMsg_mgc (p : Nat) (m : Msg) : (s.queueMsg p m).mgc = s.mgc := by
  rw [State.queueMsg_frame]
@[simp] theorem State.queueMsg_plinth (p : Nat) (m : Msg) : (s.queueMsg p m).plinth = s.plinth := by
  rw [State.queueMsg_frame]
@[simp] theorem State.queueMsg_rasp (p : Nat) (m : Msg) : (s.queueMsg p m).rasp = s.rasp := by
  rw [State.queueMsg_frame]
@[simp] theorem State.queueMsg_amt (p : Nat) (m : Msg) : (s.queueMsg p m).amt = s.amt := by
  rw [State.queueMsg_frame]
@[simp] theorem State.queueMsg_clusters (p : Nat) (m : Msg) : (s.queueMsg p m).clusters = s.clusters := by
  rw [State.queueMsg_frame]
@[simp] theorem State.queueMsg_fabric (p : Nat) (m : Msg) : (s.queueMsg p m).fabric = s.fabric := by
  rw [State.queueMsg_frame]
@[simp] theorem State.queueMsg_vision (p : Nat) (m : Msg) : (s.queueMsg p m).vision = s.vision := by
  rw [State.queueMsg_frame]

/-- What `State.complete` touches. -/
theorem State.complete_frame (rq : Req) (t st a : Nat) (b : List Byte) (k : Option Nat) :
    s.complete rq t st a b k = { s with link := (s.complete rq t st a b k).link, wire := (s.complete rq t st a b k).wire } := by
  unfold State.complete
  exact State.queueMsg_frame ..

@[simp] theorem State.complete_pending (rq : Req) (t st a : Nat) (b : List Byte) (k : Option Nat) : (s.complete rq t st a b k).pending = s.pending := by
  rw [State.complete_frame]
@[simp] theorem State.complete_draws (rq : Req) (t st a : Nat) (b : List Byte) (k : Option Nat) : (s.complete rq t st a b k).draws = s.draws := by
  rw [State.complete_frame]
@[simp] theorem State.complete_time (rq : Req) (t st a : Nat) (b : List Byte) (k : Option Nat) : (s.complete rq t st a b k).time = s.time := by
  rw [State.complete_frame]
@[simp] theorem State.complete_power (rq : Req) (t st a : Nat) (b : List Byte) (k : Option Nat) : (s.complete rq t st a b k).power = s.power := by
  rw [State.complete_frame]
@[simp] theorem State.complete_sensors (rq : Req) (t st a : Nat) (b : List Byte) (k : Option Nat) : (s.complete rq t st a b k).sensors = s.sensors := by
  rw [State.complete_frame]
@[simp] theorem State.complete_clock (rq : Req) (t st a : Nat) (b : List Byte) (k : Option Nat) : (s.complete rq t st a b k).clock = s.clock := by
  rw [State.complete_frame]
@[simp] theorem State.complete_regs (rq : Req) (t st a : Nat) (b : List Byte) (k : Option Nat) : (s.complete rq t st a b k).regs = s.regs := by
  rw [State.complete_frame]
@[simp] theorem State.complete_shadow (rq : Req) (t st a : Nat) (b : List Byte) (k : Option Nat) : (s.complete rq t st a b k).shadow = s.shadow := by
  rw [State.complete_frame]
@[simp] theorem State.complete_events (rq : Req) (t st a : Nat) (b : List Byte) (k : Option Nat) : (s.complete rq t st a b k).events = s.events := by
  rw [State.complete_frame]
@[simp] theorem State.complete_commits (rq : Req) (t st a : Nat) (b : List Byte) (k : Option Nat) : (s.complete rq t st a b k).commits = s.commits := by
  rw [State.complete_frame]
@[simp] theorem State.complete_resets (rq : Req) (t st a : Nat) (b : List Byte) (k : Option Nat) : (s.complete rq t st a b k).resets = s.resets := by
  rw [State.complete_frame]
@[simp] theorem State.complete_retention (rq : Req) (t st a : Nat) (b : List Byte) (k : Option Nat) : (s.complete rq t st a b k).retention = s.retention := by
  rw [State.complete_frame]
@[simp] theorem State.complete_mgc (rq : Req) (t st a : Nat) (b : List Byte) (k : Option Nat) : (s.complete rq t st a b k).mgc = s.mgc := by
  rw [State.complete_frame]
@[simp] theorem State.complete_plinth (rq : Req) (t st a : Nat) (b : List Byte) (k : Option Nat) : (s.complete rq t st a b k).plinth = s.plinth := by
  rw [State.complete_frame]
@[simp] theorem State.complete_rasp (rq : Req) (t st a : Nat) (b : List Byte) (k : Option Nat) : (s.complete rq t st a b k).rasp = s.rasp := by
  rw [State.complete_frame]
@[simp] theorem State.complete_amt (rq : Req) (t st a : Nat) (b : List Byte) (k : Option Nat) : (s.complete rq t st a b k).amt = s.amt := by
  rw [State.complete_frame]
@[simp] theorem State.complete_clusters (rq : Req) (t st a : Nat) (b : List Byte) (k : Option Nat) : (s.complete rq t st a b k).clusters = s.clusters := by
  rw [State.complete_frame]
@[simp] theorem State.complete_fabric (rq : Req) (t st a : Nat) (b : List Byte) (k : Option Nat) : (s.complete rq t st a b k).fabric = s.fabric := by
  rw [State.complete_frame]
@[simp] theorem State.complete_vision (rq : Req) (t st a : Nat) (b : List Byte) (k : Option Nat) : (s.complete rq t st a b k).vision = s.vision := by
  rw [State.complete_frame]

/-- What `State.completeAudited` touches. -/
theorem State.completeAudited_frame (rq : Req) (t st k : Nat) (d : List Byte) (a : Nat) (b : List Byte) :
    s.completeAudited rq t st k d a b = { s with link := (s.completeAudited rq t st k d a b).link, wire := (s.completeAudited rq t st k d a b).wire, mgc := (s.completeAudited rq t st k d a b).mgc } := by
  unfold State.completeAudited
  dsimp only
  rw [State.complete_frame]
  rfl

@[simp] theorem State.completeAudited_pending (rq : Req) (t st k : Nat) (d : List Byte) (a : Nat) (b : List Byte) : (s.completeAudited rq t st k d a b).pending = s.pending := by
  rw [State.completeAudited_frame]
@[simp] theorem State.completeAudited_draws (rq : Req) (t st k : Nat) (d : List Byte) (a : Nat) (b : List Byte) : (s.completeAudited rq t st k d a b).draws = s.draws := by
  rw [State.completeAudited_frame]
@[simp] theorem State.completeAudited_time (rq : Req) (t st k : Nat) (d : List Byte) (a : Nat) (b : List Byte) : (s.completeAudited rq t st k d a b).time = s.time := by
  rw [State.completeAudited_frame]
@[simp] theorem State.completeAudited_power (rq : Req) (t st k : Nat) (d : List Byte) (a : Nat) (b : List Byte) : (s.completeAudited rq t st k d a b).power = s.power := by
  rw [State.completeAudited_frame]
@[simp] theorem State.completeAudited_sensors (rq : Req) (t st k : Nat) (d : List Byte) (a : Nat) (b : List Byte) : (s.completeAudited rq t st k d a b).sensors = s.sensors := by
  rw [State.completeAudited_frame]
@[simp] theorem State.completeAudited_clock (rq : Req) (t st k : Nat) (d : List Byte) (a : Nat) (b : List Byte) : (s.completeAudited rq t st k d a b).clock = s.clock := by
  rw [State.completeAudited_frame]
@[simp] theorem State.completeAudited_regs (rq : Req) (t st k : Nat) (d : List Byte) (a : Nat) (b : List Byte) : (s.completeAudited rq t st k d a b).regs = s.regs := by
  rw [State.completeAudited_frame]
@[simp] theorem State.completeAudited_shadow (rq : Req) (t st k : Nat) (d : List Byte) (a : Nat) (b : List Byte) : (s.completeAudited rq t st k d a b).shadow = s.shadow := by
  rw [State.completeAudited_frame]
@[simp] theorem State.completeAudited_events (rq : Req) (t st k : Nat) (d : List Byte) (a : Nat) (b : List Byte) : (s.completeAudited rq t st k d a b).events = s.events := by
  rw [State.completeAudited_frame]
@[simp] theorem State.completeAudited_commits (rq : Req) (t st k : Nat) (d : List Byte) (a : Nat) (b : List Byte) : (s.completeAudited rq t st k d a b).commits = s.commits := by
  rw [State.completeAudited_frame]
@[simp] theorem State.completeAudited_resets (rq : Req) (t st k : Nat) (d : List Byte) (a : Nat) (b : List Byte) : (s.completeAudited rq t st k d a b).resets = s.resets := by
  rw [State.completeAudited_frame]
@[simp] theorem State.completeAudited_retention (rq : Req) (t st k : Nat) (d : List Byte) (a : Nat) (b : List Byte) : (s.completeAudited rq t st k d a b).retention = s.retention := by
  rw [State.completeAudited_frame]
@[simp] theorem State.completeAudited_plinth (rq : Req) (t st k : Nat) (d : List Byte) (a : Nat) (b : List Byte) : (s.completeAudited rq t st k d a b).plinth = s.plinth := by
  rw [State.completeAudited_frame]
@[simp] theorem State.completeAudited_rasp (rq : Req) (t st k : Nat) (d : List Byte) (a : Nat) (b : List Byte) : (s.completeAudited rq t st k d a b).rasp = s.rasp := by
  rw [State.completeAudited_frame]
@[simp] theorem State.completeAudited_amt (rq : Req) (t st k : Nat) (d : List Byte) (a : Nat) (b : List Byte) : (s.completeAudited rq t st k d a b).amt = s.amt := by
  rw [State.completeAudited_frame]
@[simp] theorem State.completeAudited_clusters (rq : Req) (t st k : Nat) (d : List Byte) (a : Nat) (b : List Byte) : (s.completeAudited rq t st k d a b).clusters = s.clusters := by
  rw [State.completeAudited_frame]
@[simp] theorem State.completeAudited_fabric (rq : Req) (t st k : Nat) (d : List Byte) (a : Nat) (b : List Byte) : (s.completeAudited rq t st k d a b).fabric = s.fabric := by
  rw [State.completeAudited_frame]
@[simp] theorem State.completeAudited_vision (rq : Req) (t st k : Nat) (d : List Byte) (a : Nat) (b : List Byte) : (s.completeAudited rq t st k d a b).vision = s.vision := by
  rw [State.completeAudited_frame]

/-- What `State.queueEvent` touches. -/
theorem State.queueEvent_frame (p t : Nat) (b : List Byte) :
    s.queueEvent p t b = { s with regs := (s.queueEvent p t b).regs, link := (s.queueEvent p t b).link, wire := (s.queueEvent p t b).wire } := by
  unfold State.queueEvent
  dsimp only
  split
  · rfl
  · rw [State.pump_frame]
    rfl

@[simp] theorem State.queueEvent_pending (p t : Nat) (b : List Byte) : (s.queueEvent p t b).pending = s.pending := by
  rw [State.queueEvent_frame]
@[simp] theorem State.queueEvent_draws (p t : Nat) (b : List Byte) : (s.queueEvent p t b).draws = s.draws := by
  rw [State.queueEvent_frame]
@[simp] theorem State.queueEvent_time (p t : Nat) (b : List Byte) : (s.queueEvent p t b).time = s.time := by
  rw [State.queueEvent_frame]
@[simp] theorem State.queueEvent_power (p t : Nat) (b : List Byte) : (s.queueEvent p t b).power = s.power := by
  rw [State.queueEvent_frame]
@[simp] theorem State.queueEvent_sensors (p t : Nat) (b : List Byte) : (s.queueEvent p t b).sensors = s.sensors := by
  rw [State.queueEvent_frame]
@[simp] theorem State.queueEvent_clock (p t : Nat) (b : List Byte) : (s.queueEvent p t b).clock = s.clock := by
  rw [State.queueEvent_frame]
@[simp] theorem State.queueEvent_shadow (p t : Nat) (b : List Byte) : (s.queueEvent p t b).shadow = s.shadow := by
  rw [State.queueEvent_frame]
@[simp] theorem State.queueEvent_events (p t : Nat) (b : List Byte) : (s.queueEvent p t b).events = s.events := by
  rw [State.queueEvent_frame]
@[simp] theorem State.queueEvent_commits (p t : Nat) (b : List Byte) : (s.queueEvent p t b).commits = s.commits := by
  rw [State.queueEvent_frame]
@[simp] theorem State.queueEvent_resets (p t : Nat) (b : List Byte) : (s.queueEvent p t b).resets = s.resets := by
  rw [State.queueEvent_frame]
@[simp] theorem State.queueEvent_retention (p t : Nat) (b : List Byte) : (s.queueEvent p t b).retention = s.retention := by
  rw [State.queueEvent_frame]
@[simp] theorem State.queueEvent_mgc (p t : Nat) (b : List Byte) : (s.queueEvent p t b).mgc = s.mgc := by
  rw [State.queueEvent_frame]
@[simp] theorem State.queueEvent_plinth (p t : Nat) (b : List Byte) : (s.queueEvent p t b).plinth = s.plinth := by
  rw [State.queueEvent_frame]
@[simp] theorem State.queueEvent_rasp (p t : Nat) (b : List Byte) : (s.queueEvent p t b).rasp = s.rasp := by
  rw [State.queueEvent_frame]
@[simp] theorem State.queueEvent_amt (p t : Nat) (b : List Byte) : (s.queueEvent p t b).amt = s.amt := by
  rw [State.queueEvent_frame]
@[simp] theorem State.queueEvent_clusters (p t : Nat) (b : List Byte) : (s.queueEvent p t b).clusters = s.clusters := by
  rw [State.queueEvent_frame]
@[simp] theorem State.queueEvent_fabric (p t : Nat) (b : List Byte) : (s.queueEvent p t b).fabric = s.fabric := by
  rw [State.queueEvent_frame]
@[simp] theorem State.queueEvent_vision (p t : Nat) (b : List Byte) : (s.queueEvent p t b).vision = s.vision := by
  rw [State.queueEvent_frame]

/-- What `State.broadcast` touches. -/
theorem State.broadcast_frame (t : Nat) (b : List Byte) :
    s.broadcast t b = { s with regs := (s.broadcast t b).regs, link := (s.broadcast t b).link, wire := (s.broadcast t b).wire } := by
  unfold State.broadcast
  simp only [List.foldl_cons, List.foldl_nil]
  repeat' split
  all_goals first
    | rfl
    | (rw [State.queueEvent_frame]; done)
    | (rw [State.queueEvent_frame, State.queueEvent_frame s])

@[simp] theorem State.broadcast_pending (t : Nat) (b : List Byte) : (s.broadcast t b).pending = s.pending := by
  rw [State.broadcast_frame]
@[simp] theorem State.broadcast_draws (t : Nat) (b : List Byte) : (s.broadcast t b).draws = s.draws := by
  rw [State.broadcast_frame]
@[simp] theorem State.broadcast_time (t : Nat) (b : List Byte) : (s.broadcast t b).time = s.time := by
  rw [State.broadcast_frame]
@[simp] theorem State.broadcast_power (t : Nat) (b : List Byte) : (s.broadcast t b).power = s.power := by
  rw [State.broadcast_frame]
@[simp] theorem State.broadcast_sensors (t : Nat) (b : List Byte) : (s.broadcast t b).sensors = s.sensors := by
  rw [State.broadcast_frame]
@[simp] theorem State.broadcast_clock (t : Nat) (b : List Byte) : (s.broadcast t b).clock = s.clock := by
  rw [State.broadcast_frame]
@[simp] theorem State.broadcast_shadow (t : Nat) (b : List Byte) : (s.broadcast t b).shadow = s.shadow := by
  rw [State.broadcast_frame]
@[simp] theorem State.broadcast_events (t : Nat) (b : List Byte) : (s.broadcast t b).events = s.events := by
  rw [State.broadcast_frame]
@[simp] theorem State.broadcast_commits (t : Nat) (b : List Byte) : (s.broadcast t b).commits = s.commits := by
  rw [State.broadcast_frame]
@[simp] theorem State.broadcast_resets (t : Nat) (b : List Byte) : (s.broadcast t b).resets = s.resets := by
  rw [State.broadcast_frame]
@[simp] theorem State.broadcast_retention (t : Nat) (b : List Byte) : (s.broadcast t b).retention = s.retention := by
  rw [State.broadcast_frame]
@[simp] theorem State.broadcast_mgc (t : Nat) (b : List Byte) : (s.broadcast t b).mgc = s.mgc := by
  rw [State.broadcast_frame]
@[simp] theorem State.broadcast_plinth (t : Nat) (b : List Byte) : (s.broadcast t b).plinth = s.plinth := by
  rw [State.broadcast_frame]
@[simp] theorem State.broadcast_rasp (t : Nat) (b : List Byte) : (s.broadcast t b).rasp = s.rasp := by
  rw [State.broadcast_frame]
@[simp] theorem State.broadcast_amt (t : Nat) (b : List Byte) : (s.broadcast t b).amt = s.amt := by
  rw [State.broadcast_frame]
@[simp] theorem State.broadcast_clusters (t : Nat) (b : List Byte) : (s.broadcast t b).clusters = s.clusters := by
  rw [State.broadcast_frame]
@[simp] theorem State.broadcast_fabric (t : Nat) (b : List Byte) : (s.broadcast t b).fabric = s.fabric := by
  rw [State.broadcast_frame]
@[simp] theorem State.broadcast_vision (t : Nat) (b : List Byte) : (s.broadcast t b).vision = s.vision := by
  rw [State.broadcast_frame]

/-- What `State.details` touches. -/
theorem State.details_frame (d : List Nat) :
    (s.details d).2 = { s with draws := ((s.details d).2).draws } := by
  unfold State.details
  dsimp only
  split <;> rfl

@[simp] theorem State.details_pending (d : List Nat) : ((s.details d).2).pending = s.pending := by
  rw [State.details_frame]
@[simp] theorem State.details_time (d : List Nat) : ((s.details d).2).time = s.time := by
  rw [State.details_frame]
@[simp] theorem State.details_power (d : List Nat) : ((s.details d).2).power = s.power := by
  rw [State.details_frame]
@[simp] theorem State.details_sensors (d : List Nat) : ((s.details d).2).sensors = s.sensors := by
  rw [State.details_frame]
@[simp] theorem State.details_clock (d : List Nat) : ((s.details d).2).clock = s.clock := by
  rw [State.details_frame]
@[simp] theorem State.details_regs (d : List Nat) : ((s.details d).2).regs = s.regs := by
  rw [State.details_frame]
@[simp] theorem State.details_shadow (d : List Nat) : ((s.details d).2).shadow = s.shadow := by
  rw [State.details_frame]
@[simp] theorem State.details_events (d : List Nat) : ((s.details d).2).events = s.events := by
  rw [State.details_frame]
@[simp] theorem State.details_commits (d : List Nat) : ((s.details d).2).commits = s.commits := by
  rw [State.details_frame]
@[simp] theorem State.details_resets (d : List Nat) : ((s.details d).2).resets = s.resets := by
  rw [State.details_frame]
@[simp] theorem State.details_retention (d : List Nat) : ((s.details d).2).retention = s.retention := by
  rw [State.details_frame]
@[simp] theorem State.details_link (d : List Nat) : ((s.details d).2).link = s.link := by
  rw [State.details_frame]
@[simp] theorem State.details_mgc (d : List Nat) : ((s.details d).2).mgc = s.mgc := by
  rw [State.details_frame]
@[simp] theorem State.details_plinth (d : List Nat) : ((s.details d).2).plinth = s.plinth := by
  rw [State.details_frame]
@[simp] theorem State.details_rasp (d : List Nat) : ((s.details d).2).rasp = s.rasp := by
  rw [State.details_frame]
@[simp] theorem State.details_amt (d : List Nat) : ((s.details d).2).amt = s.amt := by
  rw [State.details_frame]
@[simp] theorem State.details_clusters (d : List Nat) : ((s.details d).2).clusters = s.clusters := by
  rw [State.details_frame]
@[simp] theorem State.details_fabric (d : List Nat) : ((s.details d).2).fabric = s.fabric := by
  rw [State.details_frame]
@[simp] theorem State.details_vision (d : List Nat) : ((s.details d).2).vision = s.vision := by
  rw [State.details_frame]
@[simp] theorem State.details_wire (d : List Nat) : ((s.details d).2).wire = s.wire := by
  rw [State.details_frame]

/-- What `State.keepFault` touches. -/
theorem State.keepFault_frame (f : FaultRec) :
    s.keepFault f = { s with regs := (s.keepFault f).regs, retention := (s.keepFault f).retention } := by
  rfl

@[simp] theorem State.keepFault_pending (f : FaultRec) : (s.keepFault f).pending = s.pending := by
  rw [State.keepFault_frame]
@[simp] theorem State.keepFault_draws (f : FaultRec) : (s.keepFault f).draws = s.draws := by
  rw [State.keepFault_frame]
@[simp] theorem State.keepFault_time (f : FaultRec) : (s.keepFault f).time = s.time := by
  rw [State.keepFault_frame]
@[simp] theorem State.keepFault_power (f : FaultRec) : (s.keepFault f).power = s.power := by
  rw [State.keepFault_frame]
@[simp] theorem State.keepFault_sensors (f : FaultRec) : (s.keepFault f).sensors = s.sensors := by
  rw [State.keepFault_frame]
@[simp] theorem State.keepFault_clock (f : FaultRec) : (s.keepFault f).clock = s.clock := by
  rw [State.keepFault_frame]
@[simp] theorem State.keepFault_shadow (f : FaultRec) : (s.keepFault f).shadow = s.shadow := by
  rw [State.keepFault_frame]
@[simp] theorem State.keepFault_events (f : FaultRec) : (s.keepFault f).events = s.events := by
  rw [State.keepFault_frame]
@[simp] theorem State.keepFault_commits (f : FaultRec) : (s.keepFault f).commits = s.commits := by
  rw [State.keepFault_frame]
@[simp] theorem State.keepFault_resets (f : FaultRec) : (s.keepFault f).resets = s.resets := by
  rw [State.keepFault_frame]
@[simp] theorem State.keepFault_link (f : FaultRec) : (s.keepFault f).link = s.link := by
  rw [State.keepFault_frame]
@[simp] theorem State.keepFault_mgc (f : FaultRec) : (s.keepFault f).mgc = s.mgc := by
  rw [State.keepFault_frame]
@[simp] theorem State.keepFault_plinth (f : FaultRec) : (s.keepFault f).plinth = s.plinth := by
  rw [State.keepFault_frame]
@[simp] theorem State.keepFault_rasp (f : FaultRec) : (s.keepFault f).rasp = s.rasp := by
  rw [State.keepFault_frame]
@[simp] theorem State.keepFault_amt (f : FaultRec) : (s.keepFault f).amt = s.amt := by
  rw [State.keepFault_frame]
@[simp] theorem State.keepFault_clusters (f : FaultRec) : (s.keepFault f).clusters = s.clusters := by
  rw [State.keepFault_frame]
@[simp] theorem State.keepFault_fabric (f : FaultRec) : (s.keepFault f).fabric = s.fabric := by
  rw [State.keepFault_frame]
@[simp] theorem State.keepFault_vision (f : FaultRec) : (s.keepFault f).vision = s.vision := by
  rw [State.keepFault_frame]
@[simp] theorem State.keepFault_wire (f : FaultRec) : (s.keepFault f).wire = s.wire := by
  rw [State.keepFault_frame]

/-- What `State.headFault` touches. -/
theorem State.headFault_frame (p : Page) (c : Nat) :
    s.headFault p c = { s with regs := (s.headFault p c).regs } := by
  rfl

@[simp] theorem State.headFault_pending (p : Page) (c : Nat) : (s.headFault p c).pending = s.pending := by
  rw [State.headFault_frame]
@[simp] theorem State.headFault_draws (p : Page) (c : Nat) : (s.headFault p c).draws = s.draws := by
  rw [State.headFault_frame]
@[simp] theorem State.headFault_time (p : Page) (c : Nat) : (s.headFault p c).time = s.time := by
  rw [State.headFault_frame]
@[simp] theorem State.headFault_power (p : Page) (c : Nat) : (s.headFault p c).power = s.power := by
  rw [State.headFault_frame]
@[simp] theorem State.headFault_sensors (p : Page) (c : Nat) : (s.headFault p c).sensors = s.sensors := by
  rw [State.headFault_frame]
@[simp] theorem State.headFault_clock (p : Page) (c : Nat) : (s.headFault p c).clock = s.clock := by
  rw [State.headFault_frame]
@[simp] theorem State.headFault_shadow (p : Page) (c : Nat) : (s.headFault p c).shadow = s.shadow := by
  rw [State.headFault_frame]
@[simp] theorem State.headFault_events (p : Page) (c : Nat) : (s.headFault p c).events = s.events := by
  rw [State.headFault_frame]
@[simp] theorem State.headFault_commits (p : Page) (c : Nat) : (s.headFault p c).commits = s.commits := by
  rw [State.headFault_frame]
@[simp] theorem State.headFault_resets (p : Page) (c : Nat) : (s.headFault p c).resets = s.resets := by
  rw [State.headFault_frame]
@[simp] theorem State.headFault_retention (p : Page) (c : Nat) : (s.headFault p c).retention = s.retention := by
  rw [State.headFault_frame]
@[simp] theorem State.headFault_link (p : Page) (c : Nat) : (s.headFault p c).link = s.link := by
  rw [State.headFault_frame]
@[simp] theorem State.headFault_mgc (p : Page) (c : Nat) : (s.headFault p c).mgc = s.mgc := by
  rw [State.headFault_frame]
@[simp] theorem State.headFault_plinth (p : Page) (c : Nat) : (s.headFault p c).plinth = s.plinth := by
  rw [State.headFault_frame]
@[simp] theorem State.headFault_rasp (p : Page) (c : Nat) : (s.headFault p c).rasp = s.rasp := by
  rw [State.headFault_frame]
@[simp] theorem State.headFault_amt (p : Page) (c : Nat) : (s.headFault p c).amt = s.amt := by
  rw [State.headFault_frame]
@[simp] theorem State.headFault_clusters (p : Page) (c : Nat) : (s.headFault p c).clusters = s.clusters := by
  rw [State.headFault_frame]
@[simp] theorem State.headFault_fabric (p : Page) (c : Nat) : (s.headFault p c).fabric = s.fabric := by
  rw [State.headFault_frame]
@[simp] theorem State.headFault_vision (p : Page) (c : Nat) : (s.headFault p c).vision = s.vision := by
  rw [State.headFault_frame]
@[simp] theorem State.headFault_wire (p : Page) (c : Nat) : (s.headFault p c).wire = s.wire := by
  rw [State.headFault_frame]

/-- What `State.slFault` touches. -/
theorem State.slFault_frame (f : FaultRec) :
    s.slFault f = { s with regs := (s.slFault f).regs, plinth := (s.slFault f).plinth } := by
  unfold State.slFault
  split <;> rfl

@[simp] theorem State.slFault_pending (f : FaultRec) : (s.slFault f).pending = s.pending := by
  rw [State.slFault_frame]
@[simp] theorem State.slFault_draws (f : FaultRec) : (s.slFault f).draws = s.draws := by
  rw [State.slFault_frame]
@[simp] theorem State.slFault_time (f : FaultRec) : (s.slFault f).time = s.time := by
  rw [State.slFault_frame]
@[simp] theorem State.slFault_power (f : FaultRec) : (s.slFault f).power = s.power := by
  rw [State.slFault_frame]
@[simp] theorem State.slFault_sensors (f : FaultRec) : (s.slFault f).sensors = s.sensors := by
  rw [State.slFault_frame]
@[simp] theorem State.slFault_clock (f : FaultRec) : (s.slFault f).clock = s.clock := by
  rw [State.slFault_frame]
@[simp] theorem State.slFault_shadow (f : FaultRec) : (s.slFault f).shadow = s.shadow := by
  rw [State.slFault_frame]
@[simp] theorem State.slFault_events (f : FaultRec) : (s.slFault f).events = s.events := by
  rw [State.slFault_frame]
@[simp] theorem State.slFault_commits (f : FaultRec) : (s.slFault f).commits = s.commits := by
  rw [State.slFault_frame]
@[simp] theorem State.slFault_resets (f : FaultRec) : (s.slFault f).resets = s.resets := by
  rw [State.slFault_frame]
@[simp] theorem State.slFault_retention (f : FaultRec) : (s.slFault f).retention = s.retention := by
  rw [State.slFault_frame]
@[simp] theorem State.slFault_link (f : FaultRec) : (s.slFault f).link = s.link := by
  rw [State.slFault_frame]
@[simp] theorem State.slFault_mgc (f : FaultRec) : (s.slFault f).mgc = s.mgc := by
  rw [State.slFault_frame]
@[simp] theorem State.slFault_rasp (f : FaultRec) : (s.slFault f).rasp = s.rasp := by
  rw [State.slFault_frame]
@[simp] theorem State.slFault_amt (f : FaultRec) : (s.slFault f).amt = s.amt := by
  rw [State.slFault_frame]
@[simp] theorem State.slFault_clusters (f : FaultRec) : (s.slFault f).clusters = s.clusters := by
  rw [State.slFault_frame]
@[simp] theorem State.slFault_fabric (f : FaultRec) : (s.slFault f).fabric = s.fabric := by
  rw [State.slFault_frame]
@[simp] theorem State.slFault_vision (f : FaultRec) : (s.slFault f).vision = s.vision := by
  rw [State.slFault_frame]
@[simp] theorem State.slFault_wire (f : FaultRec) : (s.slFault f).wire = s.wire := by
  rw [State.slFault_frame]

/-- What `State.faultRec` touches. -/
theorem State.faultRec_frame (p : Page) (c m : Nat) (d : List Nat) (sl : Bool) :
    s.faultRec p c m d sl = { s with draws := (s.faultRec p c m d sl).draws, regs := (s.faultRec p c m d sl).regs, retention := (s.faultRec p c m d sl).retention, link := (s.faultRec p c m d sl).link, plinth := (s.faultRec p c m d sl).plinth, wire := (s.faultRec p c m d sl).wire } := by
  unfold State.faultRec
  extract_lets w f s1
  have h1 : s1 = { s with draws := s1.draws, regs := s1.regs, retention := s1.retention, link := s1.link, wire := s1.wire } := by
    subst s1 w
    rw [State.broadcast_frame, State.headFault_frame, State.keepFault_frame, State.details_frame]
  clear_value s1
  split
  · rw [State.slFault_frame, h1]
  · rw [h1]

@[simp] theorem State.faultRec_pending (p : Page) (c m : Nat) (d : List Nat) (sl : Bool) : (s.faultRec p c m d sl).pending = s.pending := by
  rw [State.faultRec_frame]
@[simp] theorem State.faultRec_time (p : Page) (c m : Nat) (d : List Nat) (sl : Bool) : (s.faultRec p c m d sl).time = s.time := by
  rw [State.faultRec_frame]
@[simp] theorem State.faultRec_power (p : Page) (c m : Nat) (d : List Nat) (sl : Bool) : (s.faultRec p c m d sl).power = s.power := by
  rw [State.faultRec_frame]
@[simp] theorem State.faultRec_sensors (p : Page) (c m : Nat) (d : List Nat) (sl : Bool) : (s.faultRec p c m d sl).sensors = s.sensors := by
  rw [State.faultRec_frame]
@[simp] theorem State.faultRec_clock (p : Page) (c m : Nat) (d : List Nat) (sl : Bool) : (s.faultRec p c m d sl).clock = s.clock := by
  rw [State.faultRec_frame]
@[simp] theorem State.faultRec_shadow (p : Page) (c m : Nat) (d : List Nat) (sl : Bool) : (s.faultRec p c m d sl).shadow = s.shadow := by
  rw [State.faultRec_frame]
@[simp] theorem State.faultRec_events (p : Page) (c m : Nat) (d : List Nat) (sl : Bool) : (s.faultRec p c m d sl).events = s.events := by
  rw [State.faultRec_frame]
@[simp] theorem State.faultRec_commits (p : Page) (c m : Nat) (d : List Nat) (sl : Bool) : (s.faultRec p c m d sl).commits = s.commits := by
  rw [State.faultRec_frame]
@[simp] theorem State.faultRec_resets (p : Page) (c m : Nat) (d : List Nat) (sl : Bool) : (s.faultRec p c m d sl).resets = s.resets := by
  rw [State.faultRec_frame]
@[simp] theorem State.faultRec_mgc (p : Page) (c m : Nat) (d : List Nat) (sl : Bool) : (s.faultRec p c m d sl).mgc = s.mgc := by
  rw [State.faultRec_frame]
@[simp] theorem State.faultRec_rasp (p : Page) (c m : Nat) (d : List Nat) (sl : Bool) : (s.faultRec p c m d sl).rasp = s.rasp := by
  rw [State.faultRec_frame]
@[simp] theorem State.faultRec_amt (p : Page) (c m : Nat) (d : List Nat) (sl : Bool) : (s.faultRec p c m d sl).amt = s.amt := by
  rw [State.faultRec_frame]
@[simp] theorem State.faultRec_clusters (p : Page) (c m : Nat) (d : List Nat) (sl : Bool) : (s.faultRec p c m d sl).clusters = s.clusters := by
  rw [State.faultRec_frame]
@[simp] theorem State.faultRec_fabric (p : Page) (c m : Nat) (d : List Nat) (sl : Bool) : (s.faultRec p c m d sl).fabric = s.fabric := by
  rw [State.faultRec_frame]
@[simp] theorem State.faultRec_vision (p : Page) (c m : Nat) (d : List Nat) (sl : Bool) : (s.faultRec p c m d sl).vision = s.vision := by
  rw [State.faultRec_frame]

/-- What `State.fault` touches. -/
theorem State.fault_frame (p : Page) (c : Nat) (d : List Nat) (sl : Bool) :
    s.fault p c d sl = { s with draws := (s.fault p c d sl).draws, regs := (s.fault p c d sl).regs, retention := (s.fault p c d sl).retention, link := (s.fault p c d sl).link, plinth := (s.fault p c d sl).plinth, wire := (s.fault p c d sl).wire } := by
  exact State.faultRec_frame ..

@[simp] theorem State.fault_pending (p : Page) (c : Nat) (d : List Nat) (sl : Bool) : (s.fault p c d sl).pending = s.pending := by
  rw [State.fault_frame]
@[simp] theorem State.fault_time (p : Page) (c : Nat) (d : List Nat) (sl : Bool) : (s.fault p c d sl).time = s.time := by
  rw [State.fault_frame]
@[simp] theorem State.fault_power (p : Page) (c : Nat) (d : List Nat) (sl : Bool) : (s.fault p c d sl).power = s.power := by
  rw [State.fault_frame]
@[simp] theorem State.fault_sensors (p : Page) (c : Nat) (d : List Nat) (sl : Bool) : (s.fault p c d sl).sensors = s.sensors := by
  rw [State.fault_frame]
@[simp] theorem State.fault_clock (p : Page) (c : Nat) (d : List Nat) (sl : Bool) : (s.fault p c d sl).clock = s.clock := by
  rw [State.fault_frame]
@[simp] theorem State.fault_shadow (p : Page) (c : Nat) (d : List Nat) (sl : Bool) : (s.fault p c d sl).shadow = s.shadow := by
  rw [State.fault_frame]
@[simp] theorem State.fault_events (p : Page) (c : Nat) (d : List Nat) (sl : Bool) : (s.fault p c d sl).events = s.events := by
  rw [State.fault_frame]
@[simp] theorem State.fault_commits (p : Page) (c : Nat) (d : List Nat) (sl : Bool) : (s.fault p c d sl).commits = s.commits := by
  rw [State.fault_frame]
@[simp] theorem State.fault_resets (p : Page) (c : Nat) (d : List Nat) (sl : Bool) : (s.fault p c d sl).resets = s.resets := by
  rw [State.fault_frame]
@[simp] theorem State.fault_mgc (p : Page) (c : Nat) (d : List Nat) (sl : Bool) : (s.fault p c d sl).mgc = s.mgc := by
  rw [State.fault_frame]
@[simp] theorem State.fault_rasp (p : Page) (c : Nat) (d : List Nat) (sl : Bool) : (s.fault p c d sl).rasp = s.rasp := by
  rw [State.fault_frame]
@[simp] theorem State.fault_amt (p : Page) (c : Nat) (d : List Nat) (sl : Bool) : (s.fault p c d sl).amt = s.amt := by
  rw [State.fault_frame]
@[simp] theorem State.fault_clusters (p : Page) (c : Nat) (d : List Nat) (sl : Bool) : (s.fault p c d sl).clusters = s.clusters := by
  rw [State.fault_frame]
@[simp] theorem State.fault_fabric (p : Page) (c : Nat) (d : List Nat) (sl : Bool) : (s.fault p c d sl).fabric = s.fabric := by
  rw [State.fault_frame]
@[simp] theorem State.fault_vision (p : Page) (c : Nat) (d : List Nat) (sl : Bool) : (s.fault p c d sl).vision = s.vision := by
  rw [State.fault_frame]

/-- What `State.unitFault` touches. -/
theorem State.unitFault_frame (p : Page) (c u : Nat) (d : List Nat) (sl : Bool) :
    s.unitFault p c u d sl = { s with draws := (s.unitFault p c u d sl).draws, regs := (s.unitFault p c u d sl).regs, retention := (s.unitFault p c u d sl).retention, link := (s.unitFault p c u d sl).link, plinth := (s.unitFault p c u d sl).plinth, wire := (s.unitFault p c u d sl).wire } := by
  exact State.faultRec_frame ..

@[simp] theorem State.unitFault_pending (p : Page) (c u : Nat) (d : List Nat) (sl : Bool) : (s.unitFault p c u d sl).pending = s.pending := by
  rw [State.unitFault_frame]
@[simp] theorem State.unitFault_time (p : Page) (c u : Nat) (d : List Nat) (sl : Bool) : (s.unitFault p c u d sl).time = s.time := by
  rw [State.unitFault_frame]
@[simp] theorem State.unitFault_power (p : Page) (c u : Nat) (d : List Nat) (sl : Bool) : (s.unitFault p c u d sl).power = s.power := by
  rw [State.unitFault_frame]
@[simp] theorem State.unitFault_sensors (p : Page) (c u : Nat) (d : List Nat) (sl : Bool) : (s.unitFault p c u d sl).sensors = s.sensors := by
  rw [State.unitFault_frame]
@[simp] theorem State.unitFault_clock (p : Page) (c u : Nat) (d : List Nat) (sl : Bool) : (s.unitFault p c u d sl).clock = s.clock := by
  rw [State.unitFault_frame]
@[simp] theorem State.unitFault_shadow (p : Page) (c u : Nat) (d : List Nat) (sl : Bool) : (s.unitFault p c u d sl).shadow = s.shadow := by
  rw [State.unitFault_frame]
@[simp] theorem State.unitFault_events (p : Page) (c u : Nat) (d : List Nat) (sl : Bool) : (s.unitFault p c u d sl).events = s.events := by
  rw [State.unitFault_frame]
@[simp] theorem State.unitFault_commits (p : Page) (c u : Nat) (d : List Nat) (sl : Bool) : (s.unitFault p c u d sl).commits = s.commits := by
  rw [State.unitFault_frame]
@[simp] theorem State.unitFault_resets (p : Page) (c u : Nat) (d : List Nat) (sl : Bool) : (s.unitFault p c u d sl).resets = s.resets := by
  rw [State.unitFault_frame]
@[simp] theorem State.unitFault_mgc (p : Page) (c u : Nat) (d : List Nat) (sl : Bool) : (s.unitFault p c u d sl).mgc = s.mgc := by
  rw [State.unitFault_frame]
@[simp] theorem State.unitFault_rasp (p : Page) (c u : Nat) (d : List Nat) (sl : Bool) : (s.unitFault p c u d sl).rasp = s.rasp := by
  rw [State.unitFault_frame]
@[simp] theorem State.unitFault_amt (p : Page) (c u : Nat) (d : List Nat) (sl : Bool) : (s.unitFault p c u d sl).amt = s.amt := by
  rw [State.unitFault_frame]
@[simp] theorem State.unitFault_clusters (p : Page) (c u : Nat) (d : List Nat) (sl : Bool) : (s.unitFault p c u d sl).clusters = s.clusters := by
  rw [State.unitFault_frame]
@[simp] theorem State.unitFault_fabric (p : Page) (c u : Nat) (d : List Nat) (sl : Bool) : (s.unitFault p c u d sl).fabric = s.fabric := by
  rw [State.unitFault_frame]
@[simp] theorem State.unitFault_vision (p : Page) (c u : Nat) (d : List Nat) (sl : Bool) : (s.unitFault p c u d sl).vision = s.vision := by
  rw [State.unitFault_frame]

/-- What `State.raise` touches. -/
theorem State.raise_frame (p : Page) (b : Nat) :
    s.raise p b = { s with regs := (s.raise p b).regs, events := (s.raise p b).events } := by
  unfold State.raise
  dsimp only
  repeat' split
  all_goals rfl

@[simp] theorem State.raise_pending (p : Page) (b : Nat) : (s.raise p b).pending = s.pending := by
  rw [State.raise_frame]
@[simp] theorem State.raise_draws (p : Page) (b : Nat) : (s.raise p b).draws = s.draws := by
  rw [State.raise_frame]
@[simp] theorem State.raise_time (p : Page) (b : Nat) : (s.raise p b).time = s.time := by
  rw [State.raise_frame]
@[simp] theorem State.raise_power (p : Page) (b : Nat) : (s.raise p b).power = s.power := by
  rw [State.raise_frame]
@[simp] theorem State.raise_sensors (p : Page) (b : Nat) : (s.raise p b).sensors = s.sensors := by
  rw [State.raise_frame]
@[simp] theorem State.raise_clock (p : Page) (b : Nat) : (s.raise p b).clock = s.clock := by
  rw [State.raise_frame]
@[simp] theorem State.raise_shadow (p : Page) (b : Nat) : (s.raise p b).shadow = s.shadow := by
  rw [State.raise_frame]
@[simp] theorem State.raise_commits (p : Page) (b : Nat) : (s.raise p b).commits = s.commits := by
  rw [State.raise_frame]
@[simp] theorem State.raise_resets (p : Page) (b : Nat) : (s.raise p b).resets = s.resets := by
  rw [State.raise_frame]
@[simp] theorem State.raise_retention (p : Page) (b : Nat) : (s.raise p b).retention = s.retention := by
  rw [State.raise_frame]
@[simp] theorem State.raise_link (p : Page) (b : Nat) : (s.raise p b).link = s.link := by
  rw [State.raise_frame]
@[simp] theorem State.raise_mgc (p : Page) (b : Nat) : (s.raise p b).mgc = s.mgc := by
  rw [State.raise_frame]
@[simp] theorem State.raise_plinth (p : Page) (b : Nat) : (s.raise p b).plinth = s.plinth := by
  rw [State.raise_frame]
@[simp] theorem State.raise_rasp (p : Page) (b : Nat) : (s.raise p b).rasp = s.rasp := by
  rw [State.raise_frame]
@[simp] theorem State.raise_amt (p : Page) (b : Nat) : (s.raise p b).amt = s.amt := by
  rw [State.raise_frame]
@[simp] theorem State.raise_clusters (p : Page) (b : Nat) : (s.raise p b).clusters = s.clusters := by
  rw [State.raise_frame]
@[simp] theorem State.raise_fabric (p : Page) (b : Nat) : (s.raise p b).fabric = s.fabric := by
  rw [State.raise_frame]
@[simp] theorem State.raise_vision (p : Page) (b : Nat) : (s.raise p b).vision = s.vision := by
  rw [State.raise_frame]
@[simp] theorem State.raise_wire (p : Page) (b : Nat) : (s.raise p b).wire = s.wire := by
  rw [State.raise_frame]

/-- What `State.plinthAudit` touches. -/
theorem State.plinthAudit_frame (k a p r : Nat) (d : List Byte) :
    s.plinthAudit k a p r d = { s with plinth := (s.plinthAudit k a p r d).plinth } := by
  unfold State.plinthAudit
  dsimp only
  split <;> rfl

@[simp] theorem State.plinthAudit_pending (k a p r : Nat) (d : List Byte) : (s.plinthAudit k a p r d).pending = s.pending := by
  rw [State.plinthAudit_frame]
@[simp] theorem State.plinthAudit_draws (k a p r : Nat) (d : List Byte) : (s.plinthAudit k a p r d).draws = s.draws := by
  rw [State.plinthAudit_frame]
@[simp] theorem State.plinthAudit_time (k a p r : Nat) (d : List Byte) : (s.plinthAudit k a p r d).time = s.time := by
  rw [State.plinthAudit_frame]
@[simp] theorem State.plinthAudit_power (k a p r : Nat) (d : List Byte) : (s.plinthAudit k a p r d).power = s.power := by
  rw [State.plinthAudit_frame]
@[simp] theorem State.plinthAudit_sensors (k a p r : Nat) (d : List Byte) : (s.plinthAudit k a p r d).sensors = s.sensors := by
  rw [State.plinthAudit_frame]
@[simp] theorem State.plinthAudit_clock (k a p r : Nat) (d : List Byte) : (s.plinthAudit k a p r d).clock = s.clock := by
  rw [State.plinthAudit_frame]
@[simp] theorem State.plinthAudit_regs (k a p r : Nat) (d : List Byte) : (s.plinthAudit k a p r d).regs = s.regs := by
  rw [State.plinthAudit_frame]
@[simp] theorem State.plinthAudit_shadow (k a p r : Nat) (d : List Byte) : (s.plinthAudit k a p r d).shadow = s.shadow := by
  rw [State.plinthAudit_frame]
@[simp] theorem State.plinthAudit_events (k a p r : Nat) (d : List Byte) : (s.plinthAudit k a p r d).events = s.events := by
  rw [State.plinthAudit_frame]
@[simp] theorem State.plinthAudit_commits (k a p r : Nat) (d : List Byte) : (s.plinthAudit k a p r d).commits = s.commits := by
  rw [State.plinthAudit_frame]
@[simp] theorem State.plinthAudit_resets (k a p r : Nat) (d : List Byte) : (s.plinthAudit k a p r d).resets = s.resets := by
  rw [State.plinthAudit_frame]
@[simp] theorem State.plinthAudit_retention (k a p r : Nat) (d : List Byte) : (s.plinthAudit k a p r d).retention = s.retention := by
  rw [State.plinthAudit_frame]
@[simp] theorem State.plinthAudit_link (k a p r : Nat) (d : List Byte) : (s.plinthAudit k a p r d).link = s.link := by
  rw [State.plinthAudit_frame]
@[simp] theorem State.plinthAudit_mgc (k a p r : Nat) (d : List Byte) : (s.plinthAudit k a p r d).mgc = s.mgc := by
  rw [State.plinthAudit_frame]
@[simp] theorem State.plinthAudit_rasp (k a p r : Nat) (d : List Byte) : (s.plinthAudit k a p r d).rasp = s.rasp := by
  rw [State.plinthAudit_frame]
@[simp] theorem State.plinthAudit_amt (k a p r : Nat) (d : List Byte) : (s.plinthAudit k a p r d).amt = s.amt := by
  rw [State.plinthAudit_frame]
@[simp] theorem State.plinthAudit_clusters (k a p r : Nat) (d : List Byte) : (s.plinthAudit k a p r d).clusters = s.clusters := by
  rw [State.plinthAudit_frame]
@[simp] theorem State.plinthAudit_fabric (k a p r : Nat) (d : List Byte) : (s.plinthAudit k a p r d).fabric = s.fabric := by
  rw [State.plinthAudit_frame]
@[simp] theorem State.plinthAudit_vision (k a p r : Nat) (d : List Byte) : (s.plinthAudit k a p r d).vision = s.vision := by
  rw [State.plinthAudit_frame]
@[simp] theorem State.plinthAudit_wire (k a p r : Nat) (d : List Byte) : (s.plinthAudit k a p r d).wire = s.wire := by
  rw [State.plinthAudit_frame]

/-- What `State.jobDone` touches. -/
theorem State.jobDone_frame (p c st f : Nat) :
    s.jobDone p c st f = { s with regs := (s.jobDone p c st f).regs, link := (s.jobDone p c st f).link, wire := (s.jobDone p c st f).wire } := by
  unfold State.jobDone
  dsimp only
  split
  · exact State.queueEvent_frame ..
  · split
    · exact State.queueEvent_frame ..
    · rfl

@[simp] theorem State.jobDone_pending (p c st f : Nat) : (s.jobDone p c st f).pending = s.pending := by
  rw [State.jobDone_frame]
@[simp] theorem State.jobDone_draws (p c st f : Nat) : (s.jobDone p c st f).draws = s.draws := by
  rw [State.jobDone_frame]
@[simp] theorem State.jobDone_time (p c st f : Nat) : (s.jobDone p c st f).time = s.time := by
  rw [State.jobDone_frame]
@[simp] theorem State.jobDone_power (p c st f : Nat) : (s.jobDone p c st f).power = s.power := by
  rw [State.jobDone_frame]
@[simp] theorem State.jobDone_sensors (p c st f : Nat) : (s.jobDone p c st f).sensors = s.sensors := by
  rw [State.jobDone_frame]
@[simp] theorem State.jobDone_clock (p c st f : Nat) : (s.jobDone p c st f).clock = s.clock := by
  rw [State.jobDone_frame]
@[simp] theorem State.jobDone_shadow (p c st f : Nat) : (s.jobDone p c st f).shadow = s.shadow := by
  rw [State.jobDone_frame]
@[simp] theorem State.jobDone_events (p c st f : Nat) : (s.jobDone p c st f).events = s.events := by
  rw [State.jobDone_frame]
@[simp] theorem State.jobDone_commits (p c st f : Nat) : (s.jobDone p c st f).commits = s.commits := by
  rw [State.jobDone_frame]
@[simp] theorem State.jobDone_resets (p c st f : Nat) : (s.jobDone p c st f).resets = s.resets := by
  rw [State.jobDone_frame]
@[simp] theorem State.jobDone_retention (p c st f : Nat) : (s.jobDone p c st f).retention = s.retention := by
  rw [State.jobDone_frame]
@[simp] theorem State.jobDone_mgc (p c st f : Nat) : (s.jobDone p c st f).mgc = s.mgc := by
  rw [State.jobDone_frame]
@[simp] theorem State.jobDone_plinth (p c st f : Nat) : (s.jobDone p c st f).plinth = s.plinth := by
  rw [State.jobDone_frame]
@[simp] theorem State.jobDone_rasp (p c st f : Nat) : (s.jobDone p c st f).rasp = s.rasp := by
  rw [State.jobDone_frame]
@[simp] theorem State.jobDone_amt (p c st f : Nat) : (s.jobDone p c st f).amt = s.amt := by
  rw [State.jobDone_frame]
@[simp] theorem State.jobDone_clusters (p c st f : Nat) : (s.jobDone p c st f).clusters = s.clusters := by
  rw [State.jobDone_frame]
@[simp] theorem State.jobDone_fabric (p c st f : Nat) : (s.jobDone p c st f).fabric = s.fabric := by
  rw [State.jobDone_frame]
@[simp] theorem State.jobDone_vision (p c st f : Nat) : (s.jobDone p c st f).vision = s.vision := by
  rw [State.jobDone_frame]

end Sys2Proof.Machine
end

