-- ==== Sys2Proof/Laws/Writes.lean ====
section
/-! SUPPORT. What an accepted register write does, said once. -/

namespace Sys2Proof.Machine

variable {s : State} {rq : Req} {p : Page} {w i j : Nat} {v m : Word} {f : RField} {r : Bool}

/-- An accepted write of one word has the word's effects and completes OK. -/
theorem State.regWrite1_accepted (h : s.accepts rq p w v m) (hp : pageAt p.num = some p) (hw : w < 4096)
    (ht : p.touches w m.toNat ≠ []) :
    s.regWrite1 rq p w v m r = (s.wordAct p w v.toNat m.toNat rq.sid rq.port r).wrote rq p w v m := by
  have e1 : (p.num * 4096 + w) / 4096 = p.num := by omega
  have e2 : (p.num * 4096 + w) % 4096 = w := by omega
  unfold State.regWrite1 State.regWrite
  simp only [h.1, h.2, e1, e2, hp, Page.writesBit, State.pairsAct, State.wrote]
  simp [ht]

/-- A word write whose mask meets one field has that field's effect. -/
theorem State.wordAct_only (h : p.only w m f i j) (hf : 0x40 ≤ f.off) :
    s.wordAct p w v.toNat m.toNat rq.sid rq.port r =
      (s.plainWrite p v.toNat m.toNat (f, i, j)).pageAct p f i j (f.given v.toNat m.toNat)
        (f.merge ((s.plainWrite p v.toNat m.toNat (f, i, j)).rd p f i j) v.toNat m.toNat) (v.toNat &&& m.toNat) rq.sid rq.port r := by
  unfold Page.only at h
  simp only [State.wordAct, State.plainWord, h, List.foldl_cons, List.foldl_nil]
  rw [if_neg (by omega)]

/-- The same of a header field. -/
theorem State.wordAct_header (h : p.only w m f i j) (hf : f.off < 0x40) :
    s.wordAct p w v.toNat m.toNat rq.sid rq.port r =
      (s.plainWrite p v.toNat m.toNat (f, i, j)).headerAct s p f (f.given v.toNat m.toNat) rq.sid := by
  unfold Page.only at h
  simp only [State.wordAct, State.plainWord, h, List.foldl_cons, List.foldl_nil]
  rw [if_pos hf]

/-- An accepted write that meets one acting field of a page. -/
theorem State.regWrite1_only (h : s.accepts rq p w v m) (hp : pageAt p.num = some p) (hw : w < 4096)
    (ho : p.only w m f i j) (hf : 0x40 ≤ f.off) :
    s.regWrite1 rq p w v m r = ((s.plainWrite p v.toNat m.toNat (f, i, j)).pageAct p f i j (f.given v.toNat m.toNat)
        (f.merge ((s.plainWrite p v.toNat m.toNat (f, i, j)).rd p f i j) v.toNat m.toNat) (v.toNat &&& m.toNat) rq.sid
        rq.port r).wrote rq p w v m := by
  rw [State.regWrite1_accepted h hp hw (by rw [ho]; simp), State.wordAct_only ho hf]

/-- An accepted write that meets one header field. -/
theorem State.regWrite1_header (h : s.accepts rq p w v m) (hp : pageAt p.num = some p) (hw : w < 4096)
    (ho : p.only w m f i j) (hf : f.off < 0x40) :
    s.regWrite1 rq p w v m r =
      ((s.plainWrite p v.toNat m.toNat (f, i, j)).headerAct s p f (f.given v.toNat m.toNat) rq.sid).wrote rq p w v m := by
  rw [State.regWrite1_accepted h hp hw (by rw [ho]; simp), State.wordAct_header ho hf]

/-! ### Row by row -/

/-- An accepted write of PDC.ON_REQ0. -/
theorem State.write_onReq0 (h : s.accepts rq .pdc PDC.ON_REQ0.off v m)
    (ho : (.pdc : Page).only PDC.ON_REQ0.off m PDC.ON_REQ0 0 0) :
    s.regWrite1 rq .pdc PDC.ON_REQ0.off v m r = (onReqAct s false (PDC.ON_REQ0.merge (s.rd .pdc PDC.ON_REQ0) v.toNat m.toNat)).wrote rq .pdc PDC.ON_REQ0.off v m :=
  (State.regWrite1_only h rfl (by decide) ho (by decide)).trans rfl

/-- An accepted write of PDC.ON_REQ1. -/
theorem State.write_onReq1 (h : s.accepts rq .pdc PDC.ON_REQ1.off v m)
    (ho : (.pdc : Page).only PDC.ON_REQ1.off m PDC.ON_REQ1 0 0) :
    s.regWrite1 rq .pdc PDC.ON_REQ1.off v m r = (onReqAct s true (PDC.ON_REQ1.merge (s.rd .pdc PDC.ON_REQ1) v.toNat m.toNat)).wrote rq .pdc PDC.ON_REQ1.off v m :=
  (State.regWrite1_only h rfl (by decide) ho (by decide)).trans rfl

/-- An accepted write of PDC.SLEEP_ENTER. -/
theorem State.write_sleepEnter (h : s.accepts rq .pdc PDC.SLEEP_ENTER.off v m)
    (ho : (.pdc : Page).only PDC.SLEEP_ENTER.off m PDC.SLEEP_ENTER 0 0) :
    s.regWrite1 rq .pdc PDC.SLEEP_ENTER.off v m r = (if decide (PDC.SLEEP_ENTER.given v.toNat m.toNat = 1) = true then sleepAct s else s).wrote rq .pdc PDC.SLEEP_ENTER.off v m :=
  (State.regWrite1_only h rfl (by decide) ho (by decide)).trans rfl

/-- An accepted write of CLK.REVERT. -/
theorem State.write_clkRevert (h : s.accepts rq .clk CLK.REVERT.off v m)
    (ho : (.clk : Page).only CLK.REVERT.off m CLK.REVERT 0 0) :
    s.regWrite1 rq .clk CLK.REVERT.off v m r = (if decide (CLK.REVERT.given v.toNat m.toNat = 1) = true then clkRevertAct s r else s).wrote rq .clk CLK.REVERT.off v m :=
  (State.regWrite1_only h rfl (by decide) ho (by decide)).trans rfl

/-- An accepted write of CPX.PORT_EN. -/
theorem State.write_portEn (h : s.accepts rq .cpx CPX.PORT_EN.off v m)
    (ho : (.cpx : Page).only CPX.PORT_EN.off m CPX.PORT_EN 0 0) :
    s.regWrite1 rq .cpx CPX.PORT_EN.off v m r = (portEnAct s (CPX.PORT_EN.merge (s.rd .cpx CPX.PORT_EN) v.toNat m.toNat)).wrote rq .cpx CPX.PORT_EN.off v m :=
  (State.regWrite1_only h rfl (by decide) ho (by decide)).trans rfl

/-- An accepted write of PMC.PM_RELEASE. -/
theorem State.write_pmRelease (h : s.accepts rq .pmc PMC.PM_RELEASE.off v m)
    (ho : (.pmc : Page).only PMC.PM_RELEASE.off m PMC.PM_RELEASE 0 0) :
    s.regWrite1 rq .pmc PMC.PM_RELEASE.off v m r = (if decide (PMC.PM_RELEASE.given v.toNat m.toNat = 1) = true then pmReleaseAct s else s).wrote rq .pmc PMC.PM_RELEASE.off v m :=
  (State.regWrite1_only h rfl (by decide) ho (by decide)).trans rfl

/-- An accepted write of MMU.RESUME_CTX. -/
theorem State.write_resumeCtx (h : s.accepts rq .mmu MMU.RESUME_CTX.off v m)
    (ho : (.mmu : Page).only MMU.RESUME_CTX.off m MMU.RESUME_CTX 0 0) :
    s.regWrite1 rq .mmu MMU.RESUME_CTX.off v m r = (resumeAct s (MMU.RESUME_CTX.given v.toNat m.toNat)).wrote rq .mmu MMU.RESUME_CTX.off v m :=
  (State.regWrite1_only h rfl (by decide) ho (by decide)).trans rfl

/-- An accepted write of MMU.INV_CTX. -/
theorem State.write_invCtx (h : s.accepts rq .mmu MMU.INV_CTX.off v m)
    (ho : (.mmu : Page).only MMU.INV_CTX.off m MMU.INV_CTX 0 0) :
    s.regWrite1 rq .mmu MMU.INV_CTX.off v m r = (invAct s (MMU.INV_CTX.given v.toNat m.toNat)).wrote rq .mmu MMU.INV_CTX.off v m :=
  (State.regWrite1_only h rfl (by decide) ho (by decide)).trans rfl

/-- An accepted write of BOD.BULK_GO. -/
theorem State.write_bulkGo (h : s.accepts rq .bod BOD.BULK_GO.off v m)
    (ho : (.bod : Page).only BOD.BULK_GO.off m BOD.BULK_GO 0 0) :
    s.regWrite1 rq .bod BOD.BULK_GO.off v m r = (if decide (BOD.BULK_GO.given v.toNat m.toNat = 1) = true then bulkAct s else s).wrote rq .bod BOD.BULK_GO.off v m :=
  (State.regWrite1_only h rfl (by decide) ho (by decide)).trans rfl

/-- An accepted write of AMT.OP_CMD. -/
theorem State.write_opCmd (h : s.accepts rq .amt AMT.OP_CMD.off v m)
    (ho : (.amt : Page).only AMT.OP_CMD.off m AMT.OP_CMD 0 0) :
    s.regWrite1 rq .amt AMT.OP_CMD.off v m r = (if decide (AMT.OP_CMD.given v.toNat m.toNat ≠ 0) = true then opAct s (AMT.OP_CMD.given v.toNat m.toNat) rq.sid rq.port else s).wrote rq .amt AMT.OP_CMD.off v m :=
  (State.regWrite1_only h rfl (by decide) ho (by decide)).trans rfl

/-- An accepted write of AMT.INST_CMD. -/
theorem State.write_instCmd (h : s.accepts rq .amt AMT.INST_CMD.off v m)
    (ho : (.amt : Page).only AMT.INST_CMD.off m AMT.INST_CMD 0 0) :
    s.regWrite1 rq .amt AMT.INST_CMD.off v m r = (if decide (AMT.INST_CMD.given v.toNat m.toNat ≠ 0) = true then loadAddrAct s rq.sid rq.port else s).wrote rq .amt AMT.INST_CMD.off v m :=
  (State.regWrite1_only h rfl (by decide) ho (by decide)).trans rfl

/-- An accepted write of AMT.CANCEL_CTX. -/
theorem State.write_cancelCtx (h : s.accepts rq .amt AMT.CANCEL_CTX.off v m)
    (ho : (.amt : Page).only AMT.CANCEL_CTX.off m AMT.CANCEL_CTX 0 0) :
    s.regWrite1 rq .amt AMT.CANCEL_CTX.off v m r = (cancelAct s (AMT.CANCEL_CTX.given v.toNat m.toNat)).wrote rq .amt AMT.CANCEL_CTX.off v m :=
  (State.regWrite1_only h rfl (by decide) ho (by decide)).trans rfl

/-- An accepted write of PLN.CLEAR. -/
theorem State.write_plnClear (h : s.accepts rq .pln PLN.CLEAR.off v m)
    (ho : (.pln : Page).only PLN.CLEAR.off m PLN.CLEAR 0 0) :
    s.regWrite1 rq .pln PLN.CLEAR.off v m r = (if decide (PLN.CLEAR.given v.toNat m.toNat = 1) = true then plnClearAct s rq.sid rq.port else s).wrote rq .pln PLN.CLEAR.off v m :=
  (State.regWrite1_only h rfl (by decide) ho (by decide)).trans rfl

/-- An accepted write of PLN.INHIBIT. -/
theorem State.write_plnInhibit (h : s.accepts rq .pln PLN.INHIBIT.off v m)
    (ho : (.pln : Page).only PLN.INHIBIT.off m PLN.INHIBIT 0 0) :
    s.regWrite1 rq .pln PLN.INHIBIT.off v m r = (plnInhibitAct s rq.sid rq.port (PLN.INHIBIT.merge (s.rd .pln PLN.INHIBIT) v.toNat m.toNat)).wrote rq .pln PLN.INHIBIT.off v m :=
  (State.regWrite1_only h rfl (by decide) ho (by decide)).trans rfl

/-- An accepted write of RSP.REQ. -/
theorem State.write_rspReq (h : s.accepts rq .rsp RSP.REQ.off v m)
    (ho : (.rsp : Page).only RSP.REQ.off m RSP.REQ 0 0) :
    s.regWrite1 rq .rsp RSP.REQ.off v m r = (if decide (RSP.REQ.given v.toNat m.toNat = 1) = true then rspReqAct s ((v.toNat &&& m.toNat) % 32) else s).wrote rq .rsp RSP.REQ.off v m :=
  (State.regWrite1_only h rfl (by decide) ho (by decide)).trans rfl

/-- An accepted write of LCS.REQ. -/
theorem State.write_lcReq (h : s.accepts rq .lcs LCS.REQ.off v m)
    (ho : (.lcs : Page).only LCS.REQ.off m LCS.REQ 0 0) :
    s.regWrite1 rq .lcs LCS.REQ.off v m r = (lcAct s (LCS.REQ.given v.toNat m.toNat) rq.sid rq.port).wrote rq .lcs LCS.REQ.off v m :=
  (State.regWrite1_only h rfl (by decide) ho (by decide)).trans rfl

/-- An accepted write of MGC.ATT_GO. -/
theorem State.write_attGo (h : s.accepts rq .mgc MGC.ATT_GO.off v m)
    (ho : (.mgc : Page).only MGC.ATT_GO.off m MGC.ATT_GO 0 0) :
    s.regWrite1 rq .mgc MGC.ATT_GO.off v m r = (if decide (MGC.ATT_GO.given v.toNat m.toNat = 1) = true then attAct s rq.sid rq.port else s).wrote rq .mgc MGC.ATT_GO.off v m :=
  (State.regWrite1_only h rfl (by decide) ho (by decide)).trans rfl

/-- An accepted write of MGC.AUD_GO. -/
theorem State.write_audGo (h : s.accepts rq .mgc MGC.AUD_GO.off v m)
    (ho : (.mgc : Page).only MGC.AUD_GO.off m MGC.AUD_GO 0 0) :
    s.regWrite1 rq .mgc MGC.AUD_GO.off v m r = (if decide (MGC.AUD_GO.given v.toNat m.toNat = 1) = true then audAct s else s).wrote rq .mgc MGC.AUD_GO.off v m :=
  (State.regWrite1_only h rfl (by decide) ho (by decide)).trans rfl

/-- An accepted write of MGC.AUD_CKPT. -/
theorem State.write_audCkpt (h : s.accepts rq .mgc MGC.AUD_CKPT.off v m)
    (ho : (.mgc : Page).only MGC.AUD_CKPT.off m MGC.AUD_CKPT 0 0) :
    s.regWrite1 rq .mgc MGC.AUD_CKPT.off v m r = (if decide (MGC.AUD_CKPT.given v.toNat m.toNat = 1) = true then s.checkpoint else s).wrote rq .mgc MGC.AUD_CKPT.off v m :=
  (State.regWrite1_only h rfl (by decide) ho (by decide)).trans rfl

/-- The page of a host link port. -/
theorem pageAt_hlk (q : Fin 2) : pageAt (Page.hlk q.val).num = some (.hlk q.val) := by
  revert q
  decide +kernel

/-- An accepted write of RETRAIN. -/
theorem State.write_retrain {q : Fin 2} (h : s.accepts rq (.hlk q.val) HLK.RETRAIN.off v m)
    (ho : (Page.hlk q.val).only HLK.RETRAIN.off m HLK.RETRAIN 0 0) :
    s.regWrite1 rq (.hlk q.val) HLK.RETRAIN.off v m r =
      (if decide (HLK.RETRAIN.given v.toNat m.toNat = 1) = true then s.enterRetrain q.val else s).wrote rq (.hlk q.val)
        HLK.RETRAIN.off v m :=
  (State.regWrite1_only h (pageAt_hlk q) (by decide) ho (by decide)).trans rfl

/-- An accepted write of TUN_PUSH3. -/
theorem State.write_tunPush (h : s.accepts rq .cpx (CPX.TUN_PUSH.off + 12) v m)
    (ho : Page.cpx.only (CPX.TUN_PUSH.off + 12) m CPX.TUN_PUSH 0 3) :
    s.regWrite1 rq .cpx (CPX.TUN_PUSH.off + 12) v m r =
      ((s.wr .cpx CPX.TUN_PUSH (CPX.TUN_PUSH.merge (s.rd .cpx CPX.TUN_PUSH 0 3) v.toNat m.toNat) 0 3).pushTunnel
        (s.wr .cpx CPX.TUN_PUSH (CPX.TUN_PUSH.merge (s.rd .cpx CPX.TUN_PUSH 0 3) v.toNat m.toNat) 0 3).tunnelWords).wrote rq
        .cpx (CPX.TUN_PUSH.off + 12) v m :=
  (State.regWrite1_only h rfl (by decide) ho (by decide)).trans rfl

/-- An accepted write of PQ_ADDR_HI. -/
theorem State.write_pqPush (h : s.accepts rq .ife IFE.PQ_ADDR_HI.off v m)
    (ho : Page.ife.only IFE.PQ_ADDR_HI.off m IFE.PQ_ADDR_HI 0 0)
    {t : State} (ht : t = s.wr .ife IFE.PQ_ADDR_HI (IFE.PQ_ADDR_HI.merge (s.rd .ife IFE.PQ_ADDR_HI) v.toNat m.toNat)) :
    s.regWrite1 rq .ife IFE.PQ_ADDR_HI.off v m r =
      (t.queueParams (t.rd .ife IFE.PQ_CTX) (t.rd .ife IFE.PQ_CLASS) (t.rd .ife IFE.PQ_FRAME) t.pqAddr
        (t.rd .ife IFE.PQ_LINKED = 1)).wrote rq .ife IFE.PQ_ADDR_HI.off v m := by
  subst ht
  exact (State.regWrite1_only h rfl (by decide) ho (by decide)).trans rfl

/-- An accepted write of ENT_HI. -/
theorem State.write_entHi (h : s.accepts rq .bod BOD.ENT_HI.off v m)
    (ho : Page.bod.only BOD.ENT_HI.off m BOD.ENT_HI 0 0)
    {t : State} (ht : t = s.wr .bod BOD.ENT_HI (BOD.ENT_HI.merge (s.rd .bod BOD.ENT_HI) v.toNat m.toNat)) :
    s.regWrite1 rq .bod BOD.ENT_HI.off v m r =
      (t.bodStore (t.rd .bod BOD.ENT_SEL) (t.rd .bod BOD.ENT_LO + 2 ^ 32 * BOD.ENT_HI.merge (t.rd .bod BOD.ENT_HI)
        v.toNat m.toNat)).wrote rq .bod BOD.ENT_HI.off v m := by
  subst ht
  exact (State.regWrite1_only h rfl (by decide) ho (by decide)).trans rfl

/-- The page of a core's streams. -/
theorem pageAt_str (u : Fin 24) (hu : u.val % 4 ≠ 3) : pageAt (Page.str u.val).num = some (.str u.val) := by
  revert u
  decide +kernel

/-- An accepted write of ARM_COUNT. -/
theorem State.write_arm {u : Fin 24} {c : Fin 8} (hu : u.val % 4 ≠ 3)
    (h : s.accepts rq (.str u.val) (STR.ARM_COUNT.off + STR.ARM_COUNT.s1 * c.val) v m)
    (ho : (Page.str u.val).only (STR.ARM_COUNT.off + STR.ARM_COUNT.s1 * c.val) m STR.ARM_COUNT c.val 0) :
    s.regWrite1 rq (.str u.val) (STR.ARM_COUNT.off + STR.ARM_COUNT.s1 * c.val) v m r =
      (if decide (STR.ARM_COUNT.given v.toNat m.toNat ≠ 0) = true then
        armAct s u.val c.val (STR.ARM_COUNT.given v.toNat m.toNat) else s).wrote rq (.str u.val)
        (STR.ARM_COUNT.off + STR.ARM_COUNT.s1 * c.val) v m :=
  (State.regWrite1_only h (pageAt_str u hu) (by have := c.isLt; simp only [STR.ARM_COUNT]; omega) ho (by decide)).trans rfl

/-- An accepted write of STORE_CMD, with or without the slot beside it. -/
theorem State.write_store (h : s.accepts rq .mgc MGC.STORE_CMD.off v m)
    (ho : Page.mgc.touches MGC.STORE_CMD.off m.toNat = [(MGC.STORE_CMD, 0, 0)]
      ∨ Page.mgc.touches MGC.STORE_CMD.off m.toNat = [(MGC.STORE_CMD, 0, 0), (MGC.STORE_SLOT, 0, 0)]) :
    s.regWrite1 rq .mgc MGC.STORE_CMD.off v m r =
      (storeAct s (MGC.STORE_CMD.given v.toNat m.toNat) (bits (v.toNat &&& m.toNat) 10 8) rq.sid rq.port).wrote rq .mgc
        MGC.STORE_CMD.off v m := by
  rw [State.regWrite1_accepted h rfl (by decide) (by rcases ho with ho | ho <;> rw [ho] <;> simp)]
  congr 1
  rcases ho with ho | ho
  · exact (State.wordAct_only ho (by decide)).trans rfl
  · simp only [State.wordAct, State.plainWord, ho, List.foldl_cons, List.foldl_nil]
    rfl

/-- An accepted write of a page's CNT_CLR. -/
theorem State.write_cntClr (h : s.accepts rq p f.off v m) (hp : pageAt p.num = some p) (hc : p.cntClr = some f)
    (hw : f.off < 4096) (hf : 0x40 ≤ f.off) (ho : p.only f.off m f 0 0) (hv : f.given v.toNat m.toNat = 1)
    (hk : s.plainWrite p v.toNat m.toNat (f, 0, 0) = s) :
    s.regWrite1 rq p f.off v m r = (s.clearCounters p).wrote rq p f.off v m := by
  rw [State.regWrite1_only h hp hw ho hf, hk]
  simp only [State.pageAct, hc, hv, if_true]

/-- A page's number is the one it was found at. -/
theorem pageAt_num {n : Nat} (h : pageAt n = some p) : p.num = n := by
  have hb : n < 0x1C0 := by
    refine Decidable.byContradiction fun hn => ?_
    have e : pageAt n = none := by
      unfold pageAt
      repeat rw [if_neg (by omega)]
    rw [e] at h
    cases h
  have all : ∀ k : Fin 0x1C0, ((pageAt k.val).all fun q => q.num = k.val) = true := by decide +kernel
  have := all ⟨n, hb⟩
  rw [h] at this
  simpa using this

/-- An accepted write of a header field at a page number. -/
theorem State.regWrite_header {n : Nat} (hp : pageAt n = some p) (h : s.accepts rq p w v m) (hw : w < 4096)
    (ho : p.only w m f i j) (hf : f.off < 0x40) :
    s.regWrite rq (n * 4096 + w) [(v.toNat, m.toNat)] r =
      ((s.plainWrite p v.toNat m.toNat (f, i, j)).headerAct s p f (f.given v.toNat m.toNat) rq.sid).wrote rq p w v m := by
  have e := pageAt_num hp
  subst e
  exact State.regWrite1_header h hp hw ho hf

end Sys2Proof.Machine
end

