-- ==== Sys2Proof/Tests/Slice0.lean ====
section
/-! SUPPORT. Tests of the model on small states, and, for every statement that has hypotheses, states and operands that meet them
(`witness_…`, in the order of the statement's clauses). -/

set_option Elab.async false

namespace Sys2Proof.Tests

open Sys2Proof Sys2Proof.Machine

/-- A cold start's end: every domain ready, HL0 UP with a session of each role. -/
def up : State :=
  let s : State := { State.reset with power := { State.reset.power with run := .on, domains := List.replicate 39 .ready } }
  (s.wr (.hlk 0) HLK.LINK_STATE 4).wr (.hlk 0) HLK.SESS_OPEN 7

/-- The same, some beats later. -/
def later (b : Nat) : State := { up with time := { up.time with beatNo := b } }

/-- HL0 in a state of R76. -/
def link (n : Nat) : State := up.wr (.hlk 0) HLK.LINK_STATE n

/-- HL0 as a port of the link. -/
def withPort (f : HlPort → HlPort) : State := up.setPort 0 (f (up.port 0))

def rqO : Req := ⟨0, 1, 0⟩
def rqI : Req := ⟨0, 2, 0⟩
def rqM : Req := ⟨0, 3, 0⟩

/-- A package with one placement entry that names no unit, and it running. -/
def package : Package :=
  { gset := 3, latency := 2, fwMin := 0, bodyDigest := zeros 32, placementPos := 3, nodes := [], compare := ⟨0, 0, 16, 0, []⟩
    compareBytes := [], logged := [], sec := { (default : Sections) with placements := [⟨[], [], [], [], [], [], [], []⟩] } }

def set : RunSet :=
  { key := 1, pkg := package, entry := 0, since := 0, lastAdmit := none, oldEntry := none, swapFrom := none, starts := [], steps := []
    released := false }

/-- The Armature's part of a state changed. -/
def armed (f : AmtState → AmtState) (s : State := up) : State := { s with amt := f s.amt }

def running : State := armed fun a => { a with running := some set }

theorem up_sized : up.Sized := by unfold State.Sized; decide +kernel

/-- `StepsKeepInvariant`: a state with a waiting command whose step goes on. -/
theorem witness_StepsKeepInvariant :
    ∃ s t : State, s.Inv ∧ s.pending = [.idle 0] ∧ step s = .next t := by
  refine ⟨{ up with pending := [.idle 0] }, _, ⟨?_, ?_, ?_, ?_, ?_⟩, rfl, rfl⟩
  · decide +kernel
  · decide +kernel
  · decide +kernel
  · exact up_sized
  · decide +kernel

theorem witness_StepRunsFrontCommand : State.reset.pending = [] := rfl

theorem witness_CommandsOnlyAppend : ∃ t, exec (.idle 0) up = .next t := ⟨_, rfl⟩

theorem witness_CommandsThatStoreNothing : ∃ t, exec (.recordEmit) up = .next t := ⟨_, rfl⟩

theorem witness_WellFormedCommandsGoOn :
    (Instr.beatBoundary 12000 (List.replicate 15 40)).wf = true ∧ (Instr.beatBoundary 12000 []).wf = false := by decide +kernel

theorem witness_BeatsCountByOne :
    (List.replicate 15 (40 : Int)).length = 15 ∧ up.plinthOn = true
    ∧ (∃ t, exec (.idle 0) up = .next t ∧ ∀ vin temps, Instr.idle 0 ≠ .beatBoundary vin temps)
    ∧ (∃ t, exec .powerOn State.reset = .next t)
    ∧ (State.reset.withoutPower .starting).power.run = .starting :=
  ⟨rfl, rfl, ⟨_, rfl, fun _ _ => nofun⟩, ⟨_, rfl⟩, rfl⟩

theorem witness_RegistersHoldWrites :
    RegFile.wf up.regs ∧ HDR.EN.key (.sge 1) 0 0 ≠ HDR.EN.key (.sge 0) 0 0 := by decide +kernel

theorem witness_MemoryHoldsWrites : Mem.wf (up.store 7 [1, 0, 2]).fabric.mem ∧ (5 : Nat) < 7 := by decide +kernel

/-! ### Terms that are not well-formed -/

/-- The fault a command stops with. -/
def stops (c : Instr) (s : State) : Option Fault := match exec c s with | .fault f => some f | .next _ | .refused _ => none

theorem test_boundary_needs_15_temperatures :
    (Instr.beatBoundary 0 (List.replicate 14 0)).wf = false
      ∧ stops (.beatBoundary 0 (List.replicate 14 0)) up = some (.illFormed "BEAT_BOUNDARY") := by decide +kernel

theorem test_cell_is_64_bytes :
    (Instr.cellReceive 0 (zeros 63) .clean).wf = false
      ∧ stops (.cellReceive 0 (zeros 63) .clean) up = some (.illFormed "CELL_RECEIVE") := by decide +kernel

theorem test_packet_header_is_4_bytes :
    (Instr.longPacket 0 [1, 2, 3] [] 0).wf = false
      ∧ stops (.longPacket 0 [1, 2, 3] [] 0) up = some (.illFormed "LONG_PACKET") := by decide +kernel

/-- No row of the table gives bits (`decodeTableWord`), so no word spells a command. -/
theorem test_no_word_spells_a_command : decodeTableWord 32 0 = none ∧ State.reset.withFetchWord 32 0 = State.reset := ⟨rfl, rfl⟩

/-- The queue after a step. -/
def queueAfter (s : State) : Option (List Instr) := match step s with | .next t => some t.pending | .fault _ | .refused _ => none

theorem test_step_takes_the_front : queueAfter { up with pending := [.lsLe 0 0 false 0, .powerOn] } = some [.powerOn] := by decide +kernel

theorem witness_PowerOnCompletes :
    State.reset.power.run = .unpowered ∧ up.power.run ≠ .unpowered
    ∧ (up.plinthOn = true ∧ ({ up with sensors := { up.sensors with trips := [0] } } : State).sensors.trips ≠ [])
    ∧ (State.reset.withoutPower .starting).power.run = .starting
    ∧ (∀ s : State, s = { up with power := { up.power with run := .cold } } → s.power.run = .cold ∧ s.power.checkPassed = false) := by
  refine ⟨rfl, by decide, ?_, rfl, ?_⟩
  · decide +kernel
  · rintro s rfl; exact ⟨rfl, rfl⟩

theorem witness_SupplyProtectionCompletes :
    up.plinthOn = true
    ∧ (∀ s, s = up.wr .clk CLK.ACTIVE_SRC 2 → s.domainReady 37 = true ∧ s.rd .clk CLK.ACTIVE_SRC ≠ 0 ∧ s.rd .clk CLK.HOLDOVER = 0)
    ∧ (∀ s : State, s = { up.wr .clk CLK.STRAP_CLKM 2 with clock := { hl0Locked := true, firstMoveDone := false } } →
        s.domainReady 37 = true ∧ s.rd .clk CLK.STRAP_CLKM = 2 ∧ s.clock.hl0Locked = true ∧ s.clock.firstMoveDone = false)
    ∧ (up.domainReady (camDomain 11) = true ∧ up.domainReady 33 = true)
    ∧ ({ up with power := { up.power with checkPassed := true } } : State).power.checkPassed = true := by
  refine ⟨rfl, ?_, ?_, ?_, rfl⟩
  · rintro s rfl; decide +kernel
  · rintro s rfl; decide +kernel
  · decide +kernel

/-- Domain `d` ramping since beat `b`. -/
def ramping (d b : Nat) (s : State := up) : State := s.setDomain d (.ramping b)

/-- The power's part of a state changed. -/
def powered (f : PowerState → PowerState) (s : State := up) : State := { s with power := f s.power }

theorem witness_DomainCommandsComplete :
    (∃ s : State, s.nextRamp = some 30 ∧ s.power.lastRamp = none ∧ s.domainReady 38 = true)
    ∧ (∃ s : State, s.domain 38 = .ramping 7 ∧ s.mgcMayStart = true)
    ∧ (∃ s : State, s.domain 24 = .ramping 0 ∧ 0 + domWake 24 < s.time.beatNo)
    ∧ (up.domainOff 23 = false ∧ up.domainOff 24 = false ∧ up.domainOff 29 = false ∧ up.domainOff 34 = false)
    ∧ (∃ s : State, s.domainOff 30 = false ∧ s.domainOff 38 = false ∧ s.lockedRuns = true)
    ∧ (∃ s : State, s.rd .pdc PDC.AUTO_MODE = 1 ∧ s.domainReady 23 = true ∧ 23 ∉ s.neededCores
        ∧ s.power.idleSince.find? (·.1 = 23) = some (23, 5) ∧ 5 + s.rd .pdc PDC.IDLE_OFF ≤ s.time.beatNo) :=
  ⟨⟨powered fun p => { p with queue := [30] }, by decide +kernel⟩,
   ⟨ramping 38 7 (powered fun p => { p with linkBoot := true }), by decide +kernel⟩,
   ⟨ramping 24 0 (later 100000), by decide +kernel⟩, by decide +kernel,
   ⟨running, by decide +kernel⟩,
   ⟨(powered (fun p => { p with idleSince := [(23, 5)] }) (later 10000000)).wr .pdc PDC.AUTO_MODE 1, by decide +kernel⟩⟩

theorem witness_WakeCompletes :
    (∃ s : State, s.rd .pdc PDC.IN_SLEEP = 1 ∧ s.power.sleepExit = false ∧ s.power.wakeAt = none
      ∧ s.rd .pdc PDC.WAKE_TIMER_EN = 1 ∧ s.time.beatNo = s.rd2 .pdc PDC.WAKE_BEAT_LO PDC.WAKE_BEAT_HI)
    ∧ (∃ s : State, s.power.wakeAt = some 3 ∧ s.rd .pdc PDC.IN_SLEEP = 1 ∧ s.power.sleepExit = false
      ∧ 3 ≤ s.time.beatNo ∧ s.power.warm = none ∧ s.domainReady 38 = true)
    ∧ (∃ s : State, s.power.wakeAt = some 3 ∧ s.rd .pdc PDC.IN_SLEEP = 1 ∧ s.power.sleepExit = false
      ∧ 3 ≤ s.time.beatNo ∧ s.power.warm = none ∧ s.domainReady 38 = false) :=
  ⟨⟨(((later 9).wr .pdc PDC.IN_SLEEP 1).wr .pdc PDC.WAKE_TIMER_EN 1).wr2 .pdc PDC.WAKE_BEAT_LO PDC.WAKE_BEAT_HI 9, by decide +kernel⟩,
   ⟨(powered (fun p => { p with wakeAt := some 3 }) (later 3)).wr .pdc PDC.IN_SLEEP 1, by decide +kernel⟩,
   ⟨((powered (fun p => { p with wakeAt := some 3 }) (later 3)).wr .pdc PDC.IN_SLEEP 1).setDomain 38 .off, by decide +kernel⟩⟩

theorem witness_WarmResetCompletes :
    (∃ s : State, s.power.resetLow = false ∧ s.power.run = .cold)
    ∧ (∃ s : State, s.power.resetLow = false ∧ s.power.run = .on)
    ∧ (∃ s : State, s.power.resetLow = true ∧ s.plinthOn = true)
    ∧ (∃ s : State, s.power.warm = some ⟨6, false, false⟩ ∧ 6 ≤ s.time.beatNo)
    ∧ (∃ s : State, s.power.warm = some ⟨6, true, false⟩ ∧ s.power.resetLow = false
      ∧ max (s.power.riseBeat + 1) (6 + 4) ≤ s.time.beatNo) :=
  ⟨⟨powered fun p => { p with run := .cold }, by decide +kernel⟩, ⟨up, by decide +kernel⟩,
   ⟨powered fun p => { p with resetLow := true }, by decide +kernel⟩,
   ⟨powered (fun p => { p with warm := some ⟨6, false, false⟩ }) (later 6), by decide +kernel⟩,
   ⟨powered (fun p => { p with warm := some ⟨6, true, false⟩ }) (later 10), by decide +kernel⟩⟩

/-- A factory layer that holds, and a store with an empty option image. -/
def bootStore : Store :=
  let n := zeros 65536
  { State.reset.mgc.store with
    factory := { State.reset.mgc.store.factory with valid := true, layer := [] }
    options := leBytes 4 0x54504F5A ++ leBytes 2 1 ++ leBytes 2 0 ++ leBytes 2 0xB0 ++ zeros 22 ++ sha256 [] ++ n }

theorem witness_BootChecksComplete :
    (∃ s : State, s.domain 38 = .ramping 2 ∧ s.power.firmwareChecked = false ∧ s.power.linkBoot = false
      ∧ s.rd .rstc RSTC.STRAP_BOOT < 2
      ∧ (s.mgc.store.fwSigned s.mgc.store.fwHeader && fwBodyOk s.mgc.store.fwHeader s.mgc.store.firmware) = false)
    ∧ (∃ s : State, s.passRunning = true ∧ s.optPlan = (false, false) ∧ s.mgc.store.factory.valid = true
      ∧ s.mgc.store.factory.layer = [] ∧ optImageFail s.mgc.store.options = 0 ∧ optRecords s.mgc.store.options = []) :=
  ⟨⟨ramping 38 2, by decide +kernel⟩,
   ⟨{ powered (fun p => { p with firmwareChecked := true }) (ramping 38 2) with mgc := { up.mgc with store := bootStore } },
    by decide +kernel⟩⟩

theorem witness_LinkComesUp :
    (∃ s : State, s.hlkOn 0 = true ∧ s.rd (.hlk 0) HLK.LINK_STATE = 1 ∧ (s.setRxLock 0 15).chooseWidth 0 15 = some 3
      ∧ (s.setRxLock 0 15).chooseWidth 0 0 = none)
    ∧ (∃ s : State, s.rd (.hlk 0) HLK.LINK_STATE = 3 ∧ s.chooseWidth 0 ((s.port 0).rxLock &&& 15) = some 3
      ∧ (2 : Nat).testBit 1 = true ∧ (1 : Nat).testBit 1 = false ∧ (s.port 0).versionNoneSent = false)
    ∧ (∃ s : State, s.rd (.hlk 0) HLK.LINK_STATE = 3
      ∧ (s.port 0).lastHello + (if (s.port 0).versionNoneSent then 500 else 10) ≤ s.time.beatNo) :=
  ⟨⟨link 1, by decide +kernel⟩,
   ⟨(withPort fun p => { p with rxLock := 15 }).wr (.hlk 0) HLK.LINK_STATE 3, by decide +kernel⟩,
   ⟨(later 10).wr (.hlk 0) HLK.LINK_STATE 3, by decide +kernel⟩⟩

theorem witness_CellReceiveCompletes :
    up.hlkOn 0 = true ∧ up.rd (.hlk 0) HLK.LINK_STATE = 4
    ∧ (∃ c : List Byte, c.length = 64 ∧ field c 60 4 = crc32c (c.take 60))
    ∧ (∃ c : List Byte, c.length = 64 ∧ field c 60 4 ≠ crc32c (c.take 60)) :=
  ⟨by decide +kernel, by decide +kernel, ⟨zeros 60 ++ leBytes 4 (crc32c (zeros 60)), by decide +kernel⟩,
   ⟨zeros 64, by decide +kernel⟩⟩

theorem witness_LinkControlCompletes :
    up.portUp 0 = true
    ∧ (∃ s : State, s.portUp 0 = true ∧ (s.port 0).replay = [⟨0, true, true, [], 7⟩]
      ∧ (s.port 0).lastAckProgress + s.rd (.hlk 0) HLK.REPLAY_TMO ≤ s.time.beatNo) :=
  ⟨by decide +kernel, ⟨(later 1000000).setPort 0 { up.port 0 with replay := [⟨0, true, true, [], 7⟩] }, by decide +kernel⟩⟩

theorem witness_LinkGoesDown :
    (∃ s : State, s.rd (.hlk 0) HLK.LINK_STATE = 5 ∧ s.time.beatNo ≤ (s.port 0).retrainSince + 500
      ∧ (s.setRxLock 0 15).chooseWidth 0 15 = some 3)
    ∧ (∃ s : State, s.rd (.hlk 0) HLK.LINK_STATE = 5 ∧ (s.port 0).retrainSince + 500 < s.time.beatNo)
    ∧ (∃ s : State, (s.port 0).darkSince = some 4 ∧ s.hlkOn 0 = true ∧ 4 + 5 ≤ s.time.beatNo)
    ∧ (∃ s : State, s.portUp 0 = true ∧ (s.port 0).lastRx + s.rd (.hlk 0) HLK.KEEPALIVE ≤ s.time.beatNo) :=
  ⟨⟨(later 500).wr (.hlk 0) HLK.LINK_STATE 5, by decide +kernel⟩, ⟨(later 501).wr (.hlk 0) HLK.LINK_STATE 5, by decide +kernel⟩,
   ⟨(later 9).setPort 0 { up.port 0 with darkSince := some 4 }, by decide +kernel⟩, ⟨later 1000000, by decide +kernel⟩⟩

theorem witness_SignalCommandsComplete : up.hlkOn 1 = true ∧ up.plinthOn = true ∧ up.Sized :=
  ⟨by decide +kernel, by decide +kernel, by unfold State.Sized; decide +kernel⟩

theorem witness_BulkMemoryCompletes :
    up.portUp 0 = true ∧ up.memWriteStatus rqO (2 ^ 33) 4 = 0 ∧ Mem.wf up.fabric.mem ∧ up.sidStatus rqO = 0
    ∧ up.memStatus 0x10000400000 4096 = 0 ∧ up.memBusy 0x10000400000 4096 = false :=
  ⟨by decide +kernel, by decide +kernel, by decide +kernel, by decide +kernel, by decide +kernel, by decide +kernel⟩

def hostReq (write : Bool) : HostReq := ⟨9, 1, 0, 8, write, 2 ^ 47, 4, 0, 64⟩

def job : JobMsg := ⟨0, 1, 0, zeros 40, []⟩

theorem witness_HostTransfersComplete :
    (∃ s : State, s.portUp 0 = true ∧ (s.port 0).hostReqs.find? (·.tag = 9) = some (hostReq false))
    ∧ (∃ s : State, s.portUp 0 = true ∧ (s.port 0).hostReqs.find? (·.tag = 9) = some (hostReq true)
      ∧ (hostReq true).beat + s.rd (.hlk 0) HLK.HOST_TMO ≤ s.time.beatNo)
    ∧ (∃ s : State, s.portUp 0 = true ∧ s.rd (.hlk 0) HLK.VC2_GRANTED ≠ 0 ∧ s.jobValid rqO 0 (zeros 40) = true)
    ∧ (∃ s : State, (s.port 0).jobs = [job] ∧ job.waits = [] ∧ s.pageOn .amt = true ∧ s.Sized) :=
  ⟨⟨withPort fun p => { p with hostReqs := [hostReq false] }, by decide +kernel⟩,
   ⟨(later 10000000).setPort 0 { up.port 0 with hostReqs := [hostReq true] }, by decide +kernel⟩,
   ⟨up.wr (.hlk 0) HLK.VC2_GRANTED 1, by decide +kernel⟩, ⟨withPort fun p => { p with jobs := [job] }, by unfold State.Sized; decide +kernel⟩⟩

def challenge : Challenge := ⟨zeros 32, 0, 2⟩

/-- `SessionCommandsComplete`; a response that verifies rests on the signature schemes (log 4), one that does not needs only a store
without the role's key. -/
theorem witness_SessionCommandsComplete :
    (∃ s : State, s.portUp 0 = true ∧ s.openBusy 0 2 = false ∧ s.power.linkBoot = false ∧ s.lifeCycle ≠ 6)
    ∧ (∃ s : State, s.portUp 0 = true ∧ s.openBusy 0 3 = false ∧ s.power.linkBoot = false ∧ s.lifeCycle = 6)
    ∧ (∃ s : State, s.portUp 0 = true ∧ (s.port 0).response = none ∧ (s.port 0).challenge = some challenge
      ∧ s.time.beatNo < challenge.beat + 5000000)
    ∧ (∃ s : State, (s.port 0).response = some ⟨some challenge, 0, []⟩ ∧ s.responseOk 0 ⟨some challenge, 0, []⟩ = none)
    ∧ (∃ s : State, (s.port 0).lockoutEnd = some 5 ∧ 5 ≤ s.time.beatNo)
    ∧ (∃ s : State, (s.port 0).challenge = some challenge ∧ challenge.beat + 5000000 ≤ s.time.beatNo)
    ∧ (up.portUp 0 = true ∧ up.sessionOpen 0 1 = true ∧ up.sessionOpen 0 2 = true ∧ up.sessionOpen 0 3 = true)
    ∧ (∃ s : State, (s.port 0).lossPending = true ∧ (s.port 0).eventQ.length < 256) :=
  ⟨⟨up.wr (.hlk 0) HLK.SESS_OPEN 1, by decide +kernel⟩,
   ⟨{ up.wr (.hlk 0) HLK.SESS_OPEN 1 with mgc := { up.mgc with lifeCycle := 6 } }, by decide +kernel⟩,
   ⟨withPort fun p => { p with challenge := some challenge }, by decide +kernel⟩,
   ⟨withPort fun p => { p with response := some ⟨some challenge, 0, []⟩ }, by decide +kernel⟩,
   ⟨(later 5).setPort 0 { up.port 0 with lockoutEnd := some 5 }, by decide +kernel⟩,
   ⟨(later 5000000).setPort 0 { up.port 0 with challenge := some challenge }, by decide +kernel⟩, by decide +kernel,
   ⟨withPort fun p => { p with lossPending := true }, by decide +kernel⟩⟩

/-- A link boot whose body of one chunk has arrived at address 0: the chunk is zeros, and the header holds its digest. -/
def bootHeader (len : Nat) (digest : List Byte) : List Byte := zeros 12 ++ leBytes 4 len ++ digest ++ zeros 8264

def booting (ready : Bool) (chunks : List Nat) (digest : List Byte) (len : Nat := 0) : State :=
  { powered fun p => { p with linkBoot := true } with
      link := { up.link with boot := some ⟨0, 0, bootHeader len digest, ready, chunks⟩ } }

/-- `LinkBootCompletes`; the first clause's header must verify under the maker's key, which rests on the signature schemes (log 4):
for any that does, the rest of its hypotheses hold. -/
theorem witness_LinkBootCompletes :
    (∃ s : State, s.portUp 0 = true ∧ s.power.linkBoot = true ∧ s.link.boot = none ∧ s.mgc.store.keyBlock.fwFloor = 0)
    ∧ (∃ s : State, (∃ b, s.link.boot = some b ∧ b.ready = false) ∧ s.domainReady 35 = true)
    ∧ (∃ s : State, s.portUp 0 = true ∧ s.power.linkBoot = true
      ∧ ∃ b, s.link.boot = some b ∧ b.port = 0 ∧ b.ready = true ∧ 0 < fwLenOf b.header)
    ∧ (∃ s : State, ∃ b, s.link.boot = some b ∧ b.ready = true ∧ s.bootBodyOk b = false)
    ∧ (∃ s : State, ∃ b, s.link.boot = some b ∧ b.ready = true ∧ s.bootBodyOk b = true) :=
  ⟨⟨powered fun p => { p with linkBoot := true }, by decide +kernel⟩,
   ⟨booting false [] [], ⟨⟨_, rfl, rfl⟩, by decide +kernel⟩⟩,
   ⟨booting true [] (zeros 32) 4096, by decide +kernel, by decide +kernel, _, rfl, rfl, rfl, by decide +kernel⟩,
   ⟨booting true [] (zeros 32) 4096, _, rfl, rfl, by decide +kernel⟩,
   ⟨booting true [] (sha256 []), _, rfl, rfl, by decide +kernel⟩⟩

/-- A write of one field by a role, from the value and mask that set it. -/
abbrev takes (s : State) (rq : Req) (p : Page) (w v m : Nat) (f : RField) (i j : Nat := 0) : Prop :=
  s.accepts rq p w (BitVec.ofNat 32 v) (BitVec.ofNat 32 m) ∧ p.only w (BitVec.ofNat 32 m) f i j

theorem witness_PowerWritesComplete :
    takes up rqI .pdc PDC.ON_REQ0.off 1 1 PDC.ON_REQ0 ∧ takes up rqI .pdc PDC.ON_REQ1.off 0 1 PDC.ON_REQ1
    ∧ (takes up rqO .pdc PDC.SLEEP_ENTER.off 1 1 PDC.SLEEP_ENTER ∧ PDC.SLEEP_ENTER.given 1 1 = 1 ∧ up.power.warm = none
      ∧ up.asleep = false ∧ up.domainReady 38 = true)
    ∧ (∃ s : State, takes s rqI .clk CLK.REVERT.off 1 1 CLK.REVERT ∧ CLK.REVERT.given 1 1 = 1 ∧ s.rd .clk CLK.HOLDOVER = 1) := by
  unfold takes State.accepts Page.only
  exact ⟨by decide +kernel, by decide +kernel, by decide +kernel, up.wr .clk CLK.HOLDOVER 1, by decide +kernel⟩

/-- A stream list of an open task stalled at its first block, in channel 0 of core 0. -/
def stalled : Channel :=
  { Channel.fresh 0 0 with active := some ⟨0x1000, 1⟩, stalled := some (0x1000, 0x5001, 0), ctx := some 4 }

def withChan (c : Channel) (s : State := up) : State := s.setChan c

theorem witness_PortAndFabricWritesComplete :
    (takes up rqI (.hlk 0) HLK.RETRAIN.off 1 1 HLK.RETRAIN ∧ up.rd (.hlk 0) HLK.LINK_STATE = 4)
    ∧ takes up rqI .cpx CPX.PORT_EN.off 4 4 CPX.PORT_EN
    ∧ takes (up.wr .cpx CPX.TUN_PUSH 0x100) rqI .cpx (CPX.TUN_PUSH.off + 12) 0 0xFFFFFFFF CPX.TUN_PUSH 0 3
    ∧ (∃ s : State, takes s rqI .ife IFE.PQ_ADDR_HI.off 0 0xFFFF IFE.PQ_ADDR_HI)
    ∧ (takes up rqI .pmc PMC.PM_RELEASE.off 1 1 PMC.PM_RELEASE)
    ∧ (∃ s : State, takes s rqI (.str 0) STR.ARM_COUNT.off 2 15 STR.ARM_COUNT ∧ STR.ARM_COUNT.given 2 15 ≠ 0)
    ∧ (∃ s : State, takes s rqI .mmu MMU.RESUME_CTX.off 4 0x1F MMU.RESUME_CTX
      ∧ s.fabric.channels.find? (fun c => c.ctx = some 4 ∧ c.stalled.isSome) = some stalled ∧ stalled.active = some ⟨0x1000, 1⟩
      ∧ (s.xlateAll 4 false (cutRanges (s.blockAt ⟨0x1000, 1⟩ 0).runs)).2.1 = none)
    ∧ takes up rqI .mmu MMU.INV_CTX.off 4 0x1F MMU.INV_CTX
    ∧ takes up rqI .bod BOD.ENT_HI.off 0 0xFFFF BOD.ENT_HI
    ∧ takes ((up.wr .bod HDR.EN 1).wr .bod BOD.BULK_COUNT 5) rqI .bod BOD.BULK_GO.off 1 1 BOD.BULK_GO := by
  unfold takes State.accepts Page.only
  exact ⟨by decide +kernel, by decide +kernel, by decide +kernel, ⟨up, by decide +kernel⟩, by decide +kernel,
    ⟨withChan { Channel.fresh 0 0 with ctx := some 4 } (up.wr (.str 0) HDR.EN 1), by decide +kernel⟩, ⟨withChan stalled, by decide +kernel⟩, by decide +kernel, by decide +kernel, by decide +kernel⟩

/-- A life cycle. -/
def life (n : Nat) (s : State := up) : State := { s with mgc := { s.mgc with lifeCycle := n } }

/-- The package in the Maquette, loaded. -/
def loaded (s : State := up) : State :=
  (armed (fun a => { a with maquette := some (package, 0) }) s).wr .amt AMT.MAQ_STATE 2

/-- An open task with no node, in context 4. -/
def task : Task :=
  { ctx := 4, cluster := 0, job := ⟨0, 2, 0, 0, false, false, 0, 0, 0⟩, nodes := [], succ := [], counters := [], held := []
    completed := [], root := 0, completionAddr := 0, seed := 0, graphKey := 0, stepBase := 0, nodeKeys := [], settings := default }

theorem witness_ArmatureWritesComplete :
    takes (life 3) rqO .amt AMT.OP_CMD.off 1 7 AMT.OP_CMD
    ∧ (takes loaded rqO .amt AMT.OP_CMD.off 2 7 AMT.OP_CMD ∧ loaded.amt.maquette = some (package, 0))
    ∧ (takes running rqO .amt AMT.OP_CMD.off 3 7 AMT.OP_CMD ∧ running.amt.running = some set)
    ∧ (∃ s : State, takes s rqO .amt AMT.OP_CMD.off 4 7 AMT.OP_CMD ∧ s.amt.maquette = some (package, 0))
    ∧ takes loaded rqO .amt AMT.OP_CMD.off 5 7 AMT.OP_CMD
    ∧ (takes (life 3) rqI .amt AMT.INST_CMD.off 0x100 0xF00 AMT.INST_CMD ∧ AMT.INST_CMD.given 0x100 0xF00 ≠ 0)
    ∧ (∃ s : State, takes s rqI .amt AMT.CANCEL_CTX.off 4 15 AMT.CANCEL_CTX) := by
  unfold takes State.accepts Page.only
  exact ⟨by decide +kernel, by decide +kernel, by decide +kernel, ⟨(loaded running).wr .amt AMT.RUN_STATE 2, by decide +kernel⟩,
    by decide +kernel, by decide +kernel, ⟨armed fun a => { a with tasks := [task] }, by decide +kernel⟩⟩

/-- A Plinth test passed at beat `b`. -/
def passed (i : TestInstance) (t b : Nat) (s : State := up) : State :=
  { s with rasp := { s.rasp with tests := (s.rasp.tests.map fun x => if x.inst = i ∧ x.test = t then { x with passedAt := some b } else x) } }

theorem witness_PlinthWritesComplete :
    (∃ s : State, takes s rqO .pln PLN.CLEAR.off 1 1 PLN.CLEAR ∧ s.clearCode = 0)
    ∧ (takes up rqO .pln PLN.CLEAR.off 1 1 PLN.CLEAR ∧ up.clearCode ≠ 0)
    ∧ takes up rqO .pln PLN.INHIBIT.off 1 1 PLN.INHIBIT
    ∧ (takes up rqO .rsp RSP.REQ.off (2 ^ 31) (2 ^ 31) RSP.REQ) := by
  unfold takes State.accepts Page.only
  exact ⟨⟨passed .plinth 0xD 0 { up with plinth := { up.plinth with safe := true, causes := [] } }, by decide +kernel⟩,
    by decide +kernel, by decide +kernel, by decide +kernel⟩

theorem witness_StoreWritesComplete :
    (∀ c ∈ [1, 2, 3, 4, 5, 6], takes up rqI .mgc MGC.STORE_CMD.off c 15 MGC.STORE_CMD)
    ∧ takes up rqM .mgc MGC.STORE_CMD.off 8 15 MGC.STORE_CMD
    ∧ (up.accepts rqI .mgc MGC.STORE_CMD.off 0x203 0xF0F
      ∧ Page.mgc.touches MGC.STORE_CMD.off 0xF0F = [(MGC.STORE_CMD, 0, 0), (MGC.STORE_SLOT, 0, 0)]) := by
  unfold takes State.accepts Page.only
  exact ⟨by decide +kernel, by decide +kernel, by decide +kernel⟩

theorem witness_ControllerWritesComplete :
    takes (life 3) rqO .mgc MGC.ATT_GO.off 1 1 MGC.ATT_GO
    ∧ takes (up.wr .mgc MGC.AUD_COUNT 1) rqO .mgc MGC.AUD_GO.off 1 1 MGC.AUD_GO
    ∧ (takes up rqI .mgc MGC.AUD_CKPT.off 4 4 MGC.AUD_CKPT ∧ up.mgc.attest = none)
    ∧ (∃ s : State, takes s rqI .mgc MGC.AUD_CKPT.off 4 4 MGC.AUD_CKPT ∧ s.mgc.attest ≠ none)
    ∧ takes (life 3) rqI .lcs LCS.REQ.off 2 7 LCS.REQ ∧ takes (life 4) rqI .lcs LCS.REQ.off 3 7 LCS.REQ
    ∧ takes (life 3) rqI .lcs LCS.REQ.off 4 7 LCS.REQ ∧ takes (life 3) rqM .lcs LCS.REQ.off 5 7 LCS.REQ
    ∧ takes (life 5) rqM .lcs LCS.REQ.off 6 7 LCS.REQ := by
  unfold takes State.accepts Page.only
  exact ⟨by decide +kernel, by decide +kernel, by decide +kernel,
    ⟨{ up with mgc := { up.mgc with attest := some ⟨[], 0, 1, 0⟩ } }, by decide +kernel⟩,
    by decide +kernel, by decide +kernel, by decide +kernel, by decide +kernel, by decide +kernel⟩

theorem witness_HeaderWritesComplete :
    (takes up rqI (.sge 0) HDR.SWRST.off 2 2 HDR.SWRST ∧ (Page.sge 0).blockClass.isSome = true ∧ up.resetting (.sge 0) = false
      ∧ up.inLockedUse (.sge 0) = false)
    ∧ takes up rqI (.sge 0) HDR.EN.off 1 1 HDR.EN
    ∧ takes up rqI (.sge 0) HDR.GO.off (2 ^ HDR.GO.lo) (2 ^ HDR.GO.lo) HDR.GO
    ∧ takes up rqI (.sge 0) HDR.BLK_EVT_STAT.off 1 1 HDR.BLK_EVT_STAT
    ∧ takes up rqI (.sge 0) HDR.BLK_EVT_MASK.off 1 1 HDR.BLK_EVT_MASK
    ∧ (∃ f, Page.ife.cntClr = some f ∧ takes up rqI .ife f.off 1 1 f) := by
  unfold takes State.accepts Page.only
  exact ⟨by decide +kernel, by decide +kernel, by decide +kernel, by decide +kernel, by decide +kernel, ⟨_, rfl, by decide +kernel⟩⟩

theorem witness_RegisterAccessCompletes :
    (∃ (p : Page) (w : Word), up.draw.2.portUp 0 = true
      ∧ (up.draw.2.writeCheck rqI (p.num * 4096 + HDR.BLK_EVT_MASK.off) [(w.toNat, 1), (0, 0)]).1 = 0
      ∧ pageAt (p.num * 4096 / 4096) = some p ∧ p.writesBit HDR.BLK_EVT_MASK.off [(w.toNat, 1), (0, 0)] = true)
    ∧ (up.portUp 0 = true ∧ up.sessionOpen 0 1 = true ∧ pageAt 0 = some .dev ∧ up.pageStatus .dev 0x3C = 0
      ∧ inRetention 0 = false)
    ∧ up.pageOn .bod = true := by
  exact ⟨⟨.sge 0, 1, by decide +kernel⟩, by decide +kernel, by decide +kernel⟩

/-- Camera 0 enabled, its light there, its receiver locked. -/
def camera (s : State := up) : State :=
  ((s.wr .cpx CPX.PORT_EN 1).wr .cpx CPX.LOS 0).wr .cpx CPP.LOCK 1

/-- Stream entry 0 triggered on camera 0, `h` rows a frame, since beat 0. -/
def streaming (h : Nat) (s : State) : State :=
  ((s.setRun 0 { StreamRun.fresh 0 with active := true, period := 10 }).wr .cpx CPS.TRIGGERED 1).wr .cpx CPS.HEIGHT h

theorem witness_CameraCommandsComplete :
    (∃ s : State, s.camEnabled 0 = true ∧ s.camLos 0 = false ∧ s.rd .cpx CPP.LOCK = 0)
    ∧ camera.camDelivers 0 = true
    ∧ (∃ s : State, (s.run 0).active = true ∧ s.cps CPS.TRIGGERED 0 = 1 ∧ 3 < s.frameRows 0
      ∧ s.rowDue (s.run 0) 0 3 ≤ s.time.beatNo ∧ ((s.run 0).frame 0).seen 3 = none)
    ∧ (∃ s : State, (s.run 0).active = true ∧ s.cps CPS.TRIGGERED 0 = 1 ∧ s.cps CPS.LINESCAN 0 = 0
      ∧ (s.run 0).trigger 0 + s.cps CPS.FS_MAX 0 + 1 = s.time.beatNo ∧ ((s.run 0).frame 0).opened = false) :=
  ⟨⟨camera.wr .cpx CPP.LOCK 0, by decide +kernel⟩, by decide +kernel, ⟨streaming 8 (camera (later 100000)), by decide +kernel⟩,
   ⟨(streaming 8 (camera (later 6))).wr .cpx CPS.FS_MAX 5, by decide +kernel⟩⟩

/-- A tunnel descriptor with no class: its camera address is 0, its one data byte 0. -/
def descriptor : TunnelDesc := ⟨[0, 1] ++ zeros 14, 0, false⟩

def sent (tries beat : Nat) (again : Bool := false) : TunnelFrame := ⟨descriptor, 7, beat, tries, 0, 0, again⟩

def tunnel (f : CamPort → CamPort) (s : State := camera) : State := s.setCam 0 (f (s.cam 0))

theorem witness_TunnelCommandsComplete :
    (∃ s : State, s.camEnabled 0 = true ∧ (s.cam 0).outstanding = none ∧ (s.cam 0).sentBeat ≠ some s.time.beatNo
      ∧ (s.cam 0).head = some (descriptor, { s.cam 0 with queue := [] }) ∧ s.sendNow 0 descriptor = some (0, 0))
    ∧ (∃ s : State, s.camDelivers 0 = true ∧ (s.cam 0).outstanding = some (sent 1 0))
    ∧ (∃ s : State, (s.cam 0).outstanding = some (sent 3 0) ∧ (sent 3 0).sent + s.rd .cpx CPX.TUN_ACK_TMO ≤ s.time.beatNo)
    ∧ (∃ s : State, s.camEnabled 0 = true ∧ (s.cam 0).sentBeat ≠ some s.time.beatNo ∧ (s.cam 0).outstanding = some (sent 1 0 true)) :=
  ⟨⟨tunnel fun p => { p with queue := [descriptor] }, by decide +kernel⟩,
   ⟨tunnel fun p => { p with outstanding := some (sent 1 0) }, by decide +kernel⟩,
   ⟨tunnel (fun p => { p with outstanding := some (sent 3 0) }) (camera (later 1000000)), by decide +kernel⟩,
   ⟨tunnel fun p => { p with outstanding := some (sent 1 0 true) }, by decide +kernel⟩⟩

theorem witness_IfeFrameStartCompletes :
    ∃ s : State, s.rd .ife HDR.EN = 1 ∧ s.rd .ife IFX.EN 2 = 1 ∧ s.domainReady 30 = true
      ∧ (∀ n, (s.ife 2).frame = some n → n < 5) ∧ s.Sized := by
  refine ⟨(up.wr .ife HDR.EN 1).wr .ife IFX.EN 1 2, by decide +kernel, by decide +kernel, by decide +kernel, ?_, ?_⟩
  · intro n h
    have hn : (((up.wr .ife HDR.EN 1).wr .ife IFX.EN 1 2).ife 2).frame = none := by decide +kernel
    rw [hn] at h; cases h
  · unfold State.Sized; decide +kernel

/-- One node of a set: its class, anchored to the first stream of its graph. -/
def nodeDesc (c : NodeClass) : NodeDesc :=
  { index := 0, cls := c, engineCtx := 0, step := 0, perFrame := false, mayVary := false, anchor := .stream 0, start := 0, flag := 0
    lane := 0, inFlag := 0, inCount := 0, outCount := 0, outFlag := 0, cmdAddr := 2 ^ 32 }

/-- A running set of one graph with one node. -/
def oneNode (c : NodeClass) : RunSet :=
  { set with pkg := { package with nodes := [nodeDesc c]
                                   sec := { package.sec with graphs := [{ digest := [], streams := [0], stripHeight := 1, firstNode := 0, nodeCount := 1 }] } } }

def strip : Strip := ⟨1, 0, 0, 0, 5, 0, 0, 0, false⟩

def anchored (c : NodeClass) : State := armed fun a => { a with running := some (oneNode c), strips := [strip] }

def nodeRun : NodeRun := ⟨1, 0, 5, 0, 0, none, false, 0, 0, false, false, Digest.start 0⟩

/-- A node of context 4 in a core's running place 0. -/
def coreNode : CoreNode :=
  { slot := 0, locked := false, gset := 0, ctx := 4, node := 0, strip := 0, cmd := 0, busy := false, stage := none
    finished := true, reran := false, needsRerun := false, dead := false, waiting := none, waitSince := 0, poison := none
    noRerun := false, combined := false, digest := Digest.start 0 }

def onCore (n : CoreNode) (s : State := up) : State := s.setCore 0 [n]

/-- An open task of one tensor node. -/
def taskOne (c : NodeClass) : Task := { task with nodes := [nodeDesc c] }

def withTask (k : Task) (s : State := up) : State := armed (fun a => { a with tasks := [k] }) s

def fabric (f : FabricState → FabricState) (s : State := up) : State := { s with fabric := f s.fabric }

/-- The descriptor of a task of one camera-control node on cluster 0, its node at 2^32 + 64, its successor entry at 2^32 + 128. -/
def taskBytes : List Byte :=
  leBytes 4 0x4B534154 ++ leBytes 2 1 ++ leBytes 2 1 ++ leBytes 8 (2 ^ 32 + 64) ++ leBytes 8 (2 ^ 32 + 128) ++ leBytes 2 1
    ++ leBytes 1 1 ++ zeros 37

def nodeBytes : List Byte := leBytes 2 0 ++ leBytes 1 9 ++ zeros 29

def queued : State :=
  let s := (up.store (2 ^ 32) (taskBytes ++ nodeBytes)).wr .amt HDR.EN 1
  { s with link := { s.link with intake := [⟨0, 2, 2 ^ 32, 0, true, false, 0, 0, 0⟩] } }

theorem witness_NodeCommandsComplete :
    ((anchored .tensor).runOf 0 5 false = some (oneNode .tensor, nodeDesc .tensor, strip)
      ∧ (anchored .recordWrite).runOf 0 5 false = some (oneNode .recordWrite, nodeDesc .recordWrite, strip))
    ∧ (∃ s : State, s.runOf 0 5 true = some (oneNode .tensor, nodeDesc .tensor, strip) ∧ s.findRun 1 0 5 = some nodeRun)
    ∧ (∃ (s : State) (n : CoreNode), (s.core 0).nodes = [n] ∧ n.locked = true ∧ n.node = 0 ∧ n.reran = false
      ∧ n.noRerun = false ∧ n.needsRerun = true ∧ ∀ k, k ≠ 0 → (s.core k).nodes = [])
    ∧ (∃ s : State, s.coreOpen 0 = true ∧ (s.core 0).nodes = [] ∧ s.fabric.wiping = []
      ∧ (s.clu 0).readyOf 0 = [⟨4, 0, 0, 0⟩] ∧ s.task? 4 = some (taskOne .cameraControl)
      ∧ s.nodeEngines (nodeDesc .cameraControl) &&& s.enginesBusy 0 = 0)
    ∧ (∃ s : State, s.slotNode 0 0 = some coreNode ∧ s.nodeOf coreNode = some (nodeDesc .tensor))
    ∧ (∃ (s : State) (j : Job) (k : Task), s.takesJobs = true ∧ s.pickJob [] s.jobOrder = some (j, [], 0, 0)
      ∧ s.taskBad (s.jobDesc j) = false ∧ k = s.taskOf j (s.jobDesc j) 0 0
      ∧ (k.nodes.any (({ s.leaveIntake j [] with amt := { (s.leaveIntake j []).amt with
          tasks := (s.leaveIntake j []).amt.tasks ++ [k] } } : State).openNodeBad 0 0)) = false
      ∧ s.policyBad j 0 k.nodes = false ∧ s.settingsLocked 0 k.settings k.nodes = false) := by
  refine ⟨by decide +kernel, ?_, ?_, ?_, ?_, ?_⟩
  · exact ⟨armed (fun a => { a with runs := [nodeRun] }) (anchored .tensor), by decide +kernel⟩
  · refine ⟨onCore { coreNode with locked := true, needsRerun := true }, _, rfl, rfl, rfl, rfl, rfl, rfl, ?_⟩
    intro k hk
    by_cases h : k < 24
    · have : ∀ i : Fin 24, i.val ≠ 0 → ((onCore { coreNode with locked := true, needsRerun := true }).core i.val).nodes = [] := by
        decide +kernel
      exact this ⟨k, h⟩ hk
    · have hl : (onCore { coreNode with locked := true, needsRerun := true }).fabric.cores.length = 24 := by decide +kernel
      unfold State.core
      rw [List.getD_eq_getElem?_getD, List.getElem?_eq_none (by omega)]
      rfl
  · exact ⟨(withTask (taskOne .cameraControl)).setClu 0 { up.clu 0 with ready := [⟨4, 0, 0, 0⟩] }, by decide +kernel⟩
  · exact ⟨onCore coreNode (withTask (taskOne .tensor)), by decide +kernel⟩
  · refine ⟨queued, ⟨0, 2, 2 ^ 32, 0, true, false, 0, 0, 0⟩, _, ?_, ?_, ?_, rfl, ?_, ?_, ?_⟩ <;> decide +kernel

/-- A channel of core 0 with a list of one block at 2^33, its stream enabled. -/
def channel (f : Channel → Channel) (s : State := up) : State :=
  (withChan (f { Channel.fresh 0 0 with active := some ⟨2 ^ 32, 1⟩ }) s).wr (.str 0) STR.EN 1

/-- The same, its block one line of 64 bytes at 2^32 + 4096, the ring of the channel free. -/
def oneBlock (s : State) : State :=
  ((s.store (2 ^ 32) (leBytes 8 (2 ^ 32 + 4096) ++ leBytes 2 1 ++ leBytes 2 1 ++ leBytes 2 1)).wr (.spm 0) SPR.SLOTS 2).wr (.spm 0)
    SPR.SLOT_LOG2 0

theorem witness_StreamCommandsComplete :
    (∃ s : State, (s.chan 0 0).active = some ⟨2 ^ 32, 1⟩ ∧ s.rd (.str 0) STR.EN = 1 ∧ (s.chan 0 0).stalled = none
      ∧ s.chanWaits (s.chan 0 0) = false ∧ (s.chan 0 0).ctx = none ∧ s.chanIn 0 0 = true
      ∧ (let r := s.chanRing 0 0; s.ringGap r (s.ringH r) (s.ringT r) < s.ringN r)
      ∧ ((s.blockAt ⟨2 ^ 32, 1⟩ 0).runs.any fun x => !s.inWindows x.1 x.2) = false
      ∧ s.badIn (s.blockAt ⟨2 ^ 32, 1⟩ 0).runs = none ∧ (s.blockAt ⟨2 ^ 32, 1⟩ 0).runs = [(2 ^ 32 + 4096, 64)])
    ∧ (∃ s : State, (s.chan 0 0).active = some ⟨2 ^ 32, 1⟩ ∧ s.rd (.str 0) STR.EN = 1 ∧ (s.chan 0 0).stalled = none
      ∧ s.chanWaits (s.chan 0 0) = false ∧ (s.chan 0 0).ctx = some 4 ∧ (s.chan 0 0).heldFault = none
      ∧ (s.chan 0 0).walked = false ∧ (s.blockAt ⟨2 ^ 32, 1⟩ 0).invalid (s.ringSlot (s.chanRing 0 0)) = false)
    ∧ (∃ s : State, (s.chan 0 0).stalled = some (0x1000, 0x5001, 7) ∧ 7 + s.rd .mmu MMU.PF_WAIT ≤ s.time.beatNo) :=
  ⟨⟨oneBlock (channel id (armed fun a => { a with
      running := some { set with pkg := { package with sec := { package.sec with
        windows := [⟨2 ^ 32, 8192, 0, 0, false, []⟩] } } } })), by decide +kernel⟩,
   ⟨oneBlock (channel fun c => { c with ctx := some 4 }), by decide +kernel⟩,
   ⟨channel (fun c => { c with stalled := some (0x1000, 0x5001, 7) }) (later 10000000), by decide +kernel⟩⟩

theorem witness_MemoryEventsComplete :
    (∃ s : State, s.fabric.capture = some ⟨0, 0, 0, 0, 0, 0⟩)
    ∧ (∃ s : State, s.fabric.logBuffer = [zeros 64] ∧ s.rd .dig DIG.LOG_EN = 1
      ∧ s.domainReady (35 + s.logRing.1 / 2 ^ 33) = true)
    ∧ (∃ s : State, ⟨true, 3, 5⟩ ∈ s.fabric.wiping ∧ s.wipeHeld ⟨true, 3, 5⟩ = false ∧ Mem.wf s.fabric.mem)
    ∧ (∃ s : State, s.fabric.bulk = some ⟨2 ^ 32, 7, 2⟩ ∧ s.openGddr (2 ^ 32) 16 = true ∧ s.badIn [(2 ^ 32, 16)] = none
      ∧ ∀ i, i < 2 → s.bodRefused (7 + i) (s.loadNat (2 ^ 32 + 8 * i) 8) = false)
    ∧ (up.isGddr (2 ^ 32) = true ∧ up.fabric.eccOn.getD (gddrChannel (2 ^ 32) / 8) true = true)
    ∧ (up.domainReady 35 = true ∧ up.domainReady 36 = true) := by
  refine ⟨⟨fabric fun f => { f with capture := some ⟨0, 0, 0, 0, 0, 0⟩ }, rfl⟩,
    ⟨(fabric fun f => { f with logBuffer := [zeros 64] }).wr .dig DIG.LOG_EN 1, by decide +kernel⟩,
    ⟨fabric fun f => { f with wiping := [⟨true, 3, 5⟩] }, by decide +kernel⟩,
    ⟨fabric fun f => { f with bulk := some ⟨2 ^ 32, 7, 2⟩ }, by decide +kernel⟩, by decide +kernel, by decide +kernel⟩

/-- A software reset of SGE 0 under way. -/
def blkReset (done : Bool) : BlkReset := ⟨(Page.sge 0).num, 0, 2, false, 9, done, false⟩

theorem witness_BlockCommandsComplete :
    (∃ s : State, ((Page.sge 0).num, 1) ∈ s.commits ∧ pageAt (Page.sge 0).num = some (.sge 0)
      ∧ ({ s.applyShadows (.sge 0) 1 with
            commits := setErase ((Page.sge 0).num, 1) (s.applyShadows (.sge 0) 1).commits } : State).committing (.sge 0) = true)
    ∧ (∃ s : State, s.resets = [blkReset false] ∧ ∃ c, (Page.sge 0).blockClass = some c ∧ 0 + c.timeout ≤ s.time.beatNo)
    ∧ (∃ s : State, s.resets = [blkReset true] ∧ (Page.sge 0).plinthGroup = false) :=
  ⟨⟨{ up with commits := [((Page.sge 0).num, 1), ((Page.sge 0).num, 2)] }, by decide +kernel⟩,
   ⟨{ later 1000000 with resets := [blkReset false] }, rfl, _, rfl, by decide +kernel⟩,
   ⟨{ up with resets := [blkReset true] }, by decide +kernel⟩⟩

def withCrc (b : List Byte) : List Byte := b ++ leBytes 4 (crc32c b)

/-- A tensor descriptor in the scratchpad, of one element or of a row of some. -/
def descBytes (base fmt : Nat) (n : Nat := 1) : List Byte :=
  withCrc (leBytes 6 base ++ leBytes 1 8 ++ leBytes 1 fmt ++ leBytes 4 n ++ (List.range 5).flatMap (fun _ => leBytes 4 1)
    ++ zeros 28)

/-- A command, the last of its node, over the descriptors 1–5 of `a`, `b`, `c`, `sa`, `sb` by their formats, absent where none. -/
structure OneCmd where
  cls : Nat
  op : Nat
  a : Option Nat := some 0
  b : Option Nat := none
  c : Option Nat := some 0
  sa : Option Nat := none
  sb : Option Nat := none
  size : Nat := 0
  fmtB : Nat := 0
  imm0 : Nat := 0

def OneCmd.bytes (x : OneCmd) : List Byte :=
  let r (o : Option Nat) (i : Nat) : List Byte := leBytes 3 (if o.isSome then i else 0)
  let d (o : Option Nat) (base : Nat) (n : Nat := 1) : List Byte := match o with | some f => descBytes base f n | none => zeros 64
  withCrc (leBytes 1 (16 * x.cls + x.op) ++ leBytes 1 8 ++ leBytes 1 (x.a.getD 0 + 16 * x.fmtB) ++ leBytes 1 (x.c.getD 0)
      ++ r x.a 1 ++ r x.b 2 ++ r x.c 3 ++ r x.sa 4 ++ r x.sb 5 ++ zeros 1 ++ leBytes 4 x.size ++ leBytes 4 x.size
      ++ leBytes 4 x.size ++ leBytes 1 (17 * x.size) ++ zeros 3 ++ leBytes 2 x.size ++ zeros 2 ++ leBytes 4 x.imm0 ++ zeros 4
      ++ leBytes 2 x.size ++ leBytes 2 x.size ++ zeros 8)
    ++ d x.a 0 ++ d x.b 0x100 (if x.cls = 8 then 4 else 1) ++ d x.c 0x200 ++ d x.sa 0x300 ++ d x.sb 0x400

/-- Core 0 about to run it for the open task of context 4. -/
def issuing (x : OneCmd) : State :=
  fabric (fun f => { f with mem := ((List.range 384).zip x.bytes).filterMap fun c => if c.2 = 0 then none else some (2 ^ 32 + c.1, c.2) })
    (onCore { coreNode with finished := false } (withTask (taskOne .tensor)))

/-- `State.MayRun`, decided. -/
def mayRun (s : State) (slot cls op : Nat) : Bool :=
  match s.issueOf 0 slot with
  | none => false
  | some x => (s.issueFault x).isNone && x.c.cls == cls && x.c.op == op && !s.meetsWipe x && !s.meetsPoison x
      && (s.ringWait x).isNone && (s.underrun x).isEmpty && (s.overwrite x).isEmpty

theorem mayRun_of {s : State} {slot cls op : Nat} (h : mayRun s slot cls op = true) : ∃ x, s.MayRun 0 slot cls op x := by
  unfold mayRun at h
  split at h
  · cases h
  · rename_i x hx
    simp only [Bool.and_eq_true, Option.isNone_iff_eq_none, List.isEmpty_iff, beq_iff_eq, Bool.not_eq_true'] at h
    obtain ⟨⟨⟨⟨⟨⟨⟨h1, h2⟩, h3⟩, h4⟩, h5⟩, h6⟩, h7⟩, h8⟩ := h
    exact ⟨x, ⟨hx, h1, h2, h3, h4, h5, h6, h7, h8⟩⟩

theorem mayRun_all (l : List OneCmd) (h : l.all (fun x => mayRun (issuing x) 0 x.cls x.op) = true) :
    ∀ x ∈ l, ∃ i, (issuing x).MayRun 0 0 x.cls x.op i := fun x hx => mayRun_of (List.all_eq_true.mp h x hx)

theorem witness_TensorComputesComplete :
    ∀ x ∈ ([{ cls := 1, op := 0, b := some 0, size := 1 }, { cls := 2, op := 0, b := some 0, size := 1 },
        { cls := 3, op := 10, b := some 0, sa := some 0 }, { cls := 4, op := 4 }, { cls := 5, op := 0, sa := some 14 },
        { cls := 6, op := 0, sa := some 0, sb := some 0 }, { cls := 7, op := 1 }] : List OneCmd),
      ∃ i, (issuing x).MayRun 0 0 x.cls x.op i :=
  mayRun_all _ (by decide +kernel)

theorem witness_TensorMovesComplete :
    ∀ x ∈ ([{ cls := 8, op := 0, b := some 4, fmtB := 4, a := none }, { cls := 8, op := 1, b := some 4, fmtB := 4, c := none },
        { cls := 9, op := 0 }, { cls := 9, op := 1, imm0 := 8 }, { cls := 10, op := 0 }, { cls := 11, op := 0 }] : List OneCmd),
      ∃ i, (issuing x).MayRun 0 0 x.cls x.op i :=
  mayRun_all _ (by decide +kernel)

/-- A state of core 0 with one node. -/
def running0 (f : CoreNode → CoreNode) (s : State := up) : State :=
  (onCore (f coreNode) (withTask (taskOne .tensor) s)).store (2 ^ 32) ({ cls := 12, op := 2, a := none, c := none } : OneCmd).bytes

theorem witness_TensorControlCompletes :
    (∀ x ∈ ([{ cls := 12, op := 0, a := none, c := none }, { cls := 12, op := 1, a := none, c := none },
        { cls := 12, op := 2, a := none, c := none }] : List OneCmd), ∃ i, (issuing x).MayRun 0 0 x.cls x.op i)
    ∧ (∃ (s : State) (n : CoreNode), s.slotNode 0 0 = some n ∧ n.busy = true ∧ n.stage = none ∧ s.stillWriting 0 n = false
      ∧ s.nodeOf n = some (nodeDesc .tensor) ∧ ∃ c, (s.cmdsOf (nodeDesc .tensor))[n.cmd]? = some c)
    ∧ (∃ (s : State) (c : Contribution), s.fabric.combine = [c] ∧ s.task? c.ctx = some task ∧ task.cluster = 0
      ∧ task.earlierOpen c.core = false)
    ∧ (∃ (s : State) (n : CoreNode), s.slotNode 0 0 = some n ∧ n.locked = false ∧ n.needsRerun = true)
    ∧ (∃ (s : State) (n : CoreNode) (r : RingRef), s.slotNode 0 0 = some n ∧ n.waiting = some r
      ∧ s.nodeOf n = some (nodeDesc .tensor) ∧ (∃ c, (s.cmdsOf (nodeDesc .tensor))[n.cmd]? = some c) ∧ n.waitSince + s.rd (.cmem 0) CMEM.RING_WDOG ≤ s.time.beatNo
      ∧ s.wdogHeld r = false) := by
  refine ⟨mayRun_all _ (by decide +kernel), ⟨running0 fun n => { n with busy := true, finished := false }, _, rfl, ?_⟩,
    ⟨withTask task (fabric fun f => { f with combine := [⟨0, 4, 0, 0, 0, []⟩] }), _, rfl, by decide +kernel⟩,
    ⟨running0 fun n => { n with needsRerun := true }, _, rfl, by decide +kernel⟩,
    ⟨running0 (fun n => { n with waiting := some ⟨false, 0, 0⟩, finished := false }) (later 1000000000), _, _, rfl, rfl,
      by decide +kernel, ⟨_, rfl⟩, by decide +kernel⟩⟩
  refine ⟨rfl, rfl, by decide +kernel, by decide +kernel, _, rfl⟩

/-- Unit 0's test 0 with a run in rotation. -/
def testing (f : TestRun → TestRun) (g : TestState → TestState := id) (s : State := up) : State :=
  { s with rasp := { s.rasp with tests := [g ⟨.unit 0, 0, f ⟨0, 0, true, 0, false⟩, [], none, none, false, false⟩] } }

theorem witness_SelfTestCompletes :
    (∃ (s : State) (x : TestState), s.testOf (.unit 0) 0 = some x ∧ s.instOn (.unit 0) = true ∧ x.current.repeating = false
      ∧ x.current.pos + 1 < testQuanta 0 ∧ x.current.cuts < 2)
    ∧ (∃ (s : State) (x : TestState), s.testOf (.unit 0) 0 = some x ∧ s.instOn (.unit 0) = true ∧ x.current.repeating = false
      ∧ testQuanta 0 ≤ x.current.pos + 1)
    ∧ (∃ (s : State) (x : TestState), s.testOf (.unit 0) 0 = some x ∧ s.instOn (.unit 0) = true ∧ x.current.repeating = true
      ∧ 2 ≤ x.current.cuts)
    ∧ (∃ (s : State) (x : TestState), s.testOf (.unit 0) 0 = some x ∧ x.last = some 5 ∧ x.missed = false ∧ x.expired = false
      ∧ 5 + s.rd .rsp RSP.DI_BEATS < s.time.beatNo ∧ 5 + 4 * s.rd .rsp RSP.DI_BEATS < s.time.beatNo)
    ∧ (up.arrayOn (.scratchpad 0) = true ∧ (up.scrubber (.scratchpad 0)).slow = false ∧ 7 ≤ up.scrubLimit (.scratchpad 0)) :=
  ⟨⟨testing id, _, rfl, by decide +kernel⟩, ⟨testing fun r => { r with pos := 1000000 }, _, rfl, by decide +kernel⟩,
   ⟨testing fun r => { r with repeating := true, cuts := 2 }, _, rfl, by decide +kernel⟩,
   ⟨testing id (fun x => { x with last := some 5 }) (later 100000000), _, rfl, by decide +kernel⟩, by decide +kernel⟩

def managed (f : MgcState → MgcState) (s : State := up) : State := { s with mgc := f s.mgc }

theorem witness_ManagementEventsComplete :
    (∃ s : State, s.mgc.toProgram = [⟨0, 1, 1, 0, 0, [], none⟩])
    ∧ (up.domainReady 38 = true ∧ up.plinth.auditLost = 0)
    ∧ (∃ s : State, s.mgc.storeCmd = some ⟨4, 2, [], 0, 0, 2, 0⟩)
    ∧ (∃ s : State, s.mgc.attest = some ⟨zeros 32, 2 ^ 32, 1, 0⟩ ∧ s.mgc.checkpointDue = false
      ∧ s.ownBlock.2.openGddr (2 ^ 32) reportLen = true)
    ∧ (∃ s : State, s.mgc.audCopy = some ⟨0, 1, 2 ^ 32, false⟩ ∧ s.openGddr (2 ^ 32) (1 * audSize false) = true)
    ∧ (∃ s : State, s.mgc.change = some ⟨4, 2, 0⟩) := by
  refine ⟨⟨managed fun m => { m with toProgram := [⟨0, 1, 1, 0, 0, [], none⟩] }, rfl⟩, by decide +kernel,
    ⟨managed fun m => { m with storeCmd := some ⟨4, 2, [], 0, 0, 2, 0⟩ }, rfl⟩,
    ⟨managed fun m => { m with attest := some ⟨zeros 32, 2 ^ 32, 1, 0⟩ }, rfl, rfl, ?_⟩,
    ⟨managed fun m => { m with audCopy := some ⟨0, 1, 2 ^ 32, false⟩ }, rfl, by decide +kernel⟩,
    ⟨managed fun m => { m with change := some ⟨4, 2, 0⟩ }, rfl⟩⟩
  decide +kernel

/-- `ArmatureEventsComplete`: a load that fails (its package is empty), a start, a stop, a swap, a wait that expired, a retirement;
a load that passes its checks rests on the signature schemes and the decoder of sections (logs 4 and 8). -/
theorem witness_ArmatureEventsComplete :
    (∃ s : State, s.amt.load = some ⟨[], true, 0, 1⟩ ∧ (s.loadFail []).isSome = true)
    ∧ (∃ s : State, s.amt.op = some (.start 0) ∧ s.amt.maquette = some (package, 0) ∧ s.time.phase = .early
      ∧ s.listsAcked package = true ∧ s.chooseEntry package = some 0 ∧ s.amt.running = none)
    ∧ (∃ s : State, s.amt.op = some (.stop 0) ∧ s.amt.running = some set ∧ s.time.phase = .early)
    ∧ (∃ s : State, s.amt.maquette = some (package, 0) ∧ s.amt.running = some set ∧ s.swapsAt s.time.beatNo = true
      ∧ s.time.phase = .early ∧ s.chooseEntry package = some 0)
    ∧ (∃ s : State, s.amt.op = some (.swap 3 0) ∧ 3 + s.rd .amt AMT.SWAP_WAIT ≤ s.time.beatNo)
    ∧ (∃ (s : State) (m : Retiring), s.amt.retiring = some m ∧ s.amt.running = some { set with entry := 1 }
      ∧ m.aborted = false ∧ m.d + 1 ≤ s.time.beatNo ∧ m.s ≤ s.time.beatNo ∧ s.time.phase = .early
      ∧ s.chooseEntry package = some 0)
    ∧ (∃ (s : State) (r : RunSet), s.amt.retiring.isSome = true ∧ s.amt.running = some r ∧ s.chooseEntry r.pkg = none) := by
  exact ⟨⟨armed fun a => { a with load := some ⟨[], true, 0, 1⟩ }, rfl, by decide +kernel⟩,
    ⟨armed fun a => { a with op := some (.start 0), maquette := some (package, 0) }, by decide +kernel⟩,
    ⟨armed (fun a => { a with op := some (.stop 0) }) running, by decide +kernel⟩,
    ⟨armed (fun a => { a with op := some (.swap 0 0), maquette := some (package, 0) }) running, by decide +kernel⟩,
    ⟨armed (fun a => { a with op := some (.swap 3 0) }) (later 1000000000), by decide +kernel⟩,
    ⟨armed (fun a => { a with retiring := some ⟨[], 2, 9, none, false⟩, running := some { set with entry := 1 } }) (later 9), _, rfl,
      by decide +kernel⟩,
    ⟨armed fun a => { a with retiring := some ⟨[], 2, 9, none, false⟩
                             running := some { set with pkg := { package with sec := default } } }, _, rfl, rfl, by decide +kernel⟩⟩

def plinth (f : PlinthState → PlinthState) (s : State := up) : State := { s with plinth := f s.plinth }

theorem witness_RecordCommandsComplete :
    (∃ s : State, s.power.run = .on ∧ s.time.phase = .early ∧ s.power.firstBeat = some 0 ∧ 0 ≤ s.time.beatNo)
    ∧ (∃ (s : State) (r : LatchedRecord), s.plinth.latched = some r ∧ s.time.phase = .latched)
    ∧ (∃ s : State, s.time.phase = .emitted ∧ s.time.windowDone = false ∧ s.plinth.acks = [] ∧ s.plinth.faultQ ≠ [])
    ∧ (∃ (s : State) (m : SafeMark), s.plinth.marks = [m] ∧ s.power.run = .on ∧ s.time.recordsSent ≠ 0) :=
  ⟨⟨powered fun p => { p with firstBeat := some 0 }, by decide +kernel⟩,
   ⟨let s := plinth fun p => { p with latched := some ⟨0, []⟩ }
    { s with time := { s.time with phase := .latched } }, _, rfl, rfl⟩,
   ⟨let s := plinth fun p => { p with faultQ := [⟨0x1010, 0, 0, 0, 0, 0, 0, 0⟩] }
    { s with time := { s.time with phase := .emitted } }, by decide +kernel⟩,
   ⟨let s := plinth fun p => { p with marks := [⟨1, 2, 3⟩] }
    { s with time := { s.time with recordsSent := 1 } }, _, rfl, by decide +kernel⟩⟩

def guarded : State := (powered fun p => { p with checkPassed := true }).wr .pln PLN.SL_LOS 0

theorem witness_DownlinkCommandsComplete :
    (guarded.power.checkPassed = true ∧ (guarded.rd .pln PLN.SL_LOS).testBit 0 = false ∧ downFrame [] = none)
    ∧ (∃ f b, downFrame f = some (0x11, b) ∧ guarded.frameLater 0x11 (field b 1 2) = true)
    ∧ (∃ f b, downFrame f = some (0x12, b) ∧ guarded.frameLater 0x12 (field b 1 2) = true)
    ∧ (∃ f b, downFrame f = some (0x13, b) ∧ guarded.cmdNew (field b 1 2) = true)
    ∧ (∃ f b, downFrame f = some (0x14, b) ∧ guarded.cmdNew (field b 1 2) = true) :=
  ⟨by decide +kernel, ⟨slFrame 0x11 (zeros 10), leBytes 1 0x11 ++ zeros 10, by decide +kernel⟩,
   ⟨slFrame 0x12 (zeros 10), leBytes 1 0x12 ++ zeros 10, by decide +kernel⟩,
   ⟨slFrame 0x13 (zeros 3), leBytes 1 0x13 ++ zeros 3, by decide +kernel⟩,
   ⟨slFrame 0x14 (zeros 2), leBytes 1 0x14 ++ zeros 2, by decide +kernel⟩⟩

theorem witness_RecordCheckIsCrc32c : ∃ r : LatchedRecord, r.body.length = 120 := ⟨⟨0, zeros 120⟩, by decide +kernel⟩

theorem witness_ReasonIsLowestCode :
    ∃ l : List (Nat × Nat), (∀ c ∈ l, c.1 ≠ 0) ∧ l ≠ [] ∧ pickReason l = (0x31, 1) := ⟨[(0x31, 2), (0x31, 1)], by decide⟩

/-- Each verdict at the edges of its codes. -/
theorem test_verdicts :
    [0, 1, 15, 16, 31, 32, 47, 48, 63].map verdictOf = [1, 4, 4, 3, 3, 2, 2, 1, 1] := by decide

theorem witness_ClearFollowsItsResult :
    up.plinth.safe = false
    ∧ (∃ s : State, s.plinth.safe = true ∧ s.plinth.causes ≠ [])
    ∧ (∃ s : State, s.plinth.safe = true ∧ s.plinth.causes = [] ∧ s.checkerFresh = true)
    ∧ (∃ s : State, s.plinth.safe = true ∧ s.plinth.causes = [] ∧ s.checkerFresh = false ∧ s.clearCode ≠ 0)
    ∧ RegFile.wf up.regs :=
  ⟨by decide +kernel, ⟨(plinth fun p => { p with safe := true }).addCause 6 0xFF, by decide +kernel⟩,
   ⟨passed .plinth 0xD 0 (plinth fun p => { p with safe := true, causes := [] }), by decide +kernel⟩,
   ⟨plinth fun p => { p with safe := true, causes := [] }, by decide +kernel⟩, by decide +kernel⟩

theorem witness_BudgetCountsInvalidRecords :
    (RegFile.wf up.regs ∧ up.rd .pln PLN.INV_RUN < 15)
    ∧ 8 ≤ (up.wr .pln PLN.INV_RUN 8).rd .pln PLN.INV_RUN
    ∧ (∃ s : State, s.rd .pln PLN.INV_WIN_MAX < ((s.plinth.history.take 63).filter id).length + 1) :=
  ⟨by decide +kernel, by decide +kernel, ⟨plinth fun p => { p with history := List.replicate 63 true }, by decide +kernel⟩⟩

def pixelFrame : IfeFrame := ⟨1, 1, 0, [], (defaultBlock.take 0x110) ++ leBytes 2 7680 ++ defaultBlock.drop 0x112, [], []⟩

/-- `ColourArithmetic`, and the worked example of chapter 06: 23 771 at an R gain of 7680 is 44 571. -/
theorem witness_ColourArithmetic :
    0 < pixelFrame.h ∧ 0 < pixelFrame.w ∧ 0 ∉ pixelFrame.missing ∧ (pixelFrame.balance [[23771]]).at 0 0 = 44571 := by
  decide +kernel

/-- The cell of the worked example of chapter 09, as the first of a mesh; and a level of two by two. -/
def warpCell : Warp :=
  let n (x y : Nat) : List Byte := leBytes 4 x ++ leBytes 4 y
  { sw := 2, sh := 2, ow := 16, oh := 16, bicubic := false, fill := none, vbound := 8, rowOff := 0, inBits := 16
    mesh := n 303296 228672 ++ n 307379 228685 ++ zeros 48 ++ n 303301 232771 ++ n 307384 232784 ++ zeros 48
    bad := [], src := [[1, 2], [3, 4]], missing := [] }

/-- `ResamplingArithmetic`, and the source point of the worked example of chapter 09. -/
theorem witness_ResamplingArithmetic :
    warpCell.bicubic = false ∧ warpCell.source 4 3 0 = 304063 ∧ warpCell.source 4 3 1 = 229699
    ∧ (∃ l : Level, 0 < l.reduce.h ∧ 0 < l.reduce.w ∧ l.missing = []) :=
  ⟨rfl, by decide +kernel, by decide +kernel, ⟨⟨2, 2, [[1, 2], [3, 4]], []⟩, by decide +kernel⟩⟩

theorem witness_RoundingGenerator :
    (∃ mix : BitVec 64 → BitVec 64, ∀ z : BitVec 64, ∃ a b : BitVec 64, a = (z ^^^ (z >>> 30)) * 0xBF58476D1CE4E5B9
        ∧ b = (a ^^^ (a >>> 27)) * 0x94D049BB133111EB ∧ mix z = b ^^^ (b >>> 31))
      ∧ (255 : BitVec 64) < 256 ∧ (65535 : BitVec 64) < 65536 ∧ (1023 : BitVec 64) < 1024 :=
  ⟨⟨fun z =>
      let a := (z ^^^ (z >>> 30)) * 0xBF58476D1CE4E5B9
      let b := (a ^^^ (a >>> 27)) * 0x94D049BB133111EB
      b ^^^ (b >>> 31), fun _ => ⟨_, _, rfl, rfl, rfl⟩⟩, by decide +kernel⟩

/-- `AddressMap` at the edges of its ranges. -/
theorem witness_AddressMap :
    up.place 0x100053FFFFF = .cmem 5 0x3FFFFF ∧ up.place 0x10005400000 = .spm 20 0 ∧ up.place 0x100059FFFFF = .spm 22 0x1FFFFF
    ∧ up.place 0x10005A00000 = .nothing ∧ up.place 0x3FFFFFFFF = .hole ∧ up.place 0x400000000 = .nothing
    ∧ up.place 0xF0000FFFFFF = .csr ∧ up.place 0xF0001000000 = .nothing ∧ up.place 0xFFFFFFFFFFFF = .host := by decide +kernel

theorem witness_ChannelInterleave :
    (0 : Nat) < 2 ^ 21 ∧ (7 : Nat) < 8 ∧ up.fabric.eccOn.getD 1 true = true
    ∧ ({ up with fabric := { up.fabric with eccOn := [true, false] } } : State).fabric.eccOn.getD 1 true = false := by decide +kernel

theorem witness_IntegerConversion :
    ((-128, 127) : Int × Int) = intRange 1 ∧ (127 : Int) ≤ 127 ∧ (127 : Int) < 128 ∧ (-129 : Int) < -128 := by decide +kernel

theorem witness_FloatCodesRoundTrip : 0x7B < 2 ^ fmtBits 0xA ∧ (decodeElem 0xA 0x7B).nonFinite = false := by decide +kernel

theorem witness_FieldsFitTheirWords : Page.dev ∈ allPages ∧ Page.dev.fields ≠ [] := by decide +kernel

/-! ### The spec's own numbers -/

/-- R23's check value. -/
theorem test_crc32c : crc32c ((List.range 9).map fun i => BitVec.ofNat 8 (0x31 + i)) = 0xE3069283 := by decide +kernel

/-- Chapter 01's worked example: POSITION of record 1 000 048. -/
theorem test_position : lineAt ⟨49999012, 1234567890, 0⟩ ⟨50001507, 1234568174, 1⟩ 50000000 = 1234568002 := by decide +kernel

/-- Chapter 12's worked example: the block's scale, its largest element under RNE and SR, its small element under SR. -/
theorem test_fp8e4_block :
    blockScale 0xA [.fin false 11167334 (-19), .fin false 13421773 (-28)] = 0x7B
    ∧ (encodeElem 0xA 0 0 (.fin false 11167334 (-15))).code = 0x7B ∧ (encodeElem 0xA 5 0x60000000 (.fin false 11167334 (-15))).code = 0x7B
    ∧ (encodeElem 0xA 5 0xC0000000 (.fin false 13421773 (-24))).code = 0x35
    ∧ (encodeElem 0xA 5 0xE0000000 (.fin false 13421773 (-24))).code = 0x34
    ∧ (encodeElem 0xA 0 0 (.fin false 13421773 (-24))).code = 0x35 := by decide +kernel

/-- Chapter 07's worked example: the fitted disparity. -/
def stereo : Stereo :=
  { w := 64, h := 1, win := 64, lrEn := true, fit := 0, p1 := 0, p2Max := 0, p2Edge := 0, cwCen := 0, cwAd := 0, adTrunc := 0
    uniq := 26, flatT := 96, lrTol := 16, satLevel := 4095, bc := (List.replicate 14 0) ++ [-38, -42] ++ List.replicate 48 0
    pred := [], left := [], right := [], leftMissing := [], rightMissing := [], lostPaths := [] }

theorem test_disparity : stereo.fitted [(551, 412), (552, 260), (553, 318), (554, 540)] ⟨552, 260, 540, 1630⟩ = 0x22860 := by
  decide +kernel

/-- Chapter 06's worked example: black level of an R pixel. -/
theorem test_black_level :
    (({ pixelFrame with par := defaultBlock.take 0x40 ++ leBytes 2 1024 ++ leBytes 6 0 ++ leBytes 2 16644 ++ defaultBlock.drop 0x4A } :
      IfeFrame).black [[19744]]).at 0 0 = 19017 := by decide +kernel

/-- Chapter 05's worked example: an exposure change sent in its window, and one that waits. -/
def exposure (beat : Nat) : State :=
  ((((camera (later beat)).setRun 0 { StreamRun.fresh 0 with active := true, b0 := 6000000, period := 8333 }).wr .cpx CPS.TRIGGERED
    1).wr .cpx CPS.LATCH_MARGIN 100).wr .cpx CPS.DELAY 2 |>.wr .cpx CPS.EN 1

def exposureWrite : TunnelDesc := ⟨[0, 1] ++ zeros 10 ++ [8, 0, 123, 0], 123, false⟩

theorem test_exposure_window :
    (exposure 7010000).sendNow 0 exposureWrite = some (121, 123) ∧ (exposure 7016525).sendNow 0 exposureWrite = some (121, 123)
    ∧ (exposure 7016526).sendNow 0 exposureWrite = none ∧ (exposure 7016627).sendNow 0 exposureWrite = some (122, 124) := by
  decide +kernel

/-- Chapter 20's worked example: a penalty of a stereo context changed through its shadow; the check that refuses it. -/
def penalty : State :=
  (((up.wr (.sge 3) SGX.WIDTH 2048 1).wr (.sge 3) SGX.HEIGHT 1536 1).wr (.sge 3) SGX.LEFT_SRC 0x3F 1).wr (.sge 3) SGX.RIGHT_SRC 0x3F 1

theorem test_penalty_shadow :
    pageAt 0x169 = some (.sge 3) ∧ (Page.sge 3).blkId = 0x9003
    ∧ (penalty.regWrite ⟨0, 2, 0⟩ 0x169208 [(10, 0x3F)] false).rdShadow (.sge 3) SGX.P1 1 = 10
    ∧ (penalty.regWrite ⟨0, 2, 0⟩ 0x169208 [(10, 0x3F)] false).rd (.sge 3) SGX.P1 1 = 8
    ∧ (penalty.writeCheck ⟨0, 2, 0⟩ 0x169208 [(0x70, 0x7F)]).1 = 0x04 := by decide +kernel

theorem test_penalty_refused :
    (let s := (penalty.wrShadow (.sge 3) SGX.P2_MAX 5 1).wrShadow (.sge 3) SGX.P1 10 1
     let t := s.regWrite ⟨0, 2, 0⟩ 0x169024 [(1, 1)] false
     (s.writeCheck ⟨0, 2, 0⟩ 0x169024 [(1, 1)]).1 = 0x0B ∧ t.rd (.sge 3) HDR.REJECT_CODE = 1 ∧ t.rd (.sge 3) HDR.REJECT_WORD = 0x82) := by
  decide +kernel

/-- Chapter 15's worked example: walk level 3 and the part byte 0x0B need a table in memory; its block covers four pages. -/
theorem test_block_pages :
    (parseBlock (leBytes 6 0x100000280000 ++ zeros 2 ++ leBytes 2 64 ++ leBytes 2 16 ++ leBytes 2 1 ++ zeros 2 ++ leBytes 4 16384
      ++ zeros 12)).pages = [0x10000028, 0x10000029, 0x1000002A, 0x1000002B] := by decide +kernel

end Sys2Proof.Tests
end

section
/-! PROOFS. Settles O7 (R6): the beat counter. Every command but the beat boundary and the three that restart the power-on
is a step of the machine within one beat (`Keeps`). -/

namespace Sys2Proof.Machine

/-- The frame of a command that neither counts a beat nor takes the power away: one case per command, by that command's own
`_keeps` lemma. Where that lemma leaves open an operand the command ignores, the operand is named. -/
theorem exec_keeps {c : Instr} {s t : State} (h : exec c s = .next t) (hbeat : ∀ vin temps, c ≠ .beatBoundary vin temps)
    (hon : c ≠ .powerOn) (hdet : c ≠ .powerOnDetectorStop) (haon : c ≠ .aonThermalStop) : Keeps s t := by
  cases c with
  | powerOn => exact absurd rfl hon
  | powerOnRelease => exact execPowerOnRelease_keeps (.refl s) h
  | plinthStartupCheck => exact execPlinthStartupCheck_keeps (.refl s) h
  | beatBoundary vin temps => exact absurd rfl (hbeat vin temps)
  | retrainCycleEnd => exact execRetrainCycleEnd_keeps (.refl s) h
  | recordLatch => exact execRecordLatch_keeps (.refl s) h
  | recordEmit => exact execRecordEmit_keeps (.refl s) h
  | faultWindow => exact execFaultWindow_keeps (.refl s) h
  | safeMark => exact execSafeMark_keeps (.refl s) h
  | resetNFall => exact execResetNFall_keeps (.refl s) h
  | resetNRise => exact execResetNRise_keeps (.refl s) h
  | warmResetBegin => exact execWarmResetBegin_keeps (.refl s) h
  | warmRestart => exact execWarmRestart_keeps (.refl s) h
  | pdcOnReq => exact execPdcOnReq_keeps (.refl s) h
  | pdcRampStart => exact execPdcRampStart_keeps (.refl s) h
  | domainReady => exact execDomainReady_keeps (.refl s) h
  | domainWakeTimeout => exact execDomainWakeTimeout_keeps (.refl s) h
  | powerGoodLost => exact execPowerGoodLost_keeps (.refl s) h
  | pdcIdleOff => exact execPdcIdleOff_keeps (.refl s) h
  | sleepEnter => exact execSleepEnter_keeps (.refl s) h
  | wakeTimer => exact execWakeTimer_keeps (.refl s) h
  | wakePd38Start => exact execWakePd38Start_keeps (.refl s) h
  | regulatorProtection => exact execRegulatorProtection_keeps (.refl s) h
  | powerOnDetectorStop => exact absurd rfl hdet
  | thermalTrip => exact execThermalTrip_keeps (.refl s) h
  | aonThermalStop => exact absurd rfl haon
  | refLoss => exact execRefLoss_keeps (.refl s) h
  | clkRevert => exact execClkRevert_keeps (.refl s) h
  | clkmFirstLock => exact execClkmFirstLock_keeps (.refl s) h
  | lossOfSignalAssert => exact execLossOfSignalAssert_keeps (.refl s) h
  | lossOfSignalDeassert => exact execLossOfSignalDeassert_keeps (.refl s) h
  | laserEol => exact execLaserEol_keeps (.refl s) h
  | firmwareVerify => exact execFirmwareVerify_keeps (.refl s) h
  | optionPass => exact execOptionPass_keeps (.refl s) h
  | blkSwrst => exact execBlkSwrst_keeps (.refl s) h
  | blkResetIdle => exact execBlkResetIdle_keeps (.refl s) h
  | blkResetForced => exact execBlkResetForced_keeps (.refl s) h
  | blkResetDone => exact execBlkResetDone_keeps (.refl s) h
  | blkEnWrite => exact execBlkEnWrite_keeps (.refl s) h
  | blkCommitGo => exact execBlkCommitGo_keeps (.refl s) h
  | commitApply => exact execCommitApply_keeps (.refl s) h
  | blkEvtStatClear => exact execBlkEvtStatClear_keeps (.refl s) h
  | blkEvtMaskWrite => exact execBlkEvtMaskWrite_keeps (.refl s) h
  | cntClr => exact execCntClr_keeps (.refl s) h
  | plainRegisterWrite => exact execPlainRegisterWrite_keeps (.refl s) h
  | regRd => exact execRegRd_keeps (.refl s) h
  | devBeatRead => exact execDevBeatRead_keeps (.refl s) h
  | hlBlockLock => exact execHlBlockLock_keeps (.refl s) h
  | hello _ _ _ width => exact execHello_keeps (a4 := width) (.refl s) h
  | helloResend => exact execHelloResend_keeps (.refl s) h
  | cellReceive => exact execCellReceive_keeps (.refl s) h
  | nak => exact execNak_keeps (.refl s) h
  | replayTmo => exact execReplayTmo_keeps (.refl s) h
  | credit _ _ _ inc2 => exact execCredit_keeps (a4 := inc2) (.refl s) h
  | idle => exact execIdle_keeps (.refl s) h
  | retrain => exact execRetrain_keeps (.refl s) h
  | retrainDone => exact execRetrainDone_keeps (.refl s) h
  | retrainTimeout => exact execRetrainTimeout_keeps (.refl s) h
  | lanesDarkTimeout => exact execLanesDarkTimeout_keeps (.refl s) h
  | keepalive => exact execKeepalive_keeps (.refl s) h
  | memRd => exact execMemRd_keeps (.refl s) h
  | memWr => exact execMemWr_keeps (.refl s) h
  | hostCompletion => exact execHostCompletion_keeps (.refl s) h
  | hostTimeout => exact execHostTimeout_keeps (.refl s) h
  | jobSubmit => exact execJobSubmit_keeps (.refl s) h
  | jobIntakeAdmit => exact execJobIntakeAdmit_keeps (.refl s) h
  | sessionOpen => exact execSessionOpen_keeps (.refl s) h
  | sessionResponse => exact execSessionResponse_keeps (.refl s) h
  | sessionResult => exact execSessionResult_keeps (.refl s) h
  | lockoutEnd => exact execLockoutEnd_keeps (.refl s) h
  | nonceExpire => exact execNonceExpire_keeps (.refl s) h
  | sessionClose => exact execSessionClose_keeps (.refl s) h
  | recCopy => exact execRecCopy_keeps (.refl s) h
  | evtLoss => exact execEvtLoss_keeps (.refl s) h
  | bootBegin => exact execBootBegin_keeps (.refl s) h
  | bootBeginReady => exact execBootBeginReady_keeps (.refl s) h
  | bootChunk => exact execBootChunk_keeps (.refl s) h
  | bootEnd => exact execBootEnd_keeps (.refl s) h
  | cpBlockLock => exact execCpBlockLock_keeps (.refl s) h
  | cpLockLoss => exact execCpLockLoss_keeps (.refl s) h
  | transportPacket => exact execTransportPacket_keeps (.refl s) h
  | fs => exact execFs_keeps (.refl s) h
  | fe _ _ frameNo => exact execFe_keeps (a3 := frameNo) (.refl s) h
  | lsLe cam vc lineEnd line =>
    exact execLsLe_keeps (a1 := cam) (a2 := vc) (a3 := lineEnd) (a4 := line) (.refl s) h
  | longPacket => exact execLongPacket_keeps (.refl s) h
  | rowDeadline => exact execRowDeadline_keeps (.refl s) h
  | fsDeadline => exact execFsDeadline_keeps (.refl s) h
  | tunPush => exact execTunPush_keeps (.refl s) h
  | tunnelSend => exact execTunnelSend_keeps (.refl s) h
  | tunnelAck => exact execTunnelAck_keeps (.refl s) h
  | tunAckTmo => exact execTunAckTmo_keeps (.refl s) h
  | portEn => exact execPortEn_keeps (.refl s) h
  | ifeFrameStart => exact execIfeFrameStart_keeps (.refl s) h
  | pqPush => exact execPqPush_keeps (.refl s) h
  | nodeStartClock => exact execNodeStartClock_keeps (.refl s) h
  | rerunStart => exact execRerunStart_keeps (.refl s) h
  | nodeFlagClock => exact execNodeFlagClock_keeps (.refl s) h
  | recordWrite => exact execRecordWrite_keeps (.refl s) h
  | nodeDispatch => exact execNodeDispatch_keeps (.refl s) h
  | nodeComplete => exact execNodeComplete_keeps (.refl s) h
  | matmul => exact execMatmul_keeps (.refl s) h
  | conv => exact execConv_keeps (.refl s) h
  | eltwiseAdd => exact execEltwiseAdd_keeps (.refl s) h
  | eltwiseSub => exact execEltwiseSub_keeps (.refl s) h
  | eltwiseMul => exact execEltwiseMul_keeps (.refl s) h
  | eltwiseMax => exact execEltwiseMax_keeps (.refl s) h
  | eltwiseMin => exact execEltwiseMin_keeps (.refl s) h
  | fma => exact execFma_keeps (.refl s) h
  | scaleBias => exact execScaleBias_keeps (.refl s) h
  | abs => exact execAbs_keeps (.refl s) h
  | neg => exact execNeg_keeps (.refl s) h
  | clamp => exact execClamp_keeps (.refl s) h
  | select => exact execSelect_keeps (.refl s) h
  | cmpgt => exact execCmpgt_keeps (.refl s) h
  | shift => exact execShift_keeps (.refl s) h
  | reduceSum => exact execReduceSum_keeps (.refl s) h
  | reduceSumsq => exact execReduceSumsq_keeps (.refl s) h
  | reduceMax => exact execReduceMax_keeps (.refl s) h
  | reduceMin => exact execReduceMin_keeps (.refl s) h
  | argmax => exact execArgmax_keeps (.refl s) h
  | lutPwl => exact execLutPwl_keeps (.refl s) h
  | lutDirect => exact execLutDirect_keeps (.refl s) h
  | normLayer => exact execNormLayer_keeps (.refl s) h
  | normRms => exact execNormRms_keeps (.refl s) h
  | normL2 => exact execNormL2_keeps (.refl s) h
  | softmax => exact execSoftmax_keeps (.refl s) h
  | logsoftmax => exact execLogsoftmax_keeps (.refl s) h
  | gather => exact execGather_keeps (.refl s) h
  | scatter => exact execScatter_keeps (.refl s) h
  | transpose => exact execTranspose_keeps (.refl s) h
  | permute => exact execPermute_keeps (.refl s) h
  | convert => exact execConvert_keeps (.refl s) h
  | copy => exact execCopy_keeps (.refl s) h
  | setFlag => exact execSetFlag_keeps (.refl s) h
  | decrement => exact execDecrement_keeps (.refl s) h
  | fence => exact execFence_keeps (.refl s) h
  | chainComplete => exact execChainComplete_keeps (.refl s) h
  | orderedCombine => exact execOrderedCombine_keeps (.refl s) h
  | openRerun => exact execOpenRerun_keeps (.refl s) h
  | scrubPass => exact execScrubPass_keeps (.refl s) h
  | segmentWipeDone => exact execSegmentWipeDone_keeps (.refl s) h
  | pmCaptureDone => exact execPmCaptureDone_keeps (.refl s) h
  | pmRelease => exact execPmRelease_keeps (.refl s) h
  | ringWaitRelease => exact execRingWaitRelease_keeps (.refl s) h
  | ringWatchdog => exact execRingWatchdog_keeps (.refl s) h
  | streamArm => exact execStreamArm_keeps (.refl s) h
  | streamBlockDone => exact execStreamBlockDone_keeps (.refl s) h
  | streamLate => exact execStreamLate_keeps (.refl s) h
  | mmuWalkDone => exact execMmuWalkDone_keeps (.refl s) h
  | resumeCtx => exact execResumeCtx_keeps (.refl s) h
  | pfWaitExpire => exact execPfWaitExpire_keeps (.refl s) h
  | invCtx => exact execInvCtx_keeps (.refl s) h
  | gddrAccessDone => exact execGddrAccessDone_keeps (.refl s) h
  | bodEntWrite => exact execBodEntWrite_keeps (.refl s) h
  | bodEntRead => exact execBodEntRead_keeps (.refl s) h
  | bulkGo => exact execBulkGo_keeps (.refl s) h
  | bulkDone => exact execBulkDone_keeps (.refl s) h
  | load => exact execLoad_keeps (.refl s) h
  | loadAddr => exact execLoadAddr_keeps (.refl s) h
  | loadEnd => exact execLoadEnd_keeps (.refl s) h
  | start => exact execStart_keeps (.refl s) h
  | admitBegin => exact execAdmitBegin_keeps (.refl s) h
  | stop => exact execStop_keeps (.refl s) h
  | stopEffect => exact execStopEffect_keeps (.refl s) h
  | swap => exact execSwap_keeps (.refl s) h
  | cleanBoundary => exact execCleanBoundary_keeps (.refl s) h
  | swapWaitExpire => exact execSwapWaitExpire_keeps (.refl s) h
  | discard => exact execDiscard_keeps (.refl s) h
  | fallbackEntered => exact execFallbackEntered_keeps (.refl s) h
  | fallbackAbort => exact execFallbackAbort_keeps (.refl s) h
  | taskStart => exact execTaskStart_keeps (.refl s) h
  | cancelCtx => exact execCancelCtx_keeps (.refl s) h
  | digLogWrite => exact execDigLogWrite_keeps (.refl s) h
  | odometry => exact execOdometry_keeps (.refl s) h
  | vtime => exact execVtime_keeps (.refl s) h
  | inhibit => exact execInhibit_keeps (.refl s) h
  | clear => exact execClear_keeps (.refl s) h
  | plnClear => exact execPlnClear_keeps (.refl s) h
  | plnInhibit => exact execPlnInhibit_keeps (.refl s) h
  | rspQuantumEnd => exact execRspQuantumEnd_keeps (.refl s) h
  | quantumCut => exact execQuantumCut_keeps (.refl s) h
  | diMissed => exact execDiMissed_keeps (.refl s) h
  | diExpired => exact execDiExpired_keeps (.refl s) h
  | rspReq => exact execRspReq_keeps (.refl s) h
  | writeFirmware => exact execWriteFirmware_keeps (.refl s) h
  | writeOptions => exact execWriteOptions_keeps (.refl s) h
  | writeGraph => exact execWriteGraph_keeps (.refl s) h
  | eraseGraph => exact execEraseGraph_keeps (.refl s) h
  | writeKeys => exact execWriteKeys_keeps (.refl s) h
  | raiseFwFloor => exact execRaiseFwFloor_keeps (.refl s) h
  | writeFactory => exact execWriteFactory_keeps (.refl s) h
  | storeDone => exact execStoreDone_keeps (.refl s) h
  | attGo => exact execAttGo_keeps (.refl s) h
  | attDone => exact execAttDone_keeps (.refl s) h
  | audGo => exact execAudGo_keeps (.refl s) h
  | audDone => exact execAudDone_keeps (.refl s) h
  | audCkpt => exact execAudCkpt_keeps (.refl s) h
  | auditDrain => exact execAuditDrain_keeps (.refl s) h
  | lcToProvisioned => exact execLcToProvisioned_keeps (.refl s) h
  | lcToService => exact execLcToService_keeps (.refl s) h
  | lcToDiagnose => exact execLcToDiagnose_keeps (.refl s) h
  | lcToReturn => exact execLcToReturn_keeps (.refl s) h
  | lcToScrapped => exact execLcToScrapped_keeps (.refl s) h
  | lcChanged => exact execLcChanged_keeps (.refl s) h
  | auditProgramDone => exact execAuditProgramDone_keeps (.refl s) h
  | scrubSlow => exact execScrubSlow_keeps (.refl s) h

/-- A part without power has counted no beat. -/
theorem State.withoutPower_beatNo (s : State) (run : RunPhase) : (s.withoutPower run).time.beatNo = 0 := rfl

/-- POWER_ON has no effect or leaves the part without power, at beat 0 (R51). -/
theorem execPowerOn_beatNo {s t : State} (h : execPowerOn s = .next t) : t = s ∨ t.time.beatNo = 0 := by
  cases h
  split
  · exact .inr (s.withoutPower_beatNo _)
  · exact .inl rfl

/-- The power-on detector's stop has no effect or takes the power away. -/
theorem execPowerOnDetectorStop_beatNo {s t : State} (h : execPowerOnDetectorStop s = .next t) :
    t = s ∨ t.time.beatNo = 0 := by
  cases h
  split
  · exact .inl rfl
  · exact .inr (s.withoutPower_beatNo _)

/-- The AON thermal stop has no effect or takes the power away. -/
theorem execAonThermalStop_beatNo {s t : State} (h : execAonThermalStop s = .next t) : t = s ∨ t.time.beatNo = 0 := by
  cases h
  split
  · exact .inl rfl
  · exact .inl rfl
  all_goals exact .inr (s.withoutPower_beatNo _)

/-- The beat counter moves by one over a whole boundary: `nextBeat` counts, the rest of the boundary keeps the beat. -/
theorem State.beat_beatNo (s : State) (vin : Nat) (temps : List Int) :
    (s.beat vin temps).time.beatNo = s.time.beatNo + 1 :=
  State.beat_keeps.beat

/-- A boundary with its fifteen temperatures is counted while AON runs (R7). -/
theorem execBeatBoundary_counts {s : State} {vin : BitVec 16} {temps : List Int} (hlen : temps.length = 15)
    (hrun : s.plinthOn = true ∨ s.power.run = .failedCheck) :
    execBeatBoundary vin temps s = .next (s.beat vin.toNat temps) := by
  simp [execBeatBoundary, hlen, hrun]

/-- Before the release that begins beat 0 a boundary is not counted. -/
theorem execBeatBoundary_starting {s : State} {vin : BitVec 16} {temps : List Int} (hlen : temps.length = 15)
    (hrun : s.power.run = .starting) : execBeatBoundary vin temps s = .next s := by
  simp [execBeatBoundary, hlen, State.plinthOn, hrun]

/-- Settles O7: BEAT_NO counts the beat boundaries and nothing else. -/
theorem beatsCountByOne : Obligations.BeatsCountByOne := by
  unfold Obligations.BeatsCountByOne
  refine ⟨?counts, ?keeps, ?restarts, ?early⟩
  case counts =>
    intro s t vin temps hlen hrun ht
    rw [ht]
    exact ⟨execBeatBoundary_counts hlen hrun, s.beat_beatNo _ _⟩
  case keeps =>
    intro c s t h hbeat hon hdet haon
    exact (exec_keeps h hbeat hon hdet haon).beat
  case restarts =>
    rintro c s t h (rfl | rfl | rfl)
    · exact execPowerOn_beatNo h
    · exact execPowerOnDetectorStop_beatNo h
    · exact execAonThermalStop_beatNo h
  case early =>
    intro s vin temps hlen hrun
    exact execBeatBoundary_starting hlen hrun

end Sys2Proof.Machine
end

section
/-! PROOFS. Settles O49 (R23): the check of a record. -/

namespace Sys2Proof.Machine

theorem leBytes_length (n v : Nat) : (leBytes n v).length = n := by
  induction n generalizing v with
  | zero => rfl
  | succ n ih => simp [leBytes, ih]

/-- A bit of the CRC without a branch: the polynomial counts as often as the bit shifted out. -/
theorem crcStepR_eq (poly c : Nat) : crcStepR poly c = Nat.xor (c / 2) (c % 2 * poly) := by
  rcases Nat.mod_two_eq_zero_or_one c with h | h
  · rw [crcStepR, if_neg (by omega), h, Nat.zero_mul]
    exact (Nat.xor_zero (c / 2)).symm
  · rw [crcStepR, if_pos h, h, Nat.one_mul]
    rfl

/-- The bits of a CRC, as a fold over their numbers. -/
theorem crcBitsR_eq_foldl (poly n c : Nat) :
    crcBitsR poly n c = (List.range n).foldl (fun x _ => Nat.xor (x / 2) (x % 2 * poly)) c := by
  induction n generalizing c with
  | zero => rfl
  | succ n ih => simp only [crcBitsR, ih, crcStepR_eq, List.range_succ_eq_map, List.foldl_cons, List.foldl_map]

/-- A CRC goes on after a byte from that byte's eight bits. -/
theorem crcR_cons (poly c : Nat) (b : Byte) (l : List Byte) :
    crcR poly c (b :: l) = crcR poly (crcBitsR poly 8 (Nat.xor c b.toNat)) l := rfl

section
variable {r : LatchedRecord} (seq : BitVec 32) (hr : r.body.length = 120)
include hr

/-- A record is checked over 124 bytes: its body and SEQ (R13, R23). -/
theorem LatchedRecord.checked_length : (r.body ++ leBytes 4 seq.toNat).length = 124 := by
  simp [hr, leBytes_length]

theorem LatchedRecord.bytes_length : (r.bytes seq).length = 128 := by
  simp [LatchedRecord.bytes, hr, leBytes_length]

theorem LatchedRecord.bytes_take : (r.bytes seq).take 124 = r.body ++ leBytes 4 seq.toNat :=
  List.take_left' (checked_length seq hr)

theorem LatchedRecord.bytes_drop : (r.bytes seq).drop 124 = leBytes 4 (crc32c ((r.bytes seq).take 124)) := by
  rw [bytes_take seq hr]
  exact List.drop_left' (checked_length seq hr)
end

/-- Settles O49: the check value by evaluation, the polynomial's bits by `crcBitsR_eq_foldl`, the record's bytes by their
lengths. -/
theorem recordCheckIsCrc32c : Obligations.RecordCheckIsCrc32c := by
  unfold Obligations.RecordCheckIsCrc32c
  refine ⟨by decide +kernel, fun _ => rfl, fun l b c => ?_, fun r seq hr => ⟨?_, ?_, ?_⟩⟩
  · rw [crcR_cons, crcBitsR_eq_foldl]
  · exact LatchedRecord.bytes_length seq hr
  · exact LatchedRecord.bytes_take seq hr
  · exact LatchedRecord.bytes_drop seq hr

end Sys2Proof.Machine
end

section
/-! PROOFS. Settles O53 (R140, R142): white balance and the colour matrix of the image front end. -/

namespace Sys2Proof.Machine

/-- A clamp between ordered bounds, as a maximum of a minimum. -/
theorem clampInt_eq_max_min {lo hi : Int} (h : lo ≤ hi) (x : Int) : clampInt lo hi x = max lo (min hi x) := by
  unfold clampInt
  split
  · omega
  · split <;> omega

theorem clamp16_eq_max_min (x : Int) : clamp16 x = max 0 (min 65535 x) :=
  clampInt_eq_max_min (by decide) x

/-- Rounding off at least one bit: half of the last place is added, then the bits are dropped (R129). -/
theorem rnd_succ (v : Int) (s : Nat) : rnd v (s + 1) = (v + 2 ^ s) / 2 ^ (s + 1) := rfl

/-- The twelve fraction bits of white balance and of the colour matrix, rounded off. -/
theorem rnd_twelve (v : Int) : rnd v 12 = (v + 2048) / 4096 := rnd_succ v 11

/-- A stage at a pixel of the frame, in a row that is not missing, is its function of that site (R130). -/
theorem IfeFrame.stage_at {f : IfeFrame} {r c : Nat} (hr : r < f.h) (hc : c < f.w) (hm : r ∉ f.missing)
    (g : Nat → Nat → Int) : (f.stage g).at r c = g r c := by
  simp [IfeFrame.stage, Plane.at, List.getD_eq_getElem?_getD, hr, hc, hm]

/-- Each of the three planes of stage 7 is a stage of its own row of the matrix (R142). -/
theorem IfeFrame.matrix_getD (f : IfeFrame) (x : Rgb) {i : Nat} (hi : i < 3) :
    [(f.matrix x).r, (f.matrix x).g, (f.matrix x).b].getD i []
      = f.stage fun r c => clamp16 (rnd (f.dot x (0x130 + 6 * i) r c) 12 + s16 f.par (0x142 + 2 * i)) := by
  match i, hi with
  | 0, _ => rfl
  | 1, _ => rfl
  | 2, _ => rfl

/-- Settles O53: each value is its stage's function of the site (`IfeFrame.stage_at`), whose rounding and clamp are the
arithmetic stated. -/
theorem colourArithmetic : Obligations.ColourArithmetic := by
  unfold Obligations.ColourArithmetic
  intro f r c hr hc hm
  refine ⟨fun p => ?balance, fun x i hi => ?matrix⟩
  case balance => rw [IfeFrame.balance, IfeFrame.stage_at hr hc hm, clamp16_eq_max_min, rnd_twelve]
  case matrix => rw [IfeFrame.matrix_getD f x hi, IfeFrame.stage_at hr hc hm, clamp16_eq_max_min, rnd_twelve, IfeFrame.dot]

end Sys2Proof.Machine
end

section
/-! PROOFS. Settles O54 (R209, R210, R221): the warp's source point and bilinear value, and a Gaussian level. -/

namespace Sys2Proof.Machine

/-- The eight fraction bits of a source point and of a binomial sum, rounded off. -/
theorem rnd_eight (v : Int) : rnd v 8 = (v + 128) / 256 := rnd_succ v 7

/-- The sixteen fraction bits of a bilinear value, rounded off. -/
theorem rnd_sixteen (v : Int) : rnd v 16 = (v + 32768) / 65536 := rnd_succ v 15

/-! ### The warp -/

/-- A bilinear output pixel, its taps about the source point's whole part (R210, R213). -/
theorem Warp.pixel_of_bilinear {t : Warp} (hb : t.bicubic = false) {y x : Nat} {ix iy d : Int}
    (hix : ix = t.source y x 0 / 256) (hiy : iy = t.source y x 1 / 256) (hd : d = t.tap 0 iy ix) :
    t.pixel y x = rnd (bilin 8 (t.source y x 0 % 256) (t.source y x 1 % 256) (t.tap d iy ix) (t.tap d iy (ix + 1))
      (t.tap d (iy + 1) ix) (t.tap d (iy + 1) (ix + 1))) 16 := by
  subst hd hix hiy
  simp [Warp.pixel, hb]

/-! ### A level of the pyramid -/

theorem ceilDiv_two (n : Nat) : ceilDiv n 2 = (n + 1) / 2 := rfl

/-- A site of a plane made of a function is that function there. -/
theorem tab_at {h w r c : Nat} (hr : r < h) (hc : c < w) (f : Nat → Nat → Int) : (tab h w f).at r c = f r c := by
  simp [tab, Plane.at, List.getD_eq_getElem?_getD, hr, hc]

theorem sumI_eq_sum (l : List Int) : sumI l = l.sum := List.sum_eq_foldl.symm

/-- The binomial sum as a sum of the sums of its rows. -/
theorem binomialSum_eq_sum (f : Int → Int → Int) (y x : Int) :
    binomialSum f y x = ((List.range 5).map fun (j : Nat) => ((List.range 5).map fun (i : Nat) =>
      binomial i * binomial j * f (y + j - 2) (x + i - 2)).sum).sum := by
  rw [binomialSum, sumI_eq_sum, List.flatMap_def, List.sum_flatten, List.map_map]
  rfl

/-- No row of the next level is missing when none of this one is (R223). -/
theorem Level.reduce_missing {l : Level} (hm : l.missing = []) : l.reduce.missing = [] := by
  simp [Level.reduce, hm]

/-- A site of the next level in a row that is not missing: the binomial sum about twice the site (R221). -/
theorem Level.reduce_at {l : Level} {r c : Nat} (hr : r < l.reduce.h) (hc : c < l.reduce.w) (hm : r ∉ l.reduce.missing) :
    l.reduce.p.at r c
      = rnd (binomialSum (fun y x => l.p.at (reflect l.h y) (reflect l.w x)) (2 * r) (2 * c)) 8 :=
  (tab_at hr hc _).trans (if_neg hm)

/-- Settles O54: a source point and a bilinear value are `bilin` rounded off; a level's site is `Level.reduce_at`, whose
binomial sum is the sum of its rows' sums. -/
theorem resamplingArithmetic : Obligations.ResamplingArithmetic := by
  unfold Obligations.ResamplingArithmetic
  refine ⟨fun t y x => ⟨fun k => ?source, ?pixel⟩, fun l y x g hy hx hm hg => ⟨ceilDiv_two _, ceilDiv_two _, ?site⟩⟩
  case source =>
    rw [Warp.source, rnd_eight, bilin]
    rfl
  case pixel =>
    intro ix iy ax ay d p hb hix hax hiy hay hd hp
    rw [Warp.pixel_of_bilinear hb hix hiy hd, rnd_sixteen, bilin, hax, hay]
    simp only [hp]
    rfl
  case site =>
    rw [Level.reduce_at hy hx (by simp [Level.reduce_missing hm]), rnd_eight, binomialSum_eq_sum]
    simp only [hg]
    rfl

end Sys2Proof.Machine
end

section
/-! PROOFS. Settles O55 (R298): the stochastic rounding generator. The model wraps natural numbers where R298 speaks of 64-bit
words: each of its operations on the numbers of words is the number of that operation's word. -/

namespace Sys2Proof.Machine

theorem w64_toNat_add (x y : BitVec 64) : w64 (x.toNat + y.toNat) = (x + y).toNat :=
  (BitVec.toNat_add x y).symm

theorem w64_toNat_mul (x y : BitVec 64) : w64 (x.toNat * y.toNat) = (x * y).toNat :=
  (BitVec.toNat_mul x y).symm

theorem toNat_xor_shiftRight (z : BitVec 64) (k : Nat) : z.toNat.xor (z.toNat >>> k) = (z ^^^ (z >>> k)).toNat := by
  rw [BitVec.toNat_xor, BitVec.toNat_ushiftRight]
  rfl

/-- An assignment of R298's mix: the shifted word enters, and the constant `m` multiplies. -/
theorem w64_xorShift_mul (z m : BitVec 64) (k : Nat) :
    w64 (z.toNat.xor (z.toNat >>> k) * m.toNat) = ((z ^^^ (z >>> k)) * m).toNat := by
  rw [toNat_xor_shiftRight, w64_toNat_mul]

/-- `srMix` in words: `a` and `b` are z after each of the two assignments of R298's mix. -/
theorem srMix_toNat {z a b : BitVec 64} (ha : a = (z ^^^ (z >>> 30)) * 0xBF58476D1CE4E5B9)
    (hb : b = (a ^^^ (a >>> 27)) * 0x94D049BB133111EB) : srMix z.toNat = (b ^^^ (b >>> 31)).toNat := by
  have hfirst : w64 (z.toNat.xor (z.toNat >>> 30) * 0xBF58476D1CE4E5B9) = a.toNat :=
    ha ▸ w64_xorShift_mul z 0xBF58476D1CE4E5B9 30
  have hsecond : w64 (a.toNat.xor (a.toNat >>> 27) * 0x94D049BB133111EB) = b.toNat :=
    hb ▸ w64_xorShift_mul a 0x94D049BB133111EB 27
  rw [srMix, hfirst, hsecond, toNat_xor_shiftRight]

/-- A round of srgen: a key word enters, G is added, and the sum is mixed. -/
theorem srMix_round {mix : BitVec 64 → BitVec 64} (hmix : ∀ z : BitVec 64, srMix z.toNat = (mix z).toNat)
    (h key gold : BitVec 64) : srMix (w64 (h.toNat.xor key.toNat + gold.toNat)) = (mix ((h ^^^ key) + gold)).toNat := by
  rw [← hmix, ← w64_toNat_add, BitVec.toNat_xor]
  rfl

/-- A shift left that loses no bit is a product. -/
theorem toNat_shiftLeft_of_fits {x : BitVec 64} {k : Nat} (h : x.toNat * 2 ^ k < 2 ^ 64) :
    (x <<< k).toNat = x.toNat * 2 ^ k := by
  rw [BitVec.toNat_shiftLeft, Nat.shiftLeft_eq, Nat.mod_eq_of_lt h]

/-- Fields that do not overlap: their disjunction is their sum. -/
theorem or_fields_eq_add (g : Nat) {n c : Nat} (hn : n < 2 ^ 16) (hc : c < 2 ^ 10) :
    g * 2 ^ 56 ||| n * 2 ^ 40 ||| c * 2 ^ 30 = g * 2 ^ 56 + n * 2 ^ 40 + c * 2 ^ 30 := by
  have hhigh : g * 2 ^ 56 ||| n * 2 ^ 40 = 2 ^ 40 * (g * 2 ^ 16 + n) := by
    rw [Nat.mul_comm g, ← Nat.two_pow_add_eq_or_of_lt (by omega)]
    omega
  rw [hhigh, ← Nat.two_pow_add_eq_or_of_lt (by omega)]
  omega

/-- w1 of R298: graph, node and cmd in the fields of one word. -/
theorem srKeyWord_toNat {graph node cmd : BitVec 64} (hg : graph.toNat < 256) (hn : node.toNat < 65536)
    (hc : cmd.toNat < 1024) :
    graph.toNat % 256 * 2 ^ 56 + node.toNat % 65536 * 2 ^ 40 + cmd.toNat % 1024 * 2 ^ 30
      = ((graph <<< 56) ||| (node <<< 40) ||| (cmd <<< 30)).toNat := by
  rw [Nat.mod_eq_of_lt hg, Nat.mod_eq_of_lt hn, Nat.mod_eq_of_lt hc, BitVec.toNat_or, BitVec.toNat_or,
    toNat_shiftLeft_of_fits (by omega), toNat_shiftLeft_of_fits (by omega), toNat_shiftLeft_of_fits (by omega),
    or_fields_eq_add _ hn hc]

/-- Settles O55: the keys within their fields are words of their own, and each of the four mixes of `srGen` is the number of
its word: the seed's, then three rounds. -/
theorem roundingGenerator : Obligations.RoundingGenerator := by
  unfold Obligations.RoundingGenerator
  intro seed graph node cmd step elem mix gold hgold hmix hgraph hnode hcmd hstep helem
  have hword (z : BitVec 64) : srMix z.toNat = (mix z).toNat := by
    obtain ⟨a, b, ha, hb, hz⟩ := hmix z
    rw [hz, srMix_toNat ha hb]
  have hG : 0x9E3779B97F4A7C15 = gold.toNat := by rw [hgold]; rfl
  have hstep' : step.toNat % 2 ^ 48 = step.toNat := Nat.mod_eq_of_lt hstep
  have helem' : elem.toNat % 2 ^ 48 = elem.toNat := Nat.mod_eq_of_lt helem
  simp only [srGen, hG, srKeyWord_toNat hgraph hnode hcmd, hstep', helem']
  rw [w64_toNat_add, hword, srMix_round hword, srMix_round hword, srMix_round hword, BitVec.toNat_ushiftRight]

end Sys2Proof.Machine
end

section
/-! PROOFS. Settles O51 (R412, R413): the result of a clear, and what an accepted clear sets. -/

namespace Sys2Proof.Machine

/-! ### A field read after a write -/

theorem State.wr_regs_wf {s : State} (h : RegFile.wf s.regs) (p : Page) (f : RField) (v : Nat) :
    RegFile.wf (s.wr p f v).regs :=
  regSet_wf h

theorem State.rd_wr_zero_same {s : State} (h : RegFile.wf s.regs) (p : Page) (f : RField) : (s.wr p f 0).rd p f = 0 := by
  rw [State.rd, State.wr, regGet_regSet_same h, Nat.zero_mod]

/-- A write leaves a field with another key as it was. -/
theorem State.rd_wr_other {s : State} (h : RegFile.wf s.regs) {p : Page} {f g : RField} (hk : g.key p 0 0 ≠ f.key p 0 0)
    (v : Nat) : (s.wr p f v).rd p g = s.rd p g :=
  regGet_regSet_other h hk

/-- A field that reads zero still does after a zero is written, to that field or to another. -/
theorem State.rd_wr_zero_of_zero {s : State} (h : RegFile.wf s.regs) {p : Page} {f g : RField}
    (hk : g.key p 0 0 ≠ f.key p 0 0) (hz : s.rd p g = 0) : (s.wr p f 0).rd p g = 0 :=
  (State.rd_wr_other h hk 0).trans hz

/-! ### The Plinth's part of a fault record -/

/-- Of the Plinth, a record for the safety ports changes their queue only (R396). -/
theorem State.slFault_plinth (s : State) (f : FaultRec) :
    (s.slFault f).plinth = { s.plinth with faultQ := (s.slFault f).plinth.faultQ } := by
  unfold State.slFault
  split <;> rfl

/-- Of the Plinth, a fault record changes the queue of the safety ports only (R396, R470). -/
theorem State.faultRec_plinth (s : State) (p : Page) (c m : Nat) (d : List Nat) (sl : Bool) :
    (s.faultRec p c m d sl).plinth = { s.plinth with faultQ := (s.faultRec p c m d sl).plinth.faultQ } := by
  unfold State.faultRec
  extract_lets w f s1
  have h1 : s1.plinth = s.plinth := by simp [s1, w]
  split
  · rw [State.slFault_plinth, h1]
  · rw [h1]

/-! ### An accepted clear -/

/-- A pair with nothing counted against it and no longer withheld (R406). -/
def PairState.freed (p : PairState) : PairState := { p with oob := [], persist := 0, gap := 0, withheld := false }

/-- The Plinth out of safe state, its pairs freed and its budget empty (R413). -/
def PlinthState.released (p : PlinthState) : PlinthState :=
  { p with safe := false, history := [], pairs := p.pairs.map PairState.freed }

/-- An accepted clear before its fault record is written: the Plinth released, then the five fields set to zero (R413). -/
def State.released (s : State) : State :=
  let s1 : State := { s with plinth := s.plinth.released }
  ((((s1.wr .pln PLN.SAFE 0).wr .pln PLN.HELD 0).wr .pln PLN.INV_RUN 0).wr .pln PLN.INV_WIN 0).wr .pln PLN.SAFE_UNITS 0

theorem State.acceptClear_eq (s : State) (detail : Nat) :
    s.acceptClear detail = (s.released.faultRec .pln 0x6041 0 [detail, 0, 0, 0] true).raise .pln 2 :=
  rfl

theorem State.released_frame (s : State) :
    s.released = { s with regs := s.released.regs, plinth := s.released.plinth } := by
  simp only [State.released, State.wr]

/-- Each of the fields of safe state and of the budget reads zero: it is written zero, and no later write meets its key. -/
theorem State.released_zero {s : State} (h : RegFile.wf s.regs) :
    s.released.rd .pln PLN.INV_RUN = 0 ∧ s.released.rd .pln PLN.INV_WIN = 0 ∧ s.released.rd .pln PLN.SAFE_UNITS = 0
      ∧ s.released.rd .pln PLN.SAFE = 0 := by
  have h0 : RegFile.wf { s with plinth := s.plinth.released }.regs := h
  have h1 := State.wr_regs_wf h0 .pln PLN.SAFE 0
  have h2 := State.wr_regs_wf h1 .pln PLN.HELD 0
  have h3 := State.wr_regs_wf h2 .pln PLN.INV_RUN 0
  have h4 := State.wr_regs_wf h3 .pln PLN.INV_WIN 0
  refine ⟨?run, ?win, ?units, ?safe⟩
  case run =>
    exact State.rd_wr_zero_of_zero h4 (by decide) <| State.rd_wr_zero_of_zero h3 (by decide) <|
      State.rd_wr_zero_same h2 ..
  case win => exact State.rd_wr_zero_of_zero h4 (by decide) <| State.rd_wr_zero_same h3 ..
  case units => exact State.rd_wr_zero_same h4 ..
  case safe =>
    exact State.rd_wr_zero_of_zero h4 (by decide) <| State.rd_wr_zero_of_zero h3 (by decide) <|
      State.rd_wr_zero_of_zero h2 (by decide) <| State.rd_wr_zero_of_zero h1 (by decide) <| State.rd_wr_zero_same h0 ..

/-- Beside the new record in its queue, an accepted clear leaves the Plinth as released. -/
theorem State.acceptClear_plinth (s : State) (detail : Nat) :
    (s.acceptClear detail).plinth = { s.plinth.released with faultQ := (s.acceptClear detail).plinth.faultQ } := by
  rw [State.acceptClear_eq, State.raise_plinth, State.faultRec_plinth]
  rfl

theorem State.acceptClear_rasp (s : State) (detail : Nat) : (s.acceptClear detail).rasp = s.rasp := by
  rw [State.acceptClear_eq, State.raise_rasp, State.faultRec_rasp, State.released_frame]

/-! ### The result -/

theorem State.clearCode_of_not_safe {s : State} (h : s.plinth.safe = false) : s.clearCode = 1 := by
  simp [State.clearCode, h]

theorem State.clearCode_of_causes {s : State} (h : s.plinth.safe = true) (hc : s.plinth.causes ≠ []) : s.clearCode = 2 := by
  simp [State.clearCode, h, hc]

/-- In safe state with no cause in force the checker's test decides (R412). -/
theorem State.clearCode_of_no_causes {s : State} (h : s.plinth.safe = true) (hc : s.plinth.causes = []) :
    s.clearCode = if s.checkerFresh then 0 else 3 := by
  simp [State.clearCode, h, hc]

/-- Settles O51: the result by the three conditions of R412 in turn; of an accepted clear, what the Plinth keeps by
`acceptClear_plinth` and the fields set by `released_zero`; a refused one takes the other branch of the decision. -/
theorem clearFollowsItsResult : Obligations.ClearFollowsItsResult := by
  unfold Obligations.ClearFollowsItsResult
  refine ⟨fun s => ⟨State.clearCode_of_not_safe, State.clearCode_of_causes, ?fresh, ?stale⟩, ?accepted, ?refused⟩
  case fresh =>
    intro hsafe hnone hfresh
    rw [State.clearCode_of_no_causes hsafe hnone, if_pos hfresh]
  case stale =>
    intro hsafe hnone hstale
    simp [State.clearCode_of_no_causes hsafe hnone, hstale]
  case accepted =>
    intro s detail hwf
    obtain ⟨hrun, hwin, hunits, hsafe⟩ := State.released_zero hwf
    refine ⟨?out, ?freed, ?count, ?budget, s.acceptClear_rasp detail,
      s.released, s.acceptClear_eq detail, hrun, hwin, hunits, hsafe, s.released_frame⟩
    all_goals rw [State.acceptClear_plinth]
    case out => rfl
    case freed =>
      intro p hp
      obtain ⟨q, -, rfl⟩ := List.mem_map.mp hp
      exact ⟨rfl, rfl, rfl, rfl⟩
    case count => exact List.length_map ..
    case budget => rfl
  case refused =>
    intro s actor port seq detail hcode
    exact if_neg hcode

end Sys2Proof.Machine
end

section
/-! PROOFS. Settles O1, O3, O4, O5 and O6 (log 1): what a step is, and the invariant that every step keeps. -/

namespace Sys2Proof.Machine

/-- What every command leaves true: of the boundary and the three that take the power away by their own lemmas, of all
others by `exec_keeps`. -/
theorem exec_after {c : Instr} {s t : State} (h : exec c s = .next t) : After s t := by
  by_cases hbeat : ∃ vin temps, c = .beatBoundary vin temps
  · obtain ⟨vin, temps, rfl⟩ := hbeat
    exact (execBeatBoundary_after h).1
  by_cases hon : c = .powerOn
  · subst hon
    exact execPowerOn_after (Keeps.refl s).after h
  by_cases hdet : c = .powerOnDetectorStop
  · subst hdet
    exact execPowerOnDetectorStop_after (Keeps.refl s).after h
  by_cases haon : c = .aonThermalStop
  · subst haon
    exact execAonThermalStop_after (Keeps.refl s).after h
  exact (exec_keeps h (fun vin temps e => hbeat ⟨vin, temps, e⟩) hon hdet haon).after

/-- A command keeps the machine's invariant. -/
theorem State.Inv.exec {s t : State} (hs : s.Inv) {c : Instr} (h : exec c s = .next t) : t.Inv := by
  obtain ⟨hpending, -, -, hmem, hregs, hshadow, hsized⟩ := exec_after h
  exact ⟨hmem hs.mem, hregs hs.regs, hshadow hs.shadow, hsized hs.sized, hpending ▸ hs.queue⟩

/-- Taking the front command from the queue keeps the invariant. -/
theorem State.Inv.dequeue {s : State} (hs : s.Inv) {c : Instr} {l : List Instr} (hq : s.pending = c :: l) :
    State.Inv { s with pending := l } :=
  ⟨hs.mem, hs.regs, hs.shadow, hs.sized, fun d hd => hs.queue d (hq ▸ List.mem_cons_of_mem c hd)⟩

/-- A step runs the front command, or finds none. -/
theorem step_cases {s t : State} (h : step s = .next t) :
    (s.pending = [] ∧ t = s) ∨ ∃ c l, s.pending = c :: l ∧ exec c { s with pending := l } = .next t := by
  unfold step at h
  split at h
  · next hq => exact .inl ⟨hq, (Host.Outcome.next.inj h).symm⟩
  · next c l hq => exact .inr ⟨c, l, hq, h⟩

/-- Settles O4: a step on an empty queue changes nothing; any other runs a command, which keeps the invariant. -/
theorem stepsKeepInvariant : Obligations.StepsKeepInvariant := by
  unfold Obligations.StepsKeepInvariant
  intro s t hs h
  obtain ⟨-, rfl⟩ | ⟨c, l, hq, hexec⟩ := step_cases h
  · exact hs
  · exact (hs.dequeue hq).exec hexec

/-- Settles O5: the queue, what has been sent and the free values drawn, as `exec_after` has them. -/
theorem commandsOnlyAppend : Obligations.CommandsOnlyAppend := by
  unfold Obligations.CommandsOnlyAppend
  intro c s t h
  obtain ⟨hpending, hdraws, hwire, -⟩ := exec_after h
  exact ⟨hpending, hwire, hdraws⟩

/-- Settles O6: the three commands whose lists have a length look at it first; every other answers a next state by its
definition, and is well-formed. -/
theorem wellFormedCommandsGoOn : Obligations.WellFormedCommandsGoOn := by
  unfold Obligations.WellFormedCommandsGoOn
  refine ⟨fun c s hwf => ?goesOn, fun c s hwf => ?stops⟩
  case goesOn =>
    cases c with
    | beatBoundary vin temps => exact ⟨_, if_neg (not_not_intro (of_decide_eq_true hwf))⟩
    | cellReceive port cell fec => exact ⟨_, if_neg (not_not_intro (of_decide_eq_true hwf))⟩
    | longPacket cam header payload crc => exact ⟨_, if_pos (of_decide_eq_true hwf)⟩
    | auditProgramDone =>
      simp only [exec, execAuditProgramDone]
      split
      · exact ⟨_, rfl⟩
      · exact ⟨_, rfl⟩
    | _ => exact ⟨_, rfl⟩
  case stops =>
    cases c with
    | beatBoundary vin temps => exact .inl (if_pos (of_decide_eq_false hwf))
    | cellReceive port cell fec => exact .inr (.inl (if_pos (of_decide_eq_false hwf)))
    | longPacket cam header payload crc => exact .inr (.inr (if_neg (of_decide_eq_false hwf)))
    | _ => exact absurd hwf.symm Bool.false_ne_true

/-- Settles O1: both cases of `step`, by its definition. -/
theorem stepRunsFrontCommand : Obligations.StepRunsFrontCommand := by
  unfold Obligations.StepRunsFrontCommand
  refine ⟨fun c l s => rfl, fun s hq => ?_⟩
  rw [step, hq]

/-- Settles O3: nothing is written, nothing waits, and every list of units is whole. -/
theorem resetMeetsInvariant : Obligations.ResetMeetsInvariant :=
  ⟨⟨.nil, fun _ h => absurd h List.not_mem_nil⟩, .nil, .nil, State.reset_sized, fun _ h => absurd h List.not_mem_nil⟩

end Sys2Proof.Machine
end

section
/-! PROOFS. Settles O10: the commands that store nothing. -/

namespace Sys2Proof.Machine

/-- Settles O10: each of these commands is aside of what is kept, by its own `_aside` lemma; no other is named. -/
theorem commandsThatStoreNothing : Obligations.CommandsThatStoreNothing := by
  unfold Obligations.CommandsThatStoreNothing
  intro s t c hc h
  change Aside s t
  cases c with
  | cpBlockLock => exact execCpBlockLock_aside (.refl s) h
  | cpLockLoss => exact execCpLockLoss_aside (.refl s) h
  | fs => exact execFs_aside (.refl s) h
  | fe _ _ frameNo => exact execFe_aside (a3 := frameNo) (.refl s) h
  | lsLe cam vc lineEnd line =>
    exact execLsLe_aside (a1 := cam) (a2 := vc) (a3 := lineEnd) (a4 := line) (.refl s) h
  | longPacket => exact execLongPacket_aside (.refl s) h
  | fsDeadline => exact execFsDeadline_aside (.refl s) h
  | tunnelSend => exact execTunnelSend_aside (.refl s) h
  | tunnelAck => exact execTunnelAck_aside (.refl s) h
  | tunAckTmo => exact execTunAckTmo_aside (.refl s) h
  | transportPacket => exact execTransportPacket_aside (.refl s) h
  | ifeFrameStart => exact execIfeFrameStart_aside (.refl s) h
  | recordEmit => exact execRecordEmit_aside (.refl s) h
  | faultWindow => exact execFaultWindow_aside (.refl s) h
  | safeMark => exact execSafeMark_aside (.refl s) h
  | refLoss => exact execRefLoss_aside (.refl s) h
  | clkmFirstLock => exact execClkmFirstLock_aside (.refl s) h
  | laserEol => exact execLaserEol_aside (.refl s) h
  | hlBlockLock => exact execHlBlockLock_aside (.refl s) h
  | hello _ _ _ width => exact execHello_aside (a4 := width) (.refl s) h
  | helloResend => exact execHelloResend_aside (.refl s) h
  | nak => exact execNak_aside (.refl s) h
  | replayTmo => exact execReplayTmo_aside (.refl s) h
  | credit _ _ _ inc2 => exact execCredit_aside (a4 := inc2) (.refl s) h
  | idle => exact execIdle_aside (.refl s) h
  | retrainDone => exact execRetrainDone_aside (.refl s) h
  | lossOfSignalAssert => exact execLossOfSignalAssert_aside (.refl s) h
  | lossOfSignalDeassert => exact execLossOfSignalDeassert_aside (.refl s) h
  | memRd => exact execMemRd_aside (.refl s) h
  | jobSubmit => exact execJobSubmit_aside (.refl s) h
  | jobIntakeAdmit => exact execJobIntakeAdmit_aside (.refl s) h
  | sessionOpen => exact execSessionOpen_aside (.refl s) h
  | sessionResponse => exact execSessionResponse_aside (.refl s) h
  | sessionResult => exact execSessionResult_aside (.refl s) h
  | lockoutEnd => exact execLockoutEnd_aside (.refl s) h
  | nonceExpire => exact execNonceExpire_aside (.refl s) h
  | sessionClose => exact execSessionClose_aside (.refl s) h
  | recCopy => exact execRecCopy_aside (.refl s) h
  | evtLoss => exact execEvtLoss_aside (.refl s) h
  | bootBeginReady => exact execBootBeginReady_aside (.refl s) h
  | _ => exact False.elim hc

end Sys2Proof.Machine
end

section
/-! PROOFS. Settles O8 and O9: register files and device memory hold what was written. -/

namespace Sys2Proof.Machine

/-- Bytes read back where they were written. -/
theorem memRead_memWrite {m : Mem} (h : Mem.wf m) (a : Nat) (l : List Byte) : memRead (memWrite m a l) a l.length = l := by
  suffices hread : ∀ n k, n + k = l.length → memRead (memWrite m a l) (a + k) n = l.drop k by
    simpa using hread l.length 0 rfl
  intro n
  induction n with
  | zero => intro k hk; simp [memRead, show l.length ≤ k by omega]
  | succ n ih =>
    intro k hk
    rw [memRead, Nat.add_assoc, ih (k + 1) (by omega), memGet_memWrite_inside h (by omega), ← List.drop_eq_getElem_cons]

/-- A wipe keeps the bytes whose addresses it does not meet. -/
theorem memGet_memWipe {m : Mem} (h : Mem.wf m) (a n b : Nat) :
    memGet b (memWipe m a n) = if a ≤ b ∧ b < a + n then 0 else memGet b m := by
  obtain ⟨hrise, hne⟩ := h
  induction m with
  | nil => simp [memWipe, memGet]
  | cons x m ih =>
    obtain ⟨c, v⟩ := x
    obtain ⟨hx, hm⟩ := List.pairwise_cons.mp hrise
    have ih := ih hm fun e he => hne e (List.mem_cons_of_mem _ he)
    by_cases hkeep : c < a ∨ a + n ≤ c
    · have hcons : memWipe ((c, v) :: m) a n = (c, v) :: memWipe m a n := by simp [memWipe, hkeep]
      rw [hcons, memGet, ih, memGet]
      split_ifs <;> first | rfl | omega
    · have hskip : memWipe ((c, v) :: m) a n = memWipe m a n := by simp [memWipe, hkeep]
      rw [hskip, ih, memGet]
      split_ifs with hin hcb hbc
      · rfl
      · omega
      · exact memGet_above fun e he => Nat.lt_trans hbc (hx e he)
      · rfl

/-- Settles O9: `store` and `wipe` are `memWrite` and `memWipe` of the memory. -/
theorem memoryHoldsWrites : Obligations.MemoryHoldsWrites := by
  unfold Obligations.MemoryHoldsWrites
  intro s a data h
  exact ⟨memWrite_wf h, memRead_memWrite h a data, fun b hb => memGet_memWrite_outside h hb,
    fun n b => memGet_memWipe h a n b⟩

/-- Settles O8: `wr` sets one key of the file. -/
theorem registersHoldWrites : Obligations.RegistersHoldWrites := by
  unfold Obligations.RegistersHoldWrites
  intro s p q f g v i j k l h
  exact ⟨regSet_wf h, regGet_regSet_same h, fun hk => regGet_regSet_other h hk, rfl⟩

end Sys2Proof.Machine
end

section
/-! PROOFS. Settles O22 (R90, R91): bulk memory over the link. -/

namespace Sys2Proof.Machine

/-- A request on a port that is UP is served. -/
theorem State.whenUp_up {s t : State} {p : Nat} (h : s.portUp p = true) : s.whenUp p t = t := if_pos h

/-- An accepted MEM_WR stores its bytes and completes OK. -/
theorem execMemWr_accepted {s : State} {rq : Req} {addr : BitVec 64} {data : List Byte} (hup : s.portUp rq.port = true)
    (hst : s.memWriteStatus rq addr.toNat data.length = 0) :
    execMemWr rq addr data s = .next ((s.store addr.toNat data).complete rq 0xB1 0) := by
  rw [execMemWr, State.whenUp_up hup, State.memWrite, hst]
  rfl

/-- An accepted MEM_RD completes with the bytes that stand there, and with the map of the lines that read bad (R91). -/
theorem execMemRd_accepted {s : State} {rq : Req} {addr : BitVec 64} {len : BitVec 16} (hup : s.portUp rq.port = true)
    (hsid : s.sidStatus rq = 0) (hst : s.memStatus addr.toNat len.toNat = 0)
    (hbusy : s.memBusy addr.toNat len.toNat = false) :
    execMemRd rq addr len s = .next (s.complete rq 0xB0 (if s.poisonMap addr.toNat len.toNat = 0 then 0 else 0x09)
      (s.poisonMap addr.toNat len.toNat) (s.load addr.toNat len.toNat)) := by
  rw [execMemRd, State.whenUp_up hup, State.memRead]
  simp [hsid, hst, hbusy]

/-- Settles O22: what both answer, with the frame of a completion and the laws of memory. -/
theorem bulkMemoryCompletes : Obligations.BulkMemoryCompletes := by
  unfold Obligations.BulkMemoryCompletes
  refine ⟨?write, ?read⟩
  case write =>
    intro s rq addr data hup hst hwf
    refine ⟨_, execMemWr_accepted hup hst, ?frame, State.complete_fabric .., ?stored, ?kept⟩
    case frame =>
      rw [State.complete_frame]
      rfl
    case stored =>
      intro i hi
      rw [State.complete_fabric]
      exact memGet_memWrite_inside hwf hi
    case kept =>
      intro a ha
      rw [State.complete_fabric]
      exact memGet_memWrite_outside hwf ha
  case read =>
    intro s rq addr len hup hsid hst hbusy
    exact ⟨_, _, execMemRd_accepted hup hsid hst hbusy, rfl, rfl, State.complete_frame ..⟩

end Sys2Proof.Machine
end

section
/-! PROOFS. Settles O50 (R15): a record's reason and verdict. -/

namespace Sys2Proof.Machine

/-- `b` is the lowest code of `l`, with its lowest item. -/
def LowestOf (l : List (Nat × Nat)) (b : Nat × Nat) : Prop :=
  b ∈ l ∧ ∀ c ∈ l, b.1 < c.1 ∨ (b.1 = c.1 ∧ b.2 ≤ c.2)

/-- The choice between the lowest of the conditions seen and the next one. -/
def lowerReason (b c : Nat × Nat) : Nat × Nat := if b.1 = 0 ∨ c.1 < b.1 ∨ (c.1 = b.1 ∧ c.2 < b.2) then c else b

/-- One more condition: the lower of it and of the lowest before it. -/
theorem LowestOf.lowerReason {l : List (Nat × Nat)} {b c : Nat × Nat} (h : LowestOf l b) (hb : b.1 ≠ 0) :
    LowestOf (l ++ [c]) (lowerReason b c) := by
  obtain ⟨hmem, hlow⟩ := h
  unfold Machine.lowerReason
  split
  · next hc =>
    refine ⟨by simp, fun d hd => ?_⟩
    rcases List.mem_append.mp hd with hd | hd
    · have := hlow d hd
      omega
    · rw [List.mem_singleton.mp hd]
      omega
  · next hc =>
    refine ⟨by simp [hmem], fun d hd => ?_⟩
    rcases List.mem_append.mp hd with hd | hd
    · exact hlow d hd
    · rw [List.mem_singleton.mp hd]
      omega

/-- The choice over a list of conditions, from the lowest of those before it. -/
theorem LowestOf.foldl {l r : List (Nat × Nat)} {b : Nat × Nat} (h : LowestOf l b) (hl : ∀ c ∈ l, c.1 ≠ 0)
    (hr : ∀ c ∈ r, c.1 ≠ 0) : LowestOf (l ++ r) (r.foldl Machine.lowerReason b) := by
  induction r generalizing l b with
  | nil => simpa using h
  | cons c r ih =>
    have hc : ∀ d ∈ l ++ [c], d.1 ≠ 0 := by
      intro d hd
      rcases List.mem_append.mp hd with hd | hd
      · exact hl d hd
      · exact hr d (List.mem_singleton.mp hd ▸ List.mem_cons_self)
    have hnext := ih (h.lowerReason (hl b h.1)) hc fun d hd => hr d (List.mem_cons_of_mem c hd)
    simpa using hnext

/-- The reason picked among conditions is their lowest code, with its lowest item. -/
theorem lowestOf_pickReason {l : List (Nat × Nat)} (hne : l ≠ []) (hl : ∀ c ∈ l, c.1 ≠ 0) : LowestOf l (pickReason l) := by
  cases l with
  | nil => exact absurd rfl hne
  | cons c r =>
    have hone : LowestOf [c] c := ⟨by simp, by simp⟩
    exact hone.foldl (fun d hd => hl d (by simp_all)) fun d hd => hl d (List.mem_cons_of_mem c hd)

/-- Settles O50: the reason by `lowestOf_pickReason`, the verdict by the ranges of R15's codes. -/
theorem reasonIsLowestCode : Obligations.ReasonIsLowestCode := by
  unfold Obligations.ReasonIsLowestCode
  refine ⟨fun l hl => ⟨?none, fun hne => lowestOf_pickReason hne hl⟩, ?valid, ?invalid, ?third, ?fourth⟩
  case none =>
    rintro rfl
    rfl
  all_goals
    intros
    unfold verdictOf
    split_ifs <;> omega

end Sys2Proof.Machine
end

section
/-! PROOFS. Settles O56 and O57 (R331, R352, R353, R457): the address map and the channels of GDDR6. -/

namespace Sys2Proof.Machine

/-- What lies in GDDR6: a byte of its group, or a hole where inline ECC has its share. -/
theorem State.place_gddr (s : State) {a : Nat} (h : a < 0x400000000) :
    s.place a = if a % 2 ^ 33 < groupBytes (s.fabric.eccOn.getD (a / 2 ^ 33) true) then .gddr (a / 2 ^ 33) else .hole := by
  rw [State.place, if_pos h]

/-- What lies in the memories of cluster `c` at offset `o` (R331). -/
theorem State.place_cluster (s : State) {c o : Nat} (hc : c < 6) (ho : o < 0x1000000) :
    s.place (0x10000000000 + c * 0x1000000 + o)
      = if o < 0x400000 then .cmem c o
        else if o < 0xA00000 then .spm (4 * c + (o - 0x400000) / 0x200000) ((o - 0x400000) % 0x200000) else .nothing := by
  have hdiv : (0x10000000000 + c * 0x1000000 + o - 0x10000000000) / 0x1000000 = c := by omega
  have hmod : (0x10000000000 + c * 0x1000000 + o - 0x10000000000) % 0x1000000 = o := by omega
  rw [State.place, if_neg (by omega), if_pos (by omega)]
  simp only [hdiv, hmod]

/-- Settles O56: the two halves of the map by `place_cluster` and `place_gddr`, the other ranges by the map's bounds. -/
theorem addressMap : Obligations.AddressMap := by
  unfold Obligations.AddressMap
  refine ⟨fun s c k o hc => ⟨?cmem, ?spm, ?gap⟩, fun s a => ⟨?gddr, ?csr, ?host, ?below, ?between, ?above⟩⟩
  case cmem =>
    intro ho
    rw [s.place_cluster hc (by omega), if_pos ho]
  case spm =>
    intro hk ho
    have hdiv : (0x400000 + k * 0x200000 + o - 0x400000) / 0x200000 = k := by omega
    have hmod : (0x400000 + k * 0x200000 + o - 0x400000) % 0x200000 = o := by omega
    rw [show 0x10000000000 + c * 0x1000000 + 0x400000 + k * 0x200000 + o
        = 0x10000000000 + c * 0x1000000 + (0x400000 + k * 0x200000 + o) by omega, s.place_cluster hc (by omega),
      if_neg (by omega), if_pos (by omega), hdiv, hmod]
  case gap =>
    intro hlo hhi
    rw [s.place_cluster hc hhi, if_neg (by omega), if_neg (by omega)]
  case gddr =>
    intro ha
    rw [s.place_gddr ha]
    split
    · exact .inl rfl
    · exact .inr rfl
  case csr =>
    intro hlo hhi
    rw [State.place, if_neg (by omega), if_neg (by omega), if_pos (by omega)]
  case host =>
    intro hlo hhi
    rw [State.place, if_neg (by omega), if_neg (by omega), if_neg (by omega), if_pos (by omega)]
  all_goals
    intro hlo hhi
    rw [State.place, if_neg (by omega), if_neg (by omega), if_neg (by omega), if_neg (by omega)]

/-- The channel of line `i` of an aligned range of 8 KiB: the bits that the range fixes turn the line's three lowest
about (R352). -/
theorem gddrChannel_line {b i : Nat} (hb : b < 2 ^ 21) (hi : i < 128) :
    gddrChannel (8192 * b + 64 * i) = 8 * (8192 * b / 2 ^ 33) + (i % 8).xor (b / 2 % 8) := by
  have hgroup : bits (8192 * b + 64 * i) 33 33 = 8192 * b / 2 ^ 33 := by
    simp only [bits, Nat.shiftRight_eq_div_pow]
    omega
  have hline : bits (8192 * b + 64 * i) 8 6 = i % 8 := by
    simp only [bits, Nat.shiftRight_eq_div_pow]
    omega
  have hturn : bits (8192 * b + 64 * i) 16 14 = b / 2 % 8 := by
    simp only [bits, Nat.shiftRight_eq_div_pow]
    omega
  rw [gddrChannel, hgroup, hline, hturn]

/-- Of 128 lines, sixteen have three lowest bits that a fixed turn takes to a given channel. -/
theorem count_lines_of_channel : ∀ x < 8, ∀ ch < 8, ((List.range 128).filter fun i => (i % 8).xor x = ch).length = 16 := by
  decide +kernel

/-- A byte of a group exists below the group's size. -/
theorem State.place_group (s : State) {g a : Nat} (hg : g < 2) (ha : a < 2 ^ 33) :
    s.place (g * 2 ^ 33 + a) = if a < groupBytes (s.fabric.eccOn.getD g true) then .gddr g else .hole := by
  have hmod : (g * 2 ^ 33 + a) % 2 ^ 33 = a := by omega
  have hdiv : (g * 2 ^ 33 + a) / 2 ^ 33 = g := by omega
  rw [s.place_gddr (by omega), hmod, hdiv]

/-- Settles O57: the channels by `gddrChannel_line`, the sizes of a group by `place_group`. -/
theorem channelInterleave : Obligations.ChannelInterleave := by
  unfold Obligations.ChannelInterleave
  refine ⟨fun b ch hb hch => ?lines, fun s g a hg ha => ⟨fun hecc => ?withEcc, fun hecc => ?withoutEcc⟩⟩
  case lines =>
    rw [← count_lines_of_channel (b / 2 % 8) (by omega) ch hch]
    congr 1
    refine List.filter_congr fun i hi => ?_
    rw [gddrChannel_line hb (List.mem_range.mp hi)]
    simp only [Nat.add_left_cancel_iff]
  case withEcc =>
    rw [s.place_group hg ha, hecc, groupBytes, if_pos rfl]
    split <;> simp_all
  case withoutEcc =>
    rw [s.place_group hg ha, hecc]
    exact if_pos ha

end Sys2Proof.Machine
end

section
/-! PROOFS. Settles O2 and O60: the state after reset, and the places of the register fields. -/

namespace Sys2Proof.Machine

/-- Without an entry every field reads its after-reset value. -/
theorem regGet_nil (d k : Nat) : regGet d k [] = d := rfl

/-- After reset no shadow has been written: it is the value in force (R466). -/
theorem State.reset_rdShadow (p : Page) (f : RField) (i j : Nat) : State.reset.rdShadow p f i j = f.rst := by
  have hnone : State.reset.shadow = [] := rfl
  rw [State.rdShadow, hnone, regGet_nil]
  exact if_pos rfl

/-- A list of one value repeated has that value wherever it is read, when it is also the default. -/
theorem getD_replicate_self {α : Type} (n d : Nat) (x : α) : (List.replicate n x).getD d x = x := by
  rw [List.getD_eq_getElem?_getD, List.getElem?_replicate]
  split
  · rfl
  · rfl

theorem State.reset_domain (d : Nat) : State.reset.domain d = .off := getD_replicate_self 39 d Domain.off

theorem State.reset_port (p : Nat) : State.reset.port p = HlPort.fresh := getD_replicate_self 2 p HlPort.fresh

/-- Settles O2: by the definition of `State.reset`, its empty register files, and its lists of units alike. -/
theorem resetState : Obligations.ResetState := by
  unfold Obligations.ResetState
  refine ⟨fun p f i j => ⟨regGet_nil .., State.reset_rdShadow p f i j⟩, fun _ => rfl, State.reset_domain,
    rfl, rfl, rfl, rfl, rfl, rfl, rfl, fun p => ?challenge, rfl, rfl⟩
  case challenge => rw [State.reset_port]; rfl

/-- A field within its word and its page, its after-reset value within it. -/
def RField.fits (f : RField) : Bool :=
  f.lo + f.width ≤ 32 ∧ 0 < f.width ∧ f.rst < 2 ^ f.width ∧ f.off % 4 = 0
    ∧ f.off + (f.n1 - 1) * f.s1 + (f.n2 - 1) * f.s2 < 4096

/-- Every field of every page fits, whichever unit the page belongs to: table by table. -/
theorem Page.fields_fit (p : Page) : p.fields.all RField.fits = true := by
  cases p
  all_goals rfl

/-- Settles O60: by `Page.fields_fit`. -/
theorem fieldsFitTheirWords : Obligations.FieldsFitTheirWords := by
  unfold Obligations.FieldsFitTheirWords
  intro p _ f hf
  exact of_decide_eq_true (List.all_eq_true.mp p.fields_fit f hf)

end Sys2Proof.Machine
end

section
/-! PROOFS. Settles O52 (R414): the budget of INVALID records. -/

namespace Sys2Proof.Machine

/-- A field reads as written, cut to its width. -/
theorem State.rd_wr_same {s : State} (h : RegFile.wf s.regs) (p : Page) (f : RField) (v : Nat) :
    (s.wr p f v).rd p f = v % 2 ^ f.width :=
  regGet_regSet_same h

section
variable {s : State} (h : RegFile.wf s.regs) (b : Bool)
include h

/-- INV_RUN after a record: the run grows with an INVALID one, up to 15, and ends with any other. -/
theorem State.countInvalid_run :
    (s.countInvalid b).rd .pln PLN.INV_RUN = if b then min 15 (s.rd .pln PLN.INV_RUN + 1) else 0 := by
  change ((s.wr .pln PLN.INV_RUN (if b then min 15 (s.rd .pln PLN.INV_RUN + 1) else 0)).wr .pln PLN.INV_WIN _).rd
    .pln PLN.INV_RUN = _
  rw [State.rd_wr_other (State.wr_regs_wf h ..) (by decide), State.rd_wr_same h]
  refine Nat.mod_eq_of_lt (show _ < 2 ^ 4 from ?_)
  split <;> omega

/-- INV_WIN after a record: the INVALID ones among the latest 64. -/
theorem State.countInvalid_win :
    (s.countInvalid b).rd .pln PLN.INV_WIN = (((b :: s.plinth.history).take 64).filter id).length := by
  have hlength : (((b :: s.plinth.history).take 64).filter id).length ≤ 64 :=
    (List.length_filter_le _ _).trans (List.length_take_le _ _)
  change ((s.wr .pln PLN.INV_RUN _).wr .pln PLN.INV_WIN _).rd .pln PLN.INV_WIN = _
  rw [State.rd_wr_same (State.wr_regs_wf h ..)]
  exact Nat.mod_eq_of_lt (show _ < 2 ^ 7 from by omega)
end

/-- Where a limit of the budget is reached by an INVALID record, cause 0x06 is added. -/
theorem State.checkBudget_over {s : State} (h : 8 ≤ s.rd .pln PLN.INV_RUN
    ∨ s.rd .pln PLN.INV_WIN_MAX < ((s.plinth.history.take 63).filter id).length + 1) :
    s.checkBudget 2 = s.addCause 6 0xFF s.inUseUnits :=
  if_pos ⟨rfl, h⟩

/-- Settles O52: the counts by `countInvalid_run` and `countInvalid_win`, the cause by the two limits. -/
theorem budgetCountsInvalidRecords : Obligations.BudgetCountsInvalidRecords := by
  unfold Obligations.BudgetCountsInvalidRecords
  refine ⟨fun s h => ⟨?grows, State.countInvalid_run h false, fun b => ⟨rfl, State.countInvalid_win h b⟩⟩,
    fun s => ⟨?either, fun hrun => State.checkBudget_over (.inl hrun), fun hwin => State.checkBudget_over (.inr hwin),
      fun v hv => if_neg fun hc => hv hc.1⟩⟩
  case grows =>
    intro hlt
    rw [State.countInvalid_run h true, if_pos rfl]
    omega
  case either =>
    unfold State.checkBudget
    dsimp only
    split
    · exact .inr rfl
    · exact .inl rfl

end Sys2Proof.Machine
end

section
/-! PROOFS. Settles O58 and O59 (R290, R296, R297): conversion to integer formats, and of the codes of the floating-point
formats to themselves. -/

namespace Sys2Proof.Machine

/-! ### Integer formats -/

/-- A magnitude that is a multiple of the place rounded to stays as it is, whatever the mode. -/
theorem roundTo_of_multiple (mode r : Nat) (neg : Bool) (m : Nat) (e : Int) : roundTo mode r neg m e e = m := by
  simp [roundTo]

/-- An integer converted to an integer format: kept within the range, and counted when it was not (R297). -/
theorem encodeInt_ofInt (fmt mode r : Nat) (v : Int) :
    encodeInt fmt mode r (Num.ofInt v) = ⟨ofInt (fmtBits fmt) (clampInt (intRange fmt).1 (intRange fmt).2 v),
      b2n (clampInt (intRange fmt).1 (intRange fmt).2 v ≠ v), 0⟩ := by
  have hsign : (if decide (v < 0) = true then -(v.natAbs : Int) else v.natAbs) = v := by
    simp only [decide_eq_true_eq]
    split <;> omega
  simp only [Num.ofInt, encodeInt, roundTo_of_multiple, hsign]

theorem clampInt_inside {lo hi v : Int} (hlo : lo ≤ v) (hhi : v ≤ hi) : clampInt lo hi v = v := by
  rw [clampInt, if_neg (by omega), if_neg (by omega)]

theorem clampInt_above {lo hi v : Int} (h : hi < v) (hle : lo ≤ hi) : clampInt lo hi v = hi := by
  rw [clampInt, if_neg (by omega), if_pos h]

theorem clampInt_below {lo hi v : Int} (h : v < lo) : clampInt lo hi v = lo := if_pos h

/-- The range of every integer format is one. -/
theorem intRange_le : ∀ fmt ≤ 6, (intRange fmt).1 ≤ (intRange fmt).2 := by decide

/-- A conversion to an integer format is `encodeInt`. -/
theorem encodeElem_integer {fmt : Nat} (h : fmt ≤ 6) (mode r : Nat) (v : Num) :
    encodeElem fmt mode r v = encodeInt fmt mode r v :=
  if_pos (decide_eq_true h)

/-- Settles O58: an integer by `encodeInt_ofInt` and where it lies to the range, the rest by the definition. -/
theorem integerConversion : Obligations.IntegerConversion := by
  unfold Obligations.IntegerConversion
  intro fmt mode r lo hi hfmt hrange
  obtain rfl : lo = (intRange fmt).1 := congrArg Prod.fst hrange
  obtain rfl : hi = (intRange fmt).2 := congrArg Prod.snd hrange
  simp only [encodeElem_integer hfmt]
  refine ⟨fun v hlo hhi => ?inside, fun v hv => ?above, fun v hv => ?below, rfl, rfl, rfl⟩
  case inside => rw [encodeInt_ofInt, clampInt_inside hlo hhi]; simp [b2n]
  case above => rw [encodeInt_ofInt, clampInt_above hv (intRange_le fmt hfmt)]; simp [b2n, hv.ne]
  case below => rw [encodeInt_ofInt, clampInt_below hv]; simp [b2n, hv.ne']

/-! ### Floating-point formats -/

/-- The finite codes of a format are those whose magnitude is at most its largest: where others exist they are infinities
or NaN. -/
def FloatFmt.Closed (f : FloatFmt) : Prop :=
  f.infs = true ∨ f.nanCode ≠ 0 ∨ 2 ^ (f.ebits + f.mbits) ≤ f.maxCode + 1

theorem floatFmt_closed {fmt : Nat} (hlo : 7 ≤ fmt) (hhi : fmt ≤ 14) : (floatFmt fmt).Closed := by
  interval_cases fmt <;> simp [FloatFmt.Closed, floatFmt]

/-- A code of a format has a sign, exponent bits and mantissa bits (R289). -/
theorem fmtBits_floatFmt {fmt : Nat} (hlo : 7 ≤ fmt) (hhi : fmt ≤ 14) :
    fmtBits fmt = (floatFmt fmt).ebits + (floatFmt fmt).mbits + 1 := by
  interval_cases fmt <;> rfl

theorem decodeElem_float {fmt : Nat} (hlo : 7 ≤ fmt) (hhi : fmt ≤ 14) (code : Nat) :
    decodeElem fmt code = decodeFloat (floatFmt fmt) code := by
  rw [decodeElem, if_neg (by omega), if_neg (by omega), if_neg (by omega)]

theorem encodeElem_float {fmt : Nat} (hlo : 7 ≤ fmt) (mode r : Nat) (v : Num) :
    encodeElem fmt mode r v = encodeFloat (floatFmt fmt) mode r false v :=
  if_neg (by simp [fmtInteger]; omega)

section
variable {f : FloatFmt} {code : Nat}

/-- A finite code has a magnitude that its format allows. -/
theorem FloatFmt.Closed.mag_le (hf : f.Closed) (hfin : (decodeFloat f code).nonFinite = false) :
    code % 2 ^ (f.ebits + f.mbits) ≤ f.maxCode := by
  by_contra hmag
  have hlt := Nat.mod_lt code (Nat.two_pow_pos (f.ebits + f.mbits))
  rw [not_le] at hmag
  simp only [decodeFloat, if_pos hmag] at hfin
  rcases hf with hinfs | hnan | hall
  · simp only [hinfs, Bool.true_and, true_or, if_true] at hfin
    split at hfin <;> cases hfin
  · simp only [hnan, ne_eq, not_false_eq_true, or_true, if_true] at hfin
    split at hfin <;> cases hfin
  · omega

/-- A finite code's value: its sign, and a magnitude of subnormal or normal form (R290). -/
theorem decodeFloat_finite (hmag : code % 2 ^ (f.ebits + f.mbits) ≤ f.maxCode) :
    decodeFloat f code =
      let mag := code % 2 ^ (f.ebits + f.mbits)
      if mag / 2 ^ f.mbits = 0 then
        .fin (code.testBit (f.ebits + f.mbits)) (mag % 2 ^ f.mbits) (1 - f.bias - f.mbits)
      else .fin (code.testBit (f.ebits + f.mbits)) (2 ^ f.mbits + mag % 2 ^ f.mbits)
        ((mag / 2 ^ f.mbits : Nat) - f.bias - f.mbits) :=
  if_neg (by omega)

/-- A code is its sign bit and its magnitude. -/
theorem sign_add_mag {n : Nat} (h : code < 2 ^ (n + 1)) : b2n (code.testBit n) * 2 ^ n + code % 2 ^ n = code := by
  have hdiv : code / 2 ^ n < 2 := Nat.div_lt_of_lt_mul (by rwa [Nat.pow_succ] at h)
  have hbit : b2n (code.testBit n) = code / 2 ^ n := by
    rw [Nat.testBit_eq_decide_div_mod_eq, Nat.mod_eq_of_lt hdiv]
    rcases Nat.le_one_iff_eq_zero_or_eq_one.mp (Nat.lt_succ_iff.mp hdiv) with h0 | h1
    · rw [h0]; rfl
    · rw [h1]; rfl
  rw [hbit, Nat.mul_comm, Nat.div_add_mod]

/-- A value whose place is the format's own spacing there is written as its magnitude's code. -/
theorem encodeFloat_exact {mode r m : Nat} {neg : Bool} {e : Int} (hm : m ≠ 0)
    (hq : max (log2Of m e) (1 - f.bias) - f.mbits = e) (hc : magCode f m e ≤ f.maxCode) :
    encodeFloat f mode r false (.fin neg m e) = ⟨b2n neg * 2 ^ (f.ebits + f.mbits) + magCode f m e, 0, 0⟩ := by
  simp only [encodeFloat, if_neg hm, hq, roundTo_of_multiple, if_pos hc]

/-- A subnormal value, or a zero, is written as its mantissa. -/
theorem encodeFloat_subnormal {mode r m : Nat} {neg : Bool} (hm : m < 2 ^ f.mbits) (hc : m ≤ f.maxCode) :
    encodeFloat f mode r false (.fin neg m (1 - f.bias - f.mbits)) = ⟨b2n neg * 2 ^ (f.ebits + f.mbits) + m, 0, 0⟩ := by
  rcases Nat.eq_zero_or_pos m with rfl | hpos
  · rfl
  · have hlog : m.log2 < f.mbits := (Nat.log2_lt hpos.ne').mpr hm
    have hcode : magCode f m (1 - f.bias - f.mbits) = m := if_pos hm
    rw [encodeFloat_exact hpos.ne' ?_ (by rwa [hcode]), hcode]
    rw [log2Of, max_eq_right (by omega)]

/-- A normal value is written as its exponent and its mantissa. -/
theorem encodeFloat_normal {mode r ex man : Nat} {neg : Bool} (hex : ex ≠ 0) (hman : man < 2 ^ f.mbits)
    (hc : ex * 2 ^ f.mbits + man ≤ f.maxCode) :
    encodeFloat f mode r false (.fin neg (2 ^ f.mbits + man) (ex - f.bias - f.mbits))
      = ⟨b2n neg * 2 ^ (f.ebits + f.mbits) + (ex * 2 ^ f.mbits + man), 0, 0⟩ := by
  have hne : 2 ^ f.mbits + man ≠ 0 := by positivity
  have hlog : (2 ^ f.mbits + man).log2 = f.mbits :=
    (Nat.log2_eq_iff hne).mpr ⟨Nat.le_add_right .., by rw [Nat.pow_succ]; omega⟩
  have hcode : magCode f (2 ^ f.mbits + man) (ex - f.bias - f.mbits) = ex * 2 ^ f.mbits + man := by
    have hex' : ((ex : Int) - f.bias - f.mbits + f.bias + f.mbits).toNat - 1 = ex - 1 := by omega
    rw [magCode, if_neg (by omega), hex']
    obtain ⟨k, rfl⟩ := Nat.exists_eq_succ_of_ne_zero hex
    rw [Nat.succ_sub_one, Nat.succ_mul, Nat.add_assoc]
  rw [encodeFloat_exact hne ?_ (by rwa [hcode]), hcode]
  rw [log2Of, hlog, max_eq_left (by omega)]
  omega

/-- A finite code of a format, read and written again, is itself. -/
theorem encodeFloat_decodeFloat (hf : f.Closed) (hcode : code < 2 ^ (f.ebits + f.mbits + 1))
    (hfin : (decodeFloat f code).nonFinite = false) (mode r : Nat) :
    encodeFloat f mode r false (decodeFloat f code) = ⟨code, 0, 0⟩ := by
  have hmag := hf.mag_le hfin
  have hparts := Nat.div_add_mod' (code % 2 ^ (f.ebits + f.mbits)) (2 ^ f.mbits)
  have hman := Nat.mod_lt (code % 2 ^ (f.ebits + f.mbits)) (Nat.two_pow_pos f.mbits)
  rw [decodeFloat_finite hmag]
  dsimp only
  split
  · next hex =>
    rw [hex, Nat.zero_mul, Nat.zero_add] at hparts
    rw [encodeFloat_subnormal hman (by rwa [hparts]), hparts, sign_add_mag hcode]
  · next hex => rw [encodeFloat_normal hex hman (by rwa [hparts]), hparts, sign_add_mag hcode]
end

/-- Settles O59: the eight formats are closed, and of a closed one every finite code comes back. -/
theorem floatCodesRoundTrip : Obligations.FloatCodesRoundTrip := by
  unfold Obligations.FloatCodesRoundTrip
  intro fmt code mode r hlo hhi hcode hfin
  rw [decodeElem_float hlo hhi] at hfin ⊢
  rw [fmtBits_floatFmt hlo hhi] at hcode
  rw [encodeElem_float hlo, encodeFloat_decodeFloat (floatFmt_closed hlo hhi) hcode hfin]

end Sys2Proof.Machine
end

section
/-! PROOFS. Settles O11 and O12 (R50–R53, R63, R453, R474): power on and its loss, the supply and temperature monitors. -/

namespace Sys2Proof.Machine

/-! ### A command under its precondition -/

/-- A command whose precondition holds has its effect. -/
theorem next_if_pos {c : Prop} [Decidable c] {s t : State} (h : c) : (.next (if c then t else s) : Result) = .next t :=
  congrArg _ (if_pos h)

/-- A command that nothing holds back has its effect. -/
theorem next_if_neg {c : Prop} [Decidable c] {s t : State} (h : ¬c) : (.next (if c then s else t) : Result) = .next t :=
  congrArg _ (if_neg h)

/-! ### Power on -/

/-- A part without power has every domain off. -/
theorem State.withoutPower_domain (s : State) (run : RunPhase) (d : Nat) : (s.withoutPower run).domain d = .off := by
  rw [State.domain, List.getD_eq_getElem?_getD]
  change ((List.replicate 39 Domain.off)[d]?).getD .off = .off
  rw [List.getElem?_replicate]
  split
  · rfl
  · rfl

/-- The AON thermal stop takes the power away from any part that has it (R50). -/
theorem execAonThermalStop_on {s : State} (hstopped : ∀ b, s.power.run ≠ .stopped b) (hon : s.power.run ≠ .unpowered) :
    execAonThermalStop s = .next (s.withoutPower (.stopped true)) := by
  unfold execAonThermalStop
  split
  · next h => exact absurd h hon
  · next b h => exact absurd h (hstopped b)
  all_goals rfl

/-- Sampling the straps writes registers, and a fault record when they hold 3. -/
theorem State.sampleStraps_eq (s : State) (boot clkm : Nat) : ∃ t : State, t = { s with regs := t.regs } ∧
    (s.sampleStraps boot clkm = t ∨ s.sampleStraps boot clkm = t.fault .clk 0x9002) := by
  refine ⟨((s.wr .rstc RSTC.STRAP_BOOT boot).wr .clk CLK.STRAP_CLKM (clkm % 4)).wr .clk CLK.STRAP_RSVD (b2n (clkm % 4 = 3)),
    rfl, ?_⟩
  unfold State.sampleStraps
  dsimp only
  split
  · exact .inr rfl
  · exact .inl rfl

/-- What the straps' sampling leaves as it was. -/
theorem State.sampleStraps_frame (s : State) (boot clkm : Nat) :
    (s.sampleStraps boot clkm).power = s.power ∧ (s.sampleStraps boot clkm).mgc = s.mgc
      ∧ (s.sampleStraps boot clkm).time = s.time ∧ (s.sampleStraps boot clkm).fabric = s.fabric := by
  obtain ⟨t, ht, h | h⟩ := s.sampleStraps_eq boot clkm
  · rw [h, ht]
    exact ⟨rfl, rfl, rfl, rfl⟩
  · rw [h, State.fault_power, State.fault_mgc, State.fault_time, State.fault_fabric, ht]
    exact ⟨rfl, rfl, rfl, rfl⟩

/-- What FACTORY gives AON: registers and the life-cycle state. -/
theorem State.loadFactory_frame (s : State) :
    s.loadFactory = { s with
      regs := s.loadFactory.regs
      mgc := { s.mgc with lifeCycle := if s.mgc.store.scrapped then 6 else s.mgc.store.keyBlock.lifeCycle } } := by
  simp only [State.loadFactory, State.wr, List.range_succ, List.range_zero, List.nil_append, List.foldl_append,
    List.foldl_cons, List.foldl_nil]

/-- Settles O11: the loss of power by `withoutPower`, the release by the frames of its two loads, the check by its operand. -/
theorem powerOnCompletes : Obligations.PowerOnCompletes := by
  unfold Obligations.PowerOnCompletes
  refine ⟨fun s t run ht => ⟨?lost, ?on, ?detector, ?thermal⟩, ?release, ?check⟩
  case lost =>
    rw [ht]
    exact ⟨rfl, rfl, rfl, rfl, rfl, rfl, rfl, rfl, rfl, rfl, rfl, s.withoutPower_domain run, rfl, rfl, rfl⟩
  case on =>
    rintro hrun rfl
    rw [ht]
    exact next_if_pos hrun
  case detector =>
    rintro hrun rfl
    rw [ht]
    exact next_if_neg hrun
  case thermal =>
    rintro hstopped hon rfl
    rw [ht]
    exact execAonThermalStop_on hstopped hon
  case release =>
    intro s boot clkm high hrun
    refine ⟨_, next_if_neg (not_not_intro hrun), ?_⟩
    obtain ⟨hpower, hmgc, htime, hfabric⟩ := State.sampleStraps_frame _ _ _
    rw [hpower, hmgc, htime, hfabric, State.loadFactory_frame]
    exact ⟨rfl, rfl, rfl, rfl, rfl, rfl, rfl, rfl⟩
  case check =>
    intro s ok hrun hpassed
    have hdue : ¬(s.power.run ≠ .cold ∨ s.power.checkPassed = true) := by simp [hrun, hpassed]
    refine (next_if_neg hdue).trans ?_
    cases ok
    · rfl
    · rfl

/-! ### Supply and temperature -/

/-- Settles O12: each row's precondition holds, so that its definition gives the effect. -/
theorem supplyProtectionCompletes : Obligations.SupplyProtectionCompletes := by
  unfold Obligations.SupplyProtectionCompletes
  refine ⟨?regulators, ?trip, ?refLoss, ?firstLock, ?endOfLife⟩
  case regulators =>
    intro s hon
    exact next_if_pos hon
  case trip =>
    intro s i hon
    exact ⟨_, _, next_if_pos hon, rfl, rfl⟩
  case refLoss =>
    intro s hready hsrc hhold
    exact next_if_pos ⟨hready, hsrc, hhold⟩
  case firstLock =>
    intro s hready hstrap hlock hfirst
    exact next_if_pos ⟨hready, hstrap, hlock, by rw [hfirst]; rfl⟩
  case endOfLife =>
    intro s tx hon hlit
    exact next_if_pos (Bool.and_eq_true_iff.mpr ⟨hon, hlit⟩)

end Sys2Proof.Machine
end

section
/-! PROOFS. Settles O14, O15 and O16 (R46, R47, R53, R56–R60, R67): wake, warm reset, and the checks while PD38 ramps. -/

namespace Sys2Proof.Machine

/-- Settles O14: each row's precondition holds. -/
theorem wakeCompletes : Obligations.WakeCompletes := by
  unfold Obligations.WakeCompletes
  refine ⟨?timer, ?start⟩
  case timer =>
    intro s hsleep hexit hwake hen hbeat
    exact next_if_pos ⟨hsleep, by rw [hexit]; rfl, by rw [hwake]; rfl, hen, hbeat⟩
  case start =>
    intro s t b hwake hsleep hexit hdue hwarm ht
    have hstart : execWakePd38Start s
        = .next (if s.domainReady 38 = true then t.mgcRequests.checkBringup else t.startPd38) := by
      rw [ht]
      simp only [execWakePd38Start, hwake]
      exact next_if_pos ⟨hsleep, by rw [hexit]; rfl, hdue, by rw [hwarm]; rfl⟩
    refine ⟨fun hready => hstart.trans (congrArg _ (if_pos hready)), fun hready => hstart.trans (congrArg _ (if_neg ?_))⟩
    rw [hready]
    exact Bool.false_ne_true

/-! ### The warm reset -/

/-- Settling the causes changes the Plinth, its registers and its event. -/
theorem State.settle_frame (s : State) :
    s.settle = { s with plinth := s.settle.plinth, regs := s.settle.regs, events := s.settle.events } := by
  unfold State.settle
  dsimp only
  split
  · rw [State.raise_frame]
    rfl
  · rfl

/-- Ending causes changes the Plinth, its registers and its event. -/
theorem State.endCauses_frame (s : State) (code : Nat) (f : Nat → Bool) :
    s.endCauses code f = { s with
      plinth := (s.endCauses code f).plinth, regs := (s.endCauses code f).regs, events := (s.endCauses code f).events } := by
  unfold State.endCauses
  dsimp only
  rw [State.settle_frame]

/-- The causes that end when a warm reset begins: no trip is held after them, power and cameras stay as they were. -/
theorem State.endTrips_leaves (s : State) :
    s.endTrips.power = s.power ∧ s.endTrips.vision = s.vision ∧ s.endTrips.sensors.trips = [] := by
  unfold State.endTrips
  dsimp only
  rw [State.endCauses_frame]
  exact ⟨rfl, rfl, rfl⟩

/-- Settles O15: each row's precondition holds; of the reset's beginning, what the last operations keep. -/
theorem warmResetCompletes : Obligations.WarmResetCompletes := by
  unfold Obligations.WarmResetCompletes
  refine ⟨?fallCold, ?fallOn, ?rise, ?begins, ?restarts⟩
  case fallCold =>
    intro s hlow hrun
    simp [exec, execResetNFall, hlow, hrun]
  case fallOn =>
    intro s t hlow hrun ht
    simp [exec, execResetNFall, hlow, hrun, ht]
  case rise =>
    intro s boot clkm hlow hon
    simp [exec, execResetNRise, hlow, hon]
  case begins =>
    intro s w hwarm hdue
    simp only [exec, execWarmResetBegin, hwarm]
    refine ⟨_, next_if_neg (by simp [hdue]), ?_⟩
    obtain ⟨hpower, hvision, htrips⟩ := State.endTrips_leaves (State.countWarm (State.wr _ .pdc PDC.IN_SLEEP 0) w)
    rw [State.auditStart, State.plinthAudit_power, State.plinthAudit_vision, State.plinthAudit_sensors, hpower, hvision,
      htrips]
    exact ⟨rfl, rfl, rfl, rfl, rfl, rfl, rfl, rfl, rfl, rfl, rfl⟩
  case restarts =>
    intro s w hwarm hlow hdue
    simp only [exec, execWarmRestart, hwarm]
    exact next_if_pos (by simpa [hlow] using hdue)

/-! ### The checks while PD38 ramps -/

/-- The firmware check of the store's image, where the straps ask for it and no check has been made (R56, R57). -/
theorem execFirmwareVerify_store {s : State} {b : Nat} (hramp : s.domain 38 = .ramping b)
    (hnot : s.power.firmwareChecked = false) (hlink : s.power.linkBoot = false) (hstrap : s.rd .rstc RSTC.STRAP_BOOT < 2)
    (bad : Bool) :
    execFirmwareVerify bad s = .next (
      if bad then ((s.fault .mgc 0x1050).fault .mgc 0x8010).awaitBoot
      else if !(s.mgc.store.fwSigned s.mgc.store.fwHeader && fwBodyOk s.mgc.store.fwHeader s.mgc.store.firmware) then
        (s.fault .mgc 0x8010).awaitBoot
      else if fwVersionOf s.mgc.store.fwHeader < s.mgc.store.keyBlock.fwFloor then (s.fault .mgc 0x8011).awaitBoot
      else s.runFirmware s.mgc.store.fwHeader) := by
  simp only [execFirmwareVerify, hramp]
  rw [if_neg (by simp [hnot, hlink]), if_neg (by omega)]

/-- Settles O16: the firmware check by `execFirmwareVerify_store`, the option pass by the results of its layers. -/
theorem bootChecksComplete : Obligations.BootChecksComplete := by
  unfold Obligations.BootChecksComplete
  refine ⟨?firmware, ?readError, ?pass⟩
  case firmware =>
    rintro s b h hramp hnot hlink hstrap rfl
    have hcheck := execFirmwareVerify_store hramp hnot hlink hstrap
    refine ⟨hcheck true, fun hbad => (hcheck false).trans ?unsigned,
      fun hok => ⟨fun hold => (hcheck false).trans ?old, fun hnew => (hcheck false).trans ?new⟩⟩
    case unsigned => simp [hbad]
    case old => simp [hok, hold]
    case new => simp [hok, Nat.not_lt.mpr hnew]
  case readError =>
    intro s hrun
    simp [exec, execOptionPass, hrun]
  case pass =>
    intro s t t2 fac rs hrun hplan hfac hrs hvalid hfirst himage hsecond
    subst hfac hrs
    simp only [exec, execOptionPass, hrun, hplan, hvalid, hfirst, himage, hsecond, Bool.not_true, Bool.false_eq_true,
      if_false, if_true, or_self, ne_eq, not_true]

end Sys2Proof.Machine
end

section
/-! PROOFS. Settles O17–O21 (R34, R75–R83): the host links come up, carry cells, retrain and go down. -/

namespace Sys2Proof.Machine

/-! ### Coming up -/

/-- Block lock on a lane pair of a powered port that is not in use yet (R75, R76). -/
theorem execHlBlockLock_locks {s : State} {port : Fin 2} {rx partner : BitVec 4} (hon : s.hlkOn port.val = true)
    (hst : s.rd (.hlk port.val) HLK.LINK_STATE = 1 ∨ s.rd (.hlk port.val) HLK.LINK_STATE = 2)
    (hpair : rx.toNat &&& 3 = 3 ∨ rx.toNat &&& 12 = 12) :
    execHlBlockLock port rx partner s = .next (match (s.setRxLock port.val rx.toNat).chooseWidth port.val
        (rx.toNat &&& partner.toNat) with
      | none => (s.setRxLock port.val rx.toNat).linkState port.val 2
      | some w => (s.setRxLock port.val rx.toNat).negotiate port.val w) := by
  refine (next_if_neg ?_).trans rfl
  simp only [hon, hpair, decide_true, Bool.not_true, Bool.false_eq_true, or_false, false_or, not_and, not_not]
  intro hne
  exact hst.resolve_left hne

/-- A HELLO in NEGOTIATE whose locks give a width (R75, R77). -/
theorem State.takeHello_width {s : State} {p versions lock w : Nat} (hst : s.rd (.hlk p) HLK.LINK_STATE = 3)
    (hw : s.chooseWidth p ((s.port p).rxLock &&& lock) = some w) :
    s.takeHello p versions lock =
      if versions.testBit 1 then (s.wr (.hlk p) HLK.WIDTH w).comeUp p
      else if (s.port p).versionNoneSent then s.wr (.hlk p) HLK.WIDTH w
      else ((s.wr (.hlk p) HLK.WIDTH w).setPort p { s.port p with versionNoneSent := true }).fault (.hlk p) 0x2030 := by
  unfold State.takeHello
  simp only [hst, hw, if_true]

/-- Settles O17: block lock by `execHlBlockLock_locks`, HELLO by `takeHello_width`, its repetition by its due beat. -/
theorem linkComesUp : Obligations.LinkComesUp := by
  unfold Obligations.LinkComesUp
  refine ⟨?lock, ?hello, ?resend⟩
  case lock =>
    rintro s t port rx partner p rfl hon hst hpair rfl
    have hlock := execHlBlockLock_locks (partner := partner) hon hst hpair
    refine ⟨fun hnone => hlock.trans ?_, fun w hw => hlock.trans ?_⟩
    · rw [hnone]
    · rw [hw]
  case hello =>
    rintro s port versions lock width w p rfl hst hw
    have hhello := State.takeHello_width (versions := versions.toNat) hst hw
    refine ⟨fun hcommon => congrArg _ (hhello.trans ?_), fun hnone hsent => congrArg _ (hhello.trans ?_)⟩
    · rw [if_pos hcommon]
    · simp only [hnone, hsent, Bool.false_eq_true, if_false]
  case resend =>
    intro s port hst hdue
    exact next_if_pos ⟨hst, hdue⟩

/-! ### Cells -/

/-- Settles O18: a cell of the right length at a port in NEGOTIATE or UP, whichever branch its check takes. -/
theorem cellReceiveCompletes : Obligations.CellReceiveCompletes := by
  unfold Obligations.CellReceiveCompletes
  rintro s t port cell fec hlength hon hst rfl
  have hcell : execCellReceive port cell fec s = .next (
      if fec = .uncorrectable ∨ field cell 60 4 ≠ crc32c (cell.take 60) then (s.takeFec port.val fec).discardCell port.val
      else (s.takeFec port.val fec).takeCell port cell) := by
    have hdue : ¬((!s.hlkOn port.val) = true ∨ (s.rd (.hlk port.val) HLK.LINK_STATE ≠ 3
        ∧ s.rd (.hlk port.val) HLK.LINK_STATE ≠ 4)) := by
      rcases hst with h | h
      · simp [hon, h]
      · simp [hon, h]
    exact (if_neg (not_not_intro hlength)).trans (next_if_neg hdue)
  refine ⟨fun hfec hcrc => hcell.trans (next_if_neg ?_), fun hbad => hcell.trans (next_if_pos hbad)⟩
  rintro (hfec' | hcrc')
  · exact hfec hfec'
  · exact hcrc' hcrc

/-- Settles O19: on a port that is UP each of the four takes its branch. -/
theorem linkControlCompletes : Obligations.LinkControlCompletes := by
  unfold Obligations.LinkControlCompletes
  rintro s port p rfl hup
  refine ⟨?nak, ?replay, ?credit, next_if_pos hup⟩
  case nak =>
    intro lseq
    exact next_if_pos hup
  case replay =>
    intro c r hcells hdue
    simp only [exec, execReplayTmo, hcells]
    exact next_if_pos ⟨hup, hdue⟩
  case credit =>
    rintro a b c d x rfl
    exact next_if_pos hup

/-! ### Retrain and loss -/

/-- Settles O20: each row's precondition holds; a retrain's end has the width that the lanes give. -/
theorem linkGoesDown : Obligations.LinkGoesDown := by
  unfold Obligations.LinkGoesDown
  rintro s port p rfl
  refine ⟨?done, ?timeout, ?dark, ?keepalive⟩
  case done =>
    rintro rx partner t u w hst hdue rfl hw rfl
    refine (next_if_pos ⟨hst, hdue⟩).trans ?_
    dsimp only
    rw [hw]
  case timeout =>
    intro hst hlate
    exact next_if_pos ⟨hst, hlate⟩
  case dark =>
    intro b hdark hon hdue
    simp only [exec, execLanesDarkTimeout, hdark]
    exact next_if_pos ⟨hon, hdue⟩
  case keepalive =>
    intro hup hlate
    exact next_if_pos ⟨hup, hlate⟩

/-- A port that exists reads as it was set. -/
theorem State.port_setPort {s : State} {p : Nat} (hp : p < s.link.ports.length) (x : HlPort) : (s.setPort p x).port p = x := by
  rw [State.port, State.setPort, List.getD_eq_getElem?_getD, List.getElem?_set_self hp]
  rfl

/-- Both ports exist in a state with every list of units. -/
theorem State.Sized.port_lt {s : State} (h : s.Sized) (p : Fin 2) : p.val < s.link.ports.length := by
  obtain ⟨hports, -⟩ := h
  rw [hports]
  exact p.isLt

/-- Settles O21: each receiver's branch, on a part that is powered. -/
theorem signalCommandsComplete : Obligations.SignalCommandsComplete := by
  unfold Obligations.SignalCommandsComplete
  refine ⟨fun s n => ⟨rfl, rfl⟩, fun s p lane hon => ⟨rfl, ?light⟩, fun s p hon => ⟨next_if_neg ?dark, next_if_pos hon⟩⟩
  case light =>
    refine ⟨_, next_if_pos hon, rfl, rfl, fun hsized => ?_⟩
    exact State.port_setPort (hsized.port_lt p) _
  case dark => simp [hon]

end Sys2Proof.Machine
end

section
/-! PROOFS. Settles O23, O24 and O25 (R85, R86, R92–R102): the host's completions and jobs, sessions, the link boot. -/

namespace Sys2Proof.Machine

/-! ### Completions and jobs -/

/-- A completion of status OK for a request that is open. -/
theorem State.hostCompletion_ok {s : State} {p tag : Nat} {r : HostReq} {data : List Byte}
    (hreq : (s.port p).hostReqs.find? (·.tag = tag) = some r) (hdata : r.write = true ∨ data.length = r.len) {t : State}
    (ht : t = s.setPort p { s.port p with hostReqs := (s.port p).hostReqs.filter (·.tag ≠ tag) }) :
    s.hostCompletion p tag 0 data = if r.write then t else (t.markWrite r.ctx r.dest).store r.dest data := by
  rw [ht]
  unfold State.hostCompletion
  simp only [hreq]
  refine if_neg ?_
  rcases hdata with h | h
  · simp [h]
  · simp [h]

/-- Settles O23: a completion by `hostCompletion_ok`; a job is valid and finds a credit, or is the oldest and waits for
nothing. -/
theorem hostTransfersComplete : Obligations.HostTransfersComplete := by
  unfold Obligations.HostTransfersComplete
  refine ⟨?completion, ?submit, ?intake⟩
  case completion =>
    rintro s port tag r p rfl hreq
    refine ⟨fun data t hup ht => ⟨fun hread hlength => ?_, fun hwrite => ?_⟩, fun hlate => ?_⟩
    · refine congrArg _ ((State.whenUp_up hup).trans ?_)
      exact (State.hostCompletion_ok hreq (.inr hlength) ht).trans (if_neg (by rw [hread]; exact Bool.false_ne_true))
    · refine congrArg _ ((State.whenUp_up hup).trans ?_)
      exact (State.hostCompletion_ok hreq (.inl hwrite) ht).trans (if_pos hwrite)
    · simp only [exec, execHostTimeout, hreq]
      exact next_if_pos hlate
  case submit =>
    intro s rq param body hup hcredit hvalid
    refine congrArg _ ((State.whenUp_up hup).trans ?_)
    exact (if_neg hcredit).trans (if_pos hvalid)
  case intake =>
    intro s port j l hjobs hwaits hon hsized
    simp only [exec, execJobIntakeAdmit, hjobs]
    refine ⟨_, next_if_pos (by simp [hwaits, hon]), rfl, ?_, rfl⟩
    exact State.port_setPort (hsized.port_lt port) _

/-! ### Sessions -/

/-- A message of an open session, or of no session. -/
theorem State.sidStatus_open {s : State} {rq : Req} (hsid : rq.sid ≠ 0) (hopen : s.sessionOpen rq.port rq.sid = true) :
    s.sidStatus rq = 0 := by
  rw [State.sidStatus, if_neg hsid, if_pos hopen]

/-- Settles O24: each message passes its checks, each time has come. -/
theorem sessionCommandsComplete : Obligations.SessionCommandsComplete := by
  unfold Obligations.SessionCommandsComplete
  refine ⟨?openS, ?response, ?result, ?lockout, ?nonce, ?close, ?copy, ?loss⟩
  case openS =>
    intro s rq role hup hsid hbusy hrole hboot hscrapped
    refine congrArg _ ((State.whenUp_up hup).trans ?_)
    have hallowed : ¬(decide (role.val = 0) || s.power.linkBoot || (decide (s.lifeCycle = 6) && decide (role.val ≠ 3))) = true := by
      simpa [hrole, hboot] using hscrapped
    exact (if_neg (not_not_intro hsid)).trans ((if_neg (by rw [hbusy]; exact Bool.false_ne_true)).trans (if_neg hallowed))
  case response =>
    intro s rq sig c hup hsid hnone hchallenge hfresh
    refine congrArg _ ((State.whenUp_up hup).trans ?_)
    simp only [State.takeResponse, hsid, hnone, hchallenge, sessionBeats, hfresh, ne_eq, not_true, if_false, if_true,
      Option.isSome_none, Bool.false_eq_true]
  case result =>
    rintro s t port r rq hresponse rfl rfl
    refine ⟨fun role hok => ?_, fun c hfail hc => ?_⟩
    · simp only [exec, execSessionResult, hresponse, hok]
    · simp only [exec, execSessionResult, hresponse, hfail, hc]
  case lockout =>
    intro s port e hend hdue
    simp only [exec, execLockoutEnd, hend]
    exact next_if_pos hdue
  case nonce =>
    intro s port c hchallenge hdue
    simp only [exec, execNonceExpire, hchallenge]
    exact next_if_pos hdue
  case close =>
    rintro s t rq hup hsid hopen rfl
    refine congrArg _ ((State.whenUp_up hup).trans ?_)
    exact if_neg (not_not_intro (State.sidStatus_open hsid hopen))
  case copy =>
    intro s rq param hup hsid hmaker hopen hparam
    refine congrArg _ ((State.whenUp_up hup).trans ?_)
    exact (if_neg (not_not_intro (State.sidStatus_open hsid hopen))).trans ((if_neg hmaker).trans (if_neg (by omega)))
  case loss =>
    intro s port hpending hroom
    exact next_if_pos (by simp [hpending, hroom])

/-! ### The link boot -/

/-- BOOT_END of the boot's own port, once it may send. -/
theorem State.endBoot_of_ready {s : State} {b : BootSession} {rq : Req} (hsid : s.foreignSid rq = false)
    (hboot : s.link.boot = some b) (hlink : s.power.linkBoot = true) (hport : b.port = rq.port) (hready : b.ready = true)
    {t : State} (ht : t = ({ s with link := { s.link with boot := none } } : State).wr (.hlk rq.port) HLK.BOOT_PORT 0) :
    s.endBoot rq =
      if s.bootBodyOk b then
        let v := (t.complete rq 0xA2 0).runFirmware b.header
        (({ v with link := { v.link with bootedFirmware := some (fwVersionOf b.header, slice b.header 16 32) } } :
            State).setPort rq.port { (v.port rq.port).restart with rxLock := (v.port rq.port).rxLock }).negotiate rq.port
          (v.rd (.hlk rq.port) HLK.WIDTH)
      else (t.fault .mgc 0x8010).complete rq 0xA2 0x0E := by
  rw [ht]
  unfold State.endBoot
  simp only [hboot, hsid, hlink, hport, hready, Bool.not_true, Bool.false_eq_true, ne_eq, not_true, decide_false,
    Bool.or_false, if_false]
  rfl

/-- Settles O25: each message of the boot's own port passes its checks. -/
theorem linkBootCompletes : Obligations.LinkBootCompletes := by
  unfold Obligations.LinkBootCompletes
  refine ⟨?begins, ?ready, ?chunk, ?ends⟩
  case begins =>
    intro s rq h hup hsid hlink hnone hlength hsigned hfloor
    refine congrArg _ ((State.whenUp_up hup).trans ?_)
    simp only [State.beginBoot, hsid, hlink, hnone, hlength, hsigned, Nat.not_lt.mpr hfloor, ne_eq, not_true, decide_false,
      Bool.not_true, Bool.false_eq_true, Bool.or_false, if_false]
  case ready =>
    intro s b hboot hready hon
    simp only [exec, execBootBeginReady, hboot]
    exact next_if_pos (by simp [hready, hon])
  case chunk =>
    intro s b rq off data hup hsid hboot hlink hport hready hlength haligned hinside
    refine congrArg _ ((State.whenUp_up hup).trans ?_)
    simp only [State.bootChunk, hboot, hsid, hlink, hport, hready, hlength, haligned, Nat.not_le.mpr hinside, ne_eq,
      not_true, decide_false, Bool.not_true, Bool.false_eq_true, Bool.or_false, if_false]
  case ends =>
    intro s t b rq hup hsid hboot hlink hport hready ht
    have hend : execBootEnd rq s = .next (s.endBoot rq) := congrArg _ (State.whenUp_up hup)
    rw [State.endBoot_of_ready hsid hboot hlink hport hready ht] at hend
    refine ⟨fun hbad => hend.trans (next_if_neg ?_), fun hok => ⟨_, _, hend.trans (next_if_pos hok), rfl, rfl, rfl, rfl, rfl⟩⟩
    rw [hbad]
    exact Bool.false_ne_true

end Sys2Proof.Machine
end

section
/-! PROOFS. Settles O26–O32 (R43–R49, R71, R80, R121–R150, R247–R251, R320–R374, R410–R425, R441–R466): what an accepted
write of a row does is what its field's own action does under the row's hypotheses. -/

namespace Sys2Proof.Machine

variable {s : State} {rq : Req} {p : Page} {v m : Word} {f : RField}

/-! ### The PDC and the clock -/

/-- SLEEP_ENTER outside a warm reset and a sleep, with PD38 ready. -/
theorem sleepAct_awake (hwarm : s.power.warm = none) (hawake : s.asleep = false) (hready : s.domainReady 38 = true) :
    sleepAct s =
      let u := (s.abortTasks (s.amt.tasks.map (·.ctx)) 0).wr .pdc PDC.IN_SLEEP 1
      { u with power := { u.power with sleepDomains := (List.range 39).filter s.domainUp, wakeAt := none
                                       sleepPos := (u.plinth.odo.head?).map (·.pos) } } := by
  unfold sleepAct
  simp only [hwarm, hawake, hready, Option.isSome_none, Bool.not_true, Bool.false_eq_true, or_self, if_false]

/-- REVERT while the strapped reference is present. -/
theorem clkRevertAct_present (hholdover : s.rd .clk CLK.HOLDOVER = 1)
    (hlane : s.rd .clk CLK.STRAP_CLKM ≠ 2 ∨ s.clock.hl0Locked = true) :
    clkRevertAct s true = (s.wr .clk CLK.HOLDOVER 0).wr .clk CLK.ACTIVE_SRC (s.rd .clk CLK.STRAP_CLKM) :=
  if_pos (by simp [hholdover, hlane])

/-- REVERT without the strapped reference does nothing. -/
theorem clkRevertAct_absent : clkRevertAct s false = s := if_neg (by simp)

/-- Settles O26: the request registers, SLEEP_ENTER and REVERT, each by its own action. -/
theorem powerWritesComplete : Obligations.PowerWritesComplete := by
  unfold Obligations.PowerWritesComplete
  refine ⟨?request, ?sleep, ?revert⟩
  case request =>
    rintro rq second v m s f rfl haccepts honly
    cases second with
    | false => exact congrArg _ (State.write_onReq0 haccepts honly)
    | true => exact congrArg _ (State.write_onReq1 haccepts honly)
  case sleep =>
    intro rq v m s haccepts honly hgiven hwarm hawake hready
    refine ⟨_, _, congrArg _ ((State.write_sleepEnter haccepts honly).trans ?_), rfl, rfl⟩
    rw [if_pos (decide_eq_true hgiven), sleepAct_awake hwarm hawake hready]
  case revert =>
    intro rq v m s haccepts honly hgiven hholdover
    refine ⟨fun hlane => congrArg _ ((State.write_clkRevert haccepts honly).trans ?_),
      congrArg _ ((State.write_clkRevert haccepts honly).trans ?_)⟩
    · rw [if_pos (decide_eq_true hgiven), clkRevertAct_present hholdover hlane]
    · rw [if_pos (decide_eq_true hgiven), clkRevertAct_absent]

/-! ### Ports, streams, translation, the BOD and the post-mortem area -/

/-- RETRAIN of a port that is UP. -/
theorem State.enterRetrain_up {q : Nat} (h : s.rd (.hlk q) HLK.LINK_STATE = 4) :
    s.enterRetrain q =
      let u := (s.wr (.hlk q) HLK.LINK_STATE 5).count (.hlk q) HLK.CNT_RETRAIN
      u.setPort q { u.port q with retrainSince := u.time.beatNo, replayRun := 0 } :=
  if_pos h

/-- RESUME_CTX of a context whose waiting channel's block is now translated. -/
theorem resumeAct_walked {ctx : Nat} {c : Channel} {l : StreamList} {t : State}
    (hchannel : s.fabric.channels.find? (fun c => c.ctx = some ctx ∧ c.stalled.isSome) = some c) (hactive : c.active = some l)
    (hwalk : (s.xlateAll ctx false (cutRanges (s.blockAt l c.pos).runs)).2 = (none, t)) :
    resumeAct s ctx = t.setChan { c with stalled := none, resumed := true, walked := true } := by
  unfold resumeAct
  simp only [hchannel, hactive, hwalk]

/-- Settles O27: each row by its own action; a retrained port is then read back. -/
theorem portAndFabricWritesComplete : Obligations.PortAndFabricWritesComplete := by
  unfold Obligations.PortAndFabricWritesComplete
  refine ⟨?retrain, ?portEn, ?tunnel, ?params, ?release, ?arm, ?resume, ?invalidate, ?entry, ?bulk⟩
  case retrain =>
    intro rq port v m s haccepts honly hgiven hup
    refine ⟨_, congrArg _ ((State.write_retrain haccepts honly).trans
      (congrArg (State.wrote · _ _ _ _ _) ((if_pos (decide_eq_true hgiven)).trans (State.enterRetrain_up hup)))), rfl, rfl,
      fun hsized => ?_⟩
    exact State.port_setPort hsized _
  case portEn => exact fun rq v m s haccepts honly => congrArg _ (State.write_portEn haccepts honly)
  case tunnel =>
    rintro rq v m s t haccepts honly rfl
    exact congrArg _ (State.write_tunPush haccepts honly)
  case params => exact fun rq v m s t haccepts honly ht => congrArg _ (State.write_pqPush haccepts honly ht)
  case release =>
    intro rq v m s haccepts honly hgiven
    refine congrArg _ ((State.write_pmRelease haccepts honly).trans ?_)
    rw [if_pos (decide_eq_true hgiven)]
    rfl
  case arm =>
    rintro rq u ch v m s w hcore rfl haccepts honly hgiven
    refine congrArg _ ((State.write_arm hcore haccepts honly).trans ?_)
    rw [if_pos (decide_eq_true hgiven)]
    rfl
  case resume =>
    rintro rq v m s t c l ctx haccepts honly rfl hchannel hactive hwalk
    refine congrArg _ ((State.write_resumeCtx haccepts honly).trans ?_)
    rw [resumeAct_walked hchannel hactive hwalk]
  case invalidate => exact fun rq v m s haccepts honly => congrArg _ (State.write_invCtx haccepts honly)
  case entry => exact fun rq v m s t haccepts honly ht => congrArg _ (State.write_entHi haccepts honly ht)
  case bulk =>
    intro rq v m s haccepts honly hgiven
    refine congrArg _ ((State.write_bulkGo haccepts honly).trans ?_)
    rw [if_pos (decide_eq_true hgiven)]
    rfl

/-! ### Graph commands -/

/-- START with a package in the Maquette. -/
theorem startAct_loaded {k : Package} {e : Nat} (h : s.amt.maquette = some (k, e)) :
    startAct s =
      let c := (s.chooseEntry k).getD 0
      let t : State := { s with amt := { s.amt with
        maquette := some (k, c), op := some (.start (s.rd2 .amt AMT.AT_BEAT_LO AMT.AT_BEAT_HI)) } }
      (((t.writeSet k c).lockPages s (k.pages c)).sendLists k).wr .amt AMT.RUN_STATE 1 := by
  unfold startAct
  simp only [h]

/-- SWAP with a package in the Maquette. -/
theorem swapAct_loaded {k : Package} {e : Nat} (h : s.amt.maquette = some (k, e)) :
    swapAct s =
      let t : State := { s with amt := { s.amt with
        maquette := some (k, (s.chooseEntry k).getD 0)
        op := some (.swap s.time.beatNo (s.rd2 .amt AMT.AT_BEAT_LO AMT.AT_BEAT_HI)) } }
      (t.sendLists k).wr .amt AMT.RUN_STATE 3 := by
  unfold swapAct
  simp only [h]

/-- A command other than STOP concerns the Maquette's set. -/
theorem State.opGset_loaded {k : Package} {e : Nat} (h : s.amt.maquette = some (k, e)) : s.opGset false = k.gset := by
  unfold State.opGset
  simp only [h]

/-- STOP concerns the running set. -/
theorem State.opGset_running {r : RunSet} (h : s.amt.running = some r) : s.opGset true = r.pkg.gset := by
  unfold State.opGset
  simp only [h]

/-- A command of a value that OP_CMD knows. -/
theorem State.write_opCmd_of {n : Nat} {t : State} {r : Bool} (h : s.accepts rq .amt AMT.OP_CMD.off v m)
    (ho : Page.amt.only AMT.OP_CMD.off m AMT.OP_CMD 0 0) (hgiven : AMT.OP_CMD.given v.toNat m.toNat = n) (hn : n ≠ 0)
    (hact : opAct s n rq.sid rq.port = t) :
    s.regWrite1 rq .amt AMT.OP_CMD.off v m r = t.wrote rq .amt AMT.OP_CMD.off v m := by
  rw [State.write_opCmd h ho, hgiven, if_pos (decide_eq_true hn), hact]

/-- Settles O28: each value of OP_CMD by its own action, with the set it concerns. -/
theorem armatureWritesComplete : Obligations.ArmatureWritesComplete := by
  unfold Obligations.ArmatureWritesComplete
  refine fun rq v m s => ⟨fun haccepts honly => ⟨?load, ?start, ?stop, ?swap, ?discard⟩, ?address, ?cancel⟩
  case load => exact fun hgiven => congrArg _ (State.write_opCmd_of haccepts honly hgiven (by decide) rfl)
  case start =>
    rintro k e0 e t hgiven hloaded rfl rfl
    refine congrArg _ (State.write_opCmd_of haccepts honly hgiven (by decide) ?_)
    rw [← State.opGset_loaded hloaded]
    exact congrArg (State.auditOp · _ _ _ _ _) (startAct_loaded hloaded)
  case stop =>
    intro r hgiven hrunning
    refine congrArg _ (State.write_opCmd_of haccepts honly hgiven (by decide) ?_)
    rw [← State.opGset_running hrunning]
    rfl
  case swap =>
    rintro k e0 e t hgiven hloaded rfl rfl
    refine congrArg _ (State.write_opCmd_of haccepts honly hgiven (by decide) ?_)
    rw [← State.opGset_loaded hloaded]
    exact congrArg (State.auditOp · _ _ _ _ _) (swapAct_loaded hloaded)
  case discard =>
    intro k e0 hgiven hloaded
    refine congrArg _ (State.write_opCmd_of haccepts honly hgiven (by decide) ?_)
    rw [← State.opGset_loaded hloaded]
    rfl
  case address =>
    intro haccepts honly hgiven
    refine congrArg _ ((State.write_instCmd haccepts honly).trans ?_)
    rw [if_pos (decide_eq_true hgiven)]
    rfl
  case cancel => exact fun haccepts honly => congrArg _ (State.write_cancelCtx haccepts honly)

/-! ### The Plinth -/

/-- Settles O29: a clear is decided by its code; the other two by their own actions. -/
theorem plinthWritesComplete : Obligations.PlinthWritesComplete := by
  unfold Obligations.PlinthWritesComplete
  refine fun rq v m s => ⟨fun haccepts honly hgiven => ⟨fun hcode => ?clears, fun hcode => ?refuses⟩, ?inhibit, ?test⟩
  case clears =>
    refine congrArg _ ((State.write_plnClear haccepts honly).trans ?_)
    rw [if_pos (decide_eq_true hgiven), plnClearAct, State.decideClear, if_pos hcode, hcode]
  case refuses =>
    refine congrArg _ ((State.write_plnClear haccepts honly).trans ?_)
    rw [if_pos (decide_eq_true hgiven), plnClearAct, State.decideClear, if_neg hcode]
  case inhibit =>
    rintro haccepts honly n rfl
    exact congrArg _ (State.write_plnInhibit haccepts honly)
  case test =>
    intro haccepts honly hgiven
    refine congrArg _ ((State.write_rspReq haccepts honly).trans ?_)
    rw [if_pos (decide_eq_true hgiven), rspReqAct]

/-! ### The store, the management core and the life cycle -/

/-- A store command that begins changes its result's registers, its entry and its target in the store. -/
theorem storeAct_begins {c slot role port : Nat} {b : List Byte} {r : Nat} (hc : c ≠ 0)
    (hb : b = if storeReads c then s.load s.storeSrc (s.rd .mgc MGC.STORE_LEN) else [])
    (hr : r = s.storeResult c role b (s.rd .mgc MGC.STORE_LEN)) :
    storeAct s c slot role port =
      { s with
        regs := (s.wr .mgc MGC.STORE_BUSY 1).regs
        mgc := { s.mgc with
          store := if r = 0 then s.mgc.store.erase c slot else s.mgc.store
          storeCmd := some ⟨c, slot, b, s.rd .mgc MGC.STORE_LEN, r, role, port⟩ } } := by
  simp only [storeAct, if_neg hc, ← hb, ← hr]
  split <;> rfl

/-- Settles O30: every row is the same register write, whose command begins. -/
theorem storeWritesComplete : Obligations.StoreWritesComplete := by
  unfold Obligations.StoreWritesComplete
  rintro rq v m s c slot haccepts htouches rfl hc rfl
  have hwrite := State.write_store (r := false) haccepts htouches
  rw [storeAct_begins hc rfl rfl] at hwrite
  have hrow := congrArg (Host.Outcome.next : State → Result) hwrite
  exact ⟨_, fun _ => hrow, fun _ => hrow, fun _ => hrow, fun _ => hrow, fun _ => hrow, fun _ => hrow, fun _ => hrow, rfl, rfl,
    _, _, rfl, rfl, rfl, rfl⟩

/-- A requested change of life cycle begins. -/
theorem lcAct_begins {n role port : Nat} (hn : n ≠ 0) :
    lcAct s n role port =
      { s.wr .lcs LCS.CHANGING 1 with mgc := { s.mgc with change := some { target := n, role := role, port := port } } } :=
  if_neg hn

/-- Settles O31: a checkpoint is written at once, or waits for the attestation. -/
theorem controllerWritesComplete : Obligations.ControllerWritesComplete := by
  unfold Obligations.ControllerWritesComplete
  refine fun rq v m s => ⟨?attest, ?copy, ?checkpoint, ?change⟩
  case attest =>
    intro haccepts honly hgiven
    refine ⟨_, congrArg _ ((State.write_attGo haccepts honly).trans ?_), rfl⟩
    rw [if_pos (decide_eq_true hgiven)]
    rfl
  case copy =>
    intro haccepts honly hgiven
    refine congrArg _ ((State.write_audGo haccepts honly).trans ?_)
    rw [if_pos (decide_eq_true hgiven)]
    rfl
  case checkpoint =>
    intro haccepts honly hgiven hkeys
    refine ⟨fun hfree => congrArg _ ((State.write_audCkpt haccepts honly).trans ?_),
      fun hbusy => congrArg _ ((State.write_audCkpt haccepts honly).trans ?_)⟩
    · rw [if_pos (decide_eq_true hgiven), State.checkpoint, if_neg hkeys, if_neg (by simp [hfree])]
    · rw [if_pos (decide_eq_true hgiven), State.checkpoint, if_neg hkeys, if_pos (Option.isSome_iff_ne_none.mpr hbusy)]
  case change =>
    rintro n t haccepts honly rfl hn rfl
    have hwrite := State.write_lcReq (r := false) haccepts honly
    rw [lcAct_begins hn] at hwrite
    have hrow := congrArg (Host.Outcome.next : State → Result) hwrite
    exact ⟨fun _ => hrow, fun _ => hrow, fun _ => hrow, fun _ => hrow, fun _ => hrow⟩

/-! ### Header fields -/

/-- A write of SWRST changes no value by itself. -/
theorem State.plainWrite_swrst {a b : Nat} : s.plainWrite p a b (HDR.SWRST, 0, 0) = s := by
  unfold State.plainWrite fieldAccess actingField
  cases p.plinthGroup <;> rfl

/-- No header field but SWRST stores its value by its own effect, on any page. -/
theorem actingField_header (hf : f ∈ [HDR.EN, HDR.BLK_EVT_MASK]) : actingField p f = false := by
  simp only [List.mem_cons, List.not_mem_nil, or_false] at hf
  rcases hf with rfl | rfl <;> cases p <;> rfl

/-- A write of EN or of the event mask stores its value. -/
theorem State.plainWrite_stores {a b : Nat} (hf : f ∈ [HDR.EN, HDR.BLK_EVT_MASK]) :
    s.plainWrite p a b (f, 0, 0) = s.wr p f (f.merge (s.rd p f) a b) := by
  have hacts := actingField_header (p := p) hf
  simp only [List.mem_cons, List.not_mem_nil, or_false] at hf
  rcases hf with rfl | rfl <;> exact if_neg (by rw [hacts]; exact Bool.false_ne_true)

/-- A write of GO or of an event bit changes no value by itself. -/
theorem State.plainWrite_acts {a b : Nat} (hf : f ∈ [HDR.GO, HDR.BLK_EVT_STAT]) : s.plainWrite p a b (f, 0, 0) = s := by
  simp only [List.mem_cons, List.not_mem_nil, or_false] at hf
  rcases hf with rfl | rfl <;> cases p <;> rfl

/-- SWRST of a page with a class, not in reset and not in locked use. -/
theorem swrstAct_begins {role : Nat} (hclass : p.blockClass.isSome = true) (hidle : s.resetting p = false)
    (hfree : s.inLockedUse p = false) :
    swrstAct s p role =
      let t := ((({ s.absorb p with resets := (s.absorb p).resets ++ [⟨p.num, s.time.beatNo, role, false, 0, false, false⟩] } :
        State).wr p HDR.SWRST 1).wr p HDR.IDLE_REQ 1)
      if p.plinthGroup then t.addCause 1 0xFF else t :=
  if_neg (by simp [hidle, hfree, Option.isSome_iff_ne_none.mp hclass])

/-- The header's action on SWRST = 1. -/
theorem State.headerAct_swrst {t : State} {role : Nat} (hclass : p.blockClass.isSome = true) :
    s.headerAct t p HDR.SWRST 1 role = swrstAct s p role := by
  have hpage : p ≠ .mgc := by
    rintro rfl
    cases hclass
  unfold State.headerAct
  rw [if_neg (by decide), if_neg (by decide), if_pos (by simp [hpage])]

/-- A 32-bit field's given bits are the whole word's. -/
theorem given_evtStat : HDR.BLK_EVT_STAT.given v.toNat m.toNat = (v &&& m).toNat := by
  have hword : v.toNat &&& m.toNat < 2 ^ 32 := Nat.and_lt_two_pow _ m.isLt
  simp only [RField.given, bits, HDR.BLK_EVT_STAT, BitVec.toNat_and, Nat.shiftRight_zero]
  exact Nat.mod_eq_of_lt hword

/-- Events unmasked while set make the page's event due. -/
theorem State.unmask_eq (t : State) :
    s.unmask t p = { s with events := if (s.rd p HDR.BLK_EVT_MASK &&& s.rd p HDR.BLK_EVT_STAT)
      &&& (2 ^ 32 - 1 - t.rd p HDR.BLK_EVT_MASK) ≠ 0 then setInsert p.num s.events else s.events } := by
  unfold State.unmask
  dsimp only
  split <;> rfl

/-- Every CNT_CLR is a write-only field beyond the header of its page. -/
theorem Page.cntClr_plain (h : p.cntClr = some f) :
    f.off < 4096 ∧ 0x40 ≤ f.off ∧ ∀ (s : State) (a b : Nat), s.plainWrite p a b (f, 0, 0) = s := by
  unfold Page.cntClr at h
  split at h <;> cases h <;> exact ⟨by decide, by decide, fun _ _ _ => rfl⟩

/-- Settles O32: each header field by its own action, and CNT_CLR by clearing the counters. -/
theorem headerWritesComplete : Obligations.HeaderWritesComplete := by
  unfold Obligations.HeaderWritesComplete
  refine fun rq page p v m s hpage => ⟨?swrst, ?en, ?go, ?stat, ?mask, ?clear⟩
  case swrst =>
    rintro t haccepts honly hgiven hclass hidle hfree rfl
    refine congrArg _ ((State.regWrite_header hpage haccepts (by decide) honly (by decide)).trans ?_)
    rw [State.plainWrite_swrst, hgiven, State.headerAct_swrst hclass, swrstAct_begins hclass hidle hfree]
  case en =>
    intro haccepts honly
    refine congrArg _ ((State.regWrite_header hpage haccepts (by decide) honly (by decide)).trans ?_)
    rw [State.plainWrite_stores (by simp)]
    rfl
  case go =>
    intro haccepts honly hgiven
    refine congrArg _ ((State.regWrite_header hpage haccepts (by decide) honly (by decide)).trans ?_)
    rw [State.plainWrite_acts (by simp), hgiven]
    rfl
  case stat =>
    intro haccepts honly
    refine congrArg _ ((State.regWrite_header hpage haccepts (by decide) honly (by decide)).trans ?_)
    rw [State.plainWrite_acts (by simp), given_evtStat]
    rfl
  case mask =>
    rintro t haccepts honly rfl
    refine congrArg _ ((State.regWrite_header hpage haccepts (by decide) honly (by decide)).trans ?_)
    rw [State.plainWrite_stores (by simp)]
    exact congrArg (State.wrote · _ _ _ _ _) (State.unmask_eq s)
  case clear =>
    intro f hf haccepts honly hgiven
    obtain ⟨hword, hbeyond, hplain⟩ := Page.cntClr_plain hf
    have hnum : pageAt p.num = some p := by rw [pageAt_num hpage]; exact hpage
    simp only [exec, execCntClr, hpage, hf]
    exact congrArg _ (State.write_cntClr haccepts hnum hf hword hbeyond honly hgiven (hplain s _ _))

end Sys2Proof.Machine
end

section
/-! PROOFS. Settles O33 (R88, R89, R327, R472): register writes that every check lets through, and register reads. -/

namespace Sys2Proof.Machine

variable {s : State} {rq : Req} {p : Page}

/-- The lowest bytes of a number are those of its lowest part. -/
theorem leBytes_mod (n v : Nat) : leBytes n (v % 256 ^ n) = leBytes n v := by
  induction n generalizing v with
  | zero => rfl
  | succ n ih =>
    have hbyte : BitVec.ofNat 8 (v % 256 ^ (n + 1)) = BitVec.ofNat 8 v := by
      apply BitVec.eq_of_toNat_eq
      simp only [BitVec.toNat_ofNat]
      exact Nat.mod_mod_of_dvd v ⟨256 ^ n, Nat.pow_succ'⟩
    have hrest : v % 256 ^ (n + 1) / 256 = v / 256 % 256 ^ n := by
      rw [Nat.pow_succ', Nat.mod_mul_right_div_self]
    rw [leBytes, leBytes, hbyte, hrest, ih]

/-- A register write that every check lets through completes OK, held by its audit entry. -/
theorem State.regWrite_ok {off : Nat} {l : List (Nat × Nat)} {r : Bool} (hup : s.portUp rq.port = true)
    (hcheck : (s.writeCheck rq off l).1 = 0) (hpage : pageAt (off / 4096) = some p) (hbit : p.writesBit (off % 4096) l = true) :
    s.regWrite rq off l r = (s.pairsAct p rq.sid rq.port r (off % 4096) l).completeAudited rq 0x82 0 0x20 (regAuditData off l) := by
  unfold State.regWrite
  simp only [hup, hcheck, hpage, hbit, Bool.not_true, Bool.false_eq_true, if_false, ne_eq, not_true, if_true]

/-- A register read of words that exist answers them. -/
theorem State.regRead_ok {off n : Nat} (hup : s.portUp rq.port = true)
    (hsid : rq.sid = 0 ∨ s.sessionOpen rq.port rq.sid = true) (hone : 1 ≤ n) (hsixteen : n ≤ 16) (haligned : off % 4 = 0)
    (hinside : off % 4096 + 4 * n ≤ 4096) (hregs : inRetention off = false) (hpage : pageAt (off / 4096) = some p)
    (hstatus : s.pageStatus p (off % 4096 + 4 * n - 4) = 0)
    (hopen : rq.sid ≠ 0 ∨ p.isOpen = true ∨ off % 4096 + 4 * n - 4 < 0x40) :
    s.regRead rq off n =
      (s.readWords p (off % 4096) n).2.complete rq 0x81 0 0 (s.readWords p (off % 4096) n).1 := by
  have hsession : ¬ ((rq.sid ≠ 0 && !s.sessionOpen rq.port rq.sid) = true) := by
    rcases hsid with h | h <;> simp [h]
  have hrange : ¬ (n = 0 ∨ 16 < n ∨ off % 4 ≠ 0 ∨ off / 4096 ≠ (off + 4 * n - 4) / 4096) := by omega
  have hright : ¬ ((rq.sid = 0 && !p.isOpen && 0x40 ≤ off % 4096 + 4 * n - 4) = true) := by
    rcases hopen with h | h | h
    · simp [h]
    · simp [h]
    · simp [Nat.not_le.mpr h]
  unfold State.regRead
  rw [if_neg (by simp [hup]), if_neg hsession, if_neg hrange, if_neg (by simp [hregs])]
  simp only [hpage]
  rw [if_neg hright, if_neg (by simp [hstatus])]

/-- A read of BEAT_LO answers the beat's lower word and latches BEAT_HI. -/
theorem State.readWord_beatLo :
    s.readWord .dev DEV.BEAT_LO.off = (s.time.beatNo % 2 ^ 32, s.wr .dev DEV.BEAT_HI (s.time.beatNo / 2 ^ 32)) := by
  have hfields : Page.dev.wordFields DEV.BEAT_LO.off = [(DEV.BEAT_LO, 0, 0)] := by decide +kernel
  have hread : s.readField .dev (DEV.BEAT_LO, 0, 0) =
      (s.time.beatNo % 2 ^ 32, s.wr .dev DEV.BEAT_HI (s.time.beatNo / 2 ^ 32)) := rfl
  simp only [State.readWord, hfields, List.foldl_cons, List.foldl_nil, hread]
  simp [DEV.BEAT_LO]

/-- A read of ENT_LO answers the entry's lower word and latches both. -/
theorem State.readWord_entLo {e : Nat} (he : e = s.bodEntry (s.rd .bod BOD.ENT_SEL)) :
    s.readWord .bod BOD.ENT_LO.off =
      (e % 2 ^ 32, (s.wr .bod BOD.ENT_LO (e % 2 ^ 32)).wr .bod BOD.ENT_HI (e / 2 ^ 32)) := by
  have hfields : Page.bod.wordFields BOD.ENT_LO.off = [(BOD.ENT_LO, 0, 0)] := by decide +kernel
  have hread : s.readField .bod (BOD.ENT_LO, 0, 0) =
      (e % 2 ^ 32, (s.wr .bod BOD.ENT_LO (e % 2 ^ 32)).wr .bod BOD.ENT_HI (e / 2 ^ 32)) := by
    rw [he]
    rfl
  simp only [State.readWord, hfields, List.foldl_cons, List.foldl_nil, hread]
  simp [BOD.ENT_LO]

/-- One word read. -/
theorem State.readWords_one {w v : Nat} {t : State} (h : s.readWord p w = (v, t)) : s.readWords p w 1 = (leBytes 4 v, t) := by
  simp only [State.readWords, h, List.append_nil]

/-- A register read of the one word at a page's offset. -/
theorem State.regRead_one {w v : Nat} {t : State} (hup : s.portUp rq.port = true)
    (hsid : rq.sid = 0 ∨ s.sessionOpen rq.port rq.sid = true) (haligned : w % 4 = 0) (hinside : w + 4 ≤ 4096)
    (hregs : inRetention (p.num * 4096 + w) = false) (hpage : pageAt p.num = some p) (hstatus : s.pageStatus p w = 0)
    (hopen : rq.sid ≠ 0 ∨ p.isOpen = true) (hword : s.readWord p w = (v, t)) :
    s.regRead rq (p.num * 4096 + w) 1 = t.complete rq 0x81 0 0 (leBytes 4 v) := by
  have hnum : (p.num * 4096 + w) / 4096 = p.num := by omega
  have hoff : (p.num * 4096 + w) % 4096 = w := by omega
  have hread := State.regRead_ok (off := p.num * 4096 + w) (n := 1) hup hsid (by decide) (by decide) (by omega) (by omega)
    hregs (hnum.symm ▸ hpage) (by rw [hoff]; exact hstatus) (hopen.imp_right .inl)
  rw [hoff, State.readWords_one hword] at hread
  exact hread

/-- Settles O33: a write by its checks; a read by the words it names, the two latching reads by the one field of their word. -/
theorem registerAccessCompletes : Obligations.RegisterAccessCompletes := by
  unfold Obligations.RegisterAccessCompletes
  refine ⟨?write, ?read, ?beat, ?entry⟩
  case write =>
    rintro rq off pairs s t p l rfl rfl hup hcheck hpage hbit
    exact congrArg _ (State.regWrite_ok hup hcheck hpage hbit)
  case read =>
    intro rq off n s p hup hsid hone hsixteen haligned hinside hregs hpage hstatus hopen
    exact congrArg _ (State.regRead_ok hup hsid hone hsixteen haligned hinside hregs hpage hstatus hopen)
  case beat =>
    intro rq s hup hsid
    refine congrArg _ ((State.regRead_one (p := .dev) hup hsid (by decide) (by decide) (by decide) (by decide) rfl (.inr rfl)
      s.readWord_beatLo).trans ?_)
    exact congrArg (State.complete _ _ _ _ _ · _) (leBytes_mod 4 _)
  case entry =>
    intro rq s e hup hsession hon he
    have hsid : rq.sid ≠ 0 := by
      intro h
      simp [State.sessionOpen, h] at hsession
    have hstatus : s.pageStatus .bod BOD.ENT_LO.off = 0 := by
      simp [State.pageStatus, State.deadPage, Page.unit?, hon]
    refine congrArg _ ((State.regRead_one hup (.inr hsession) (by decide) (by decide) (by decide) (by decide) hstatus
      (.inl hsid) (State.readWord_entLo he)).trans ?_)
    exact congrArg (State.complete _ _ _ _ _ · _) (leBytes_mod 4 _)

end Sys2Proof.Machine
end

section
/-! PROOFS. Settles O34, O35 and O36 (R107, R115–R123, R148, R149): the camera ports' packets and deadlines, the tunnel, and
the start of a front end frame. -/

namespace Sys2Proof.Machine

variable {s : State}

/-! ### Camera ports -/

/-- The number that the bytes of a number spell. -/
theorem leNat_leBytes (n v : Nat) : leNat (leBytes n v) = v % 256 ^ n := by
  induction n generalizing v with
  | zero => simp [leBytes, leNat, Nat.mod_one]
  | succ n ih =>
    rw [leBytes, leNat, ih, BitVec.toNat_ofNat, show 256 ^ (n + 1) = 2 ^ 8 * 256 ^ n from Nat.pow_succ', Nat.mod_mul]
    rfl

/-- A transport packet that carries a long packet takes its effect. -/
theorem State.transport_long {n : Nat} {header payload : List Byte} {crc : BitVec 16} (h : header.length = 4) :
    s.transport n (1#8 :: (header ++ payload ++ leBytes 2 crc.toNat)) = s.longPacket n header payload crc.toNat := by
  have hcode : field (1#8 :: (header ++ payload ++ leBytes 2 crc.toNat)) 0 1 = 1 := rfl
  have hbytes : (leBytes 2 crc.toNat).length = 2 := rfl
  have hcrc : leNat (leBytes 2 crc.toNat) = crc.toNat := by
    rw [leNat_leBytes]
    exact Nat.mod_eq_of_lt crc.isLt
  have hlength : (header ++ payload ++ leBytes 2 crc.toNat).length = 4 + payload.length + 2 := by
    rw [List.length_append, List.length_append, h, hbytes]
  have hhead : (header ++ payload ++ leBytes 2 crc.toNat).take 4 = header := by
    rw [List.append_assoc, ← h, List.take_left]
  have hbody : slice (header ++ payload ++ leBytes 2 crc.toNat) 4 payload.length = payload := by
    rw [slice, List.append_assoc, ← h, List.drop_left, List.take_left]
  have hcheck : field (header ++ payload ++ leBytes 2 crc.toNat) (4 + payload.length) 2 = crc.toNat := by
    rw [field, slice, ← h, ← List.length_append, List.drop_left, List.take_of_length_le (Nat.le_of_eq hbytes), hcrc]
  unfold State.transport
  dsimp only [List.drop_succ_cons, List.drop_zero]
  rw [if_neg (List.cons_ne_nil _ _), if_pos hcode, List.drop_one, List.tail_cons, hlength, if_neg (by omega), if_pos (by omega), hhead,
    show 4 + payload.length + 2 - 6 = payload.length by omega, hbody,
    show 4 + payload.length + 2 - 2 = 4 + payload.length by omega, hcheck]

/-- A transport packet of a code that no camera uses is counted. -/
theorem State.transport_unsupported {n : Nat} {code : BitVec 8} {payload : List Byte} (h1 : code.toNat ≠ 1)
    (h2 : code.toNat ≠ 2) : s.transport n (code :: payload) = s.count .cpx CPP.CNT_UNSUPP 1 n := by
  have hcode : field (code :: payload) 0 1 = code.toNat := by simp [field, slice, leNat]
  unfold State.transport
  rw [if_neg (List.cons_ne_nil _ _), hcode, if_neg h1, if_neg h2, State.orphan]

/-- Settles O34: each event under the lock, the light or the deadline it waits for. -/
theorem cameraCommandsComplete : Obligations.CameraCommandsComplete := by
  unfold Obligations.CameraCommandsComplete
  refine ⟨?lock, ?short, ?long, ?unsupported, ?row, ?frame⟩
  case lock =>
    intro s cam hon hlight hlock
    exact next_if_pos (by simp [hon, hlight, hlock])
  case short =>
    exact fun s cam vc n lineEnd row => ⟨rfl, fun hcam => ⟨next_if_pos hcam, next_if_pos hcam, next_if_pos hcam⟩⟩
  case long =>
    intro s cam header payload crc hheader hcam
    have hlong : exec (.longPacket cam header payload crc) s = .next (s.longPacket cam header payload crc.toNat) :=
      (if_pos hheader).trans (next_if_pos hcam)
    refine ⟨hlong, Eq.trans ?_ hlong.symm⟩
    exact (next_if_pos hcam).trans (congrArg _ (State.transport_long hheader))
  case unsupported =>
    exact fun s cam payload code hcam => ⟨next_if_pos hcam,
      fun h1 h2 => (next_if_pos hcam).trans (congrArg _ (State.transport_unsupported h1 h2))⟩
  case row =>
    rintro s t stream frame row r rfl hactive htriggered hrow hdue hunseen rfl
    exact next_if_pos (by simp [hactive, htriggered, hrow, hdue, hunseen])
  case frame =>
    rintro s stream frame r rfl hactive htriggered harea hdue hunopened
    exact next_if_pos (by simp [hactive, htriggered, harea, hdue, hunopened])

/-! ### The tunnel -/

/-- A frame that has been sent three times is given up. -/
theorem State.retryTunnel_spent {n : Nat} {f : TunnelFrame} (h : 3 ≤ f.tries) : s.retryTunnel n f = s.failTunnel n f :=
  if_neg fun hfits => absurd hfits.1 (Nat.not_lt.mpr h)

/-- An acknowledgement under the number of the frame that waits for one. -/
theorem State.tunnelAck_own {n status : Nat} {f : TunnelFrame} (h : (s.cam n).outstanding = some f) :
    s.tunnelAck n f.seq status =
      if status = 0 then s.confirmTunnel n f
      else if status = 3 then s.retryTunnel n f
      else if status = 1 ∨ status = 2 then s.failTunnel n f else s := by
  simp only [State.tunnelAck, h, ne_eq, not_true, if_false]

/-- Settles O35: what waits for the frame's acknowledgement, by its number and its status. -/
theorem tunnelCommandsComplete : Obligations.TunnelCommandsComplete := by
  unfold Obligations.TunnelCommandsComplete
  refine ⟨?send, fun s cam seq status f hwaits => ⟨fun hcam => ⟨?other, ?good, ?bad, ?busy⟩, fun hlate => ?timeout, ?again⟩⟩
  case send =>
    rintro s t cam d p w e f hon hnone hbeat hhead hsend rfl rfl
    simp only [exec, execTunnelSend, hnone, hhead, hsend]
    exact next_if_pos (by simp [hon, hbeat])
  case other =>
    intro hseq
    refine (next_if_pos hcam).trans (congrArg _ ?_)
    simp only [State.tunnelAck, hwaits, if_pos hseq]
  case good =>
    rintro rfl rfl
    exact (next_if_pos hcam).trans (congrArg _ (State.tunnelAck_own hwaits))
  case bad =>
    rintro rfl hstatus
    refine (next_if_pos hcam).trans (congrArg _ ((State.tunnelAck_own hwaits).trans ?_))
    rw [if_neg (by omega), if_neg (by omega), if_pos hstatus]
  case busy =>
    rintro rfl rfl
    exact (next_if_pos hcam).trans (congrArg _ (State.tunnelAck_own hwaits))
  case timeout =>
    have hretry : exec (.tunAckTmo cam) s = .next (s.retryTunnel cam f) := by
      simp only [exec, execTunAckTmo, hwaits, if_pos hlate]
    exact ⟨hretry, fun hspent => hretry.trans (congrArg _ (State.retryTunnel_spent hspent))⟩
  case again =>
    intro hon hbeat hagain
    simp only [exec, execTunnelSend, hwaits]
    exact (next_if_pos (by simp [hon, hbeat])).trans (next_if_pos hagain)

/-! ### The front end -/

/-- A context of the front end reads as it was last written. -/
theorem State.ife_setIfe {c : Nat} (hc : c < s.vision.ife.length) (x : IfeCtx) : (s.setIfe c x).ife c = x := by
  rw [State.ife, State.setIfe, List.getD_eq_getElem?_getD, List.getElem?_set_self hc]
  rfl

/-- The start of a frame writes the context once, some registers and an event. -/
theorem State.startIfeFrame_frame (s : State) (c n : Nat) :
    ∃ y : IfeCtx, s.startIfeFrame c n = { s with
        regs := (s.startIfeFrame c n).regs, events := (s.startIfeFrame c n).events, vision := (s.setIfe c y).vision }
      ∧ y.frame = some n
      ∧ y.params = ((s.ife c).queue.filter (·.due n)).foldl (fun p e => mergeBlock p e.block) (s.ife c).block
      ∧ y.queue = (s.ife c).queue.filter fun e => !(e.due n) && !(e.stale n) := by
  unfold State.startIfeFrame
  dsimp only
  apply Exists.intro
  refine ⟨?_, ?_, ?_, ?_⟩
  · split
    · rw [State.raise_frame]
      rfl
    · rfl
  all_goals rfl

/-- Settles O36: the context is written once; what follows are registers and an event. -/
theorem ifeFrameStartCompletes : Obligations.IfeFrameStartCompletes := by
  unfold Obligations.IfeFrameStartCompletes
  intro s ctx frame hpage hctx hready hlater hsized
  have hstarts : exec (.ifeFrameStart ctx frame) s = .next (s.startIfeFrame ctx frame) := by
    refine next_if_pos ?_
    cases hframe : (s.ife ctx).frame with
    | none => simp [hpage, hctx, hready]
    | some n => simp [hpage, hctx, hready, hlater n hframe]
  obtain ⟨-, -, -, -, -, hife, -⟩ := hsized
  obtain ⟨y, hframe, hnumber, hparams, hqueue⟩ := s.startIfeFrame_frame ctx frame
  have hread : (s.startIfeFrame ctx frame).ife ctx = y := by
    rw [hframe]
    exact State.ife_setIfe (by omega) y
  refine ⟨_, hstarts, ?_, ?_, ?_, ?_⟩
  · rw [hread, hnumber]
  · rw [hread, hparams]
  · rw [hread, hqueue]
  · conv_lhs => rw [hframe]
    rw [hframe]

end Sys2Proof.Machine
end

section
/-! PROOFS. Settles O37 and O38 (R231, R237, R244–R247, R262, R263, R338, R365, R368–R374): the nodes' starts, dispatch and
completion, the start of a task, and the blocks of a stream. -/

namespace Sys2Proof.Machine

variable {s : State}

/-! ### Nodes and tasks -/

/-- A pass over a list in which one element alone acts. -/
theorem foldl_acts_once {α β : Type} {f : α → β → α} {a b : α} {x : β} {l : List β} (hx : x ∈ l) (hl : l.Nodup)
    (hact : f a x = b) (ha : ∀ y ∈ l, y ≠ x → f a y = a) (hb : ∀ y ∈ l, y ≠ x → f b y = b) : l.foldl f a = b := by
  have hstays : ∀ (c : α) (k : List β), (∀ y ∈ k, f c y = c) → k.foldl f c = c := by
    intro c k hk
    induction k with
    | nil => rfl
    | cons y k ih =>
      rw [List.foldl_cons, hk y List.mem_cons_self]
      exact ih fun z hz => hk z (List.mem_cons_of_mem y hz)
  obtain ⟨pre, post, rfl⟩ := List.append_of_mem hx
  have hpre : ∀ y ∈ pre, y ≠ x := by
    rintro y hy rfl
    exact List.disjoint_of_nodup_append hl hy List.mem_cons_self
  have hpost : ∀ y ∈ post, y ≠ x := by
    rintro y hy rfl
    exact (List.nodup_cons.mp (List.Nodup.of_append_right hl)).1 hy
  rw [List.foldl_append, hstays a pre fun y hy => ha y (List.mem_append_left _ hy) (hpre y hy), List.foldl_cons, hact]
  exact hstays b post fun y hy => hb y (List.mem_append_right _ (List.mem_cons_of_mem _ hy)) (hpost y hy)

/-- A node's restart leaves every other core. -/
theorem State.restart_core {u k : Nat} {n : CoreNode} (h : k ≠ u) : (s.restart u n).core k = s.core k := by
  rw [State.restart, State.setSlot, State.setCore, State.core]
  simp only [List.getD_eq_getElem?_getD, List.getElem?_set_ne h.symm, State.count_fabric, State.faultRec_fabric]
  rw [State.core, List.getD_eq_getElem?_getD]

/-- A rerun where one core alone holds a node, and that node needs it. -/
theorem execRerunStart_only {node u : Nat} {n : CoreNode} (hu : u < 24) (hnodes : (s.core u).nodes = [n])
    (hlocked : n.locked = true) (hnode : n.node = node) (hreran : n.reran = false) (hmay : n.noRerun = false)
    (hneeds : n.needsRerun = true) (hothers : ∀ k, k ≠ u → (s.core k).nodes = []) :
    execRerunStart node s = .next (s.restart u n) := by
  rw [execRerunStart, foldl_acts_once (x := u) (b := s.restart u n) (List.mem_range.mpr hu) List.nodup_range ?_ ?_ ?_]
  · simp only [hnodes, List.foldl_cons, List.foldl_nil, hlocked, hnode, hreran, hmay, hneeds, Bool.not_true, Bool.false_eq_true,
      ne_eq, not_true, decide_false, Bool.or_false, if_false, if_true]
  · intro k _ hk
    simp only [hothers k hk, List.foldl_nil]
  · intro k _ hk
    simp only [State.restart_core hk, hothers k hk, List.foldl_nil]

/-- A job whose task passes its checks starts. -/
theorem State.takeJob_starts {j : Job} {skipped : List Job} {ctx c : Nat} {k : Task}
    (hgood : s.taskBad (s.jobDesc j) = false) (hk : k = s.taskOf j (s.jobDesc j) ctx c)
    (hnodes : (k.nodes.any (({ s.leaveIntake j skipped with amt := { (s.leaveIntake j skipped).amt with
      tasks := (s.leaveIntake j skipped).amt.tasks ++ [k] } } : State).openNodeBad ctx c)) = false)
    (hpolicy : s.policyBad j c k.nodes = false) (hsettings : s.settingsLocked c k.settings k.nodes = false) :
    s.takeJob j skipped ctx c = ((s.leaveIntake j skipped).startTask k (s.jobDesc j)).grantVc2 := by
  subst hk
  unfold State.takeJob
  simp only [hgood, hnodes, hpolicy, hsettings, Bool.false_eq_true, if_false, Bool.or_false]

/-- Settles O37: each command by the node or job it finds. -/
theorem nodeCommandsComplete : Obligations.NodeCommandsComplete := by
  unfold Obligations.NodeCommandsComplete
  refine ⟨?start, ?flag, ?rerun, ?dispatch, ?complete, ?task⟩
  case start =>
    intro s node strip r d x hrun
    refine ⟨fun hcls => ?_, fun hcls => ?_⟩
    · simp only [exec, execNodeStartClock, hrun, if_neg hcls]
    · simp only [exec, execRecordWrite, hrun, if_pos hcls]
  case flag =>
    intro s node strip finished line r d x n hrun hfound
    simp only [exec, execNodeFlagClock, hrun, hfound]
  case rerun => exact fun s node u n hu hnodes hlocked hnode hreran hmay hneeds hothers =>
    execRerunStart_only hu hnodes hlocked hnode hreran hmay hneeds hothers
  case dispatch =>
    rintro s t u c r l k d rfl hopen hempty hwiping hready htask hnode hengines rfl
    have hfree : ((List.range 4).find? fun k => (s.slotNode u.val k).isNone) = some 0 := by
      simp [State.slotNode, hempty, List.range_succ]
    have hgo : ¬ ((!s.coreOpen u.val) = true ∨ 4 ≤ (s.core u.val).nodes.length
        ∨ (s.fabric.wiping.any fun g => if g.inCmem then g.owner = u.val / 4 else g.owner = u.val) = true) := by
      simp only [hopen, hempty, hwiping, List.length_nil]
      decide
    simp only [exec, execNodeDispatch, if_neg hgo, hready, List.find?_cons, htask, Option.bind_some, hnode, hengines,
      decide_true, hfree]
    exact ⟨_, rfl, rfl, rfl, rfl, rfl, rfl, rfl⟩
  case complete =>
    intro s u slot line n d hslot hdesc hopen htensor hfinished
    simp only [exec, execNodeComplete, hslot, hdesc, hopen, htensor, hfinished]
    rfl
  case task =>
    rintro s t j skipped ctx c b k htakes hpick rfl hgood hk rfl hnodes hpolicy hsettings
    simp only [exec, execTaskStart, htakes, hpick, Bool.not_true, Bool.false_eq_true, if_false]
    exact congrArg _ (State.takeJob_starts hgood hk hnodes hpolicy hsettings)

/-! ### Streams -/

/-- A block that arrives for a locked channel lands in its ring. -/
theorem State.lockedBlock_lands {c : Channel} {l : StreamList} {b : Block} {r : RingRef} (hb : b = s.blockAt l c.pos)
    (hin : s.chanIn c.unit c.number = true) (hr : r = s.chanRing c.unit c.number)
    (hroom : s.ringGap r (s.ringH r) (s.ringT r) < s.ringN r) (hwindows : (b.runs.any fun x => !s.inWindows x.1 x.2) = false)
    (hgood : s.badIn b.runs = none) : s.lockedBlock c l = s.landBlock c (s.gatherBytes b.runs) := by
  subst hb hr
  unfold State.lockedBlock
  simp only [hin, if_true, Nat.not_le.mpr hroom, if_false, hwindows, Bool.false_eq_true, hgood]

/-- Settles O38: each event by the channel it finds. -/
theorem streamCommandsComplete : Obligations.StreamCommandsComplete := by
  unfold Obligations.StreamCommandsComplete
  refine ⟨?block, ?late, ?walk, ?fault⟩
  case block =>
    rintro s u ch c l rfl hactive hon hstalled hwaits
    have hmoves : ¬ (s.rd (.str u.val) STR.EN ch.val = 0 ∨ (s.chan u.val ch.val).stalled.isSome = true
        ∨ s.chanWaits (s.chan u.val ch.val) = true) := by
      simp [hon, hstalled, hwaits]
    have hlocked (hctx : (s.chan u.val ch.val).ctx = none) :
        exec (.streamBlockDone u ch) s = .next (s.lockedBlock (s.chan u.val ch.val) l) := by
      simp only [exec, execStreamBlockDone, hactive, if_neg hmoves]
      exact next_if_pos (by rw [hctx]; rfl)
    refine ⟨fun b r hctx hb hin hr hroom hwindows hgood => ?_, hlocked, fun k hctx hheld => ?_⟩
    · exact (hlocked hctx).trans (congrArg _ (State.lockedBlock_lands hb hin hr hroom hwindows hgood))
    · simp only [exec, execStreamBlockDone, hactive, if_neg hmoves, hheld]
      exact next_if_neg (by simp [hctx])
  case late =>
    rintro s t u ch c l r rfl hactive hctx rfl rfl
    simp only [exec, execStreamLate, hactive, hctx]
  case walk =>
    rintro s t u ch c l ctx b x rfl hactive hctx hstalled hwalked rfl hvalid
    refine ⟨fun hwalk => ?_, fun f hwalk => ?_⟩ <;>
      simp only [exec, execMmuWalkDone, hactive, hctx, hstalled, hwalked, hvalid, hwalk, Option.isSome_none, Bool.not_false,
        Bool.false_eq_true, if_false, if_true]
  case fault =>
    rintro s u ch c a code since b rfl hstalled hdue rfl
    simp only [exec, execPfWaitExpire, hstalled]
    exact next_if_neg (Nat.not_lt.mpr hdue)

end Sys2Proof.Machine
end

section
/-! PROOFS. Settles O39 and O40 (R65, R71, R72, R327, R345–R347, R359–R362, R390, R466): the events of memory, of shadows and
of blocks in reset. -/

namespace Sys2Proof.Machine

variable {s : State}

/-! ### Memory -/

/-- The directory after one entry has been written. -/
def bodWith (m : List (Nat × Nat)) (e : Nat × Nat) : List (Nat × Nat) :=
  if e.2 = 0 then m.filter (·.1 ≠ e.1) else assocSet e.1 e.2 m

/-- Entries written one after the other change the directory alone. -/
theorem State.foldl_bodStore (l : List (Nat × Nat)) (s : State) :
    l.foldl (fun s e => s.bodStore e.1 e.2) s =
      { s with fabric := { s.fabric with bod := l.foldl bodWith s.fabric.bod } } := by
  induction l generalizing s with
  | nil => rfl
  | cons e l ih => rw [List.foldl_cons, ih]; rfl

/-- The entries that a bulk load reads. -/
def BulkLoad.entries (b : BulkLoad) (s : State) : List (Nat × Nat) :=
  (List.range b.count).map fun i => (b.first + i, s.loadNat (b.addr + 8 * i) 8)

/-- A bulk load whose bytes and entries pass writes them all. -/
theorem execBulkDone_ok {b : BulkLoad} (hbulk : s.fabric.bulk = some b) (hmem : s.openGddr b.addr (8 * b.count) = true)
    (hgood : s.badIn [(b.addr, 8 * b.count)] = none)
    (hentries : ∀ i, i < b.count → s.bodRefused (b.first + i) (s.loadNat (b.addr + 8 * i) 8) = false) :
    execBulkDone s = .next ((b.entries s).foldl (fun s e => s.bodStore e.1 e.2)
      (((({ s with fabric := { s.fabric with bulk := none } } : State).wr .bod BOD.BULK_BUSY 0).wr .bod BOD.BULK_STATUS 0).raise
        .bod 0)) := by
  have haccepted : ((b.entries s).any fun e => s.bodRefused e.1 e.2) = false := by
    simpa [BulkLoad.entries] using hentries
  unfold BulkLoad.entries at haccepted
  simp only [execBulkDone, hbulk, hmem, hgood, haccepted, Bool.not_true, Option.isSome_none, Bool.false_eq_true, if_false, if_true]
  rfl

/-- Settles O39: each event by what it finds in the fabric. -/
theorem memoryEventsComplete : Obligations.MemoryEventsComplete := by
  unfold Obligations.MemoryEventsComplete
  refine ⟨?capture, ?log, ?wipe, ?bulk, ?access, ?margin⟩
  case capture =>
    intro s c hcapture
    simp only [exec, execPmCaptureDone, hcapture]
    exact ⟨_, rfl, rfl, rfl, rfl, rfl⟩
  case log =>
    intro s b l base size hbuffer hring hon hready
    have hwrites : ¬ (s.rd .dig DIG.LOG_EN = 0 ∨ (!s.domainReady (35 + base / 2 ^ 33)) = true) := by
      rw [hon, hready]
      decide
    simp only [exec, execDigLogWrite, hbuffer, hring]
    exact ⟨_, next_if_neg hwrites, rfl, rfl, rfl⟩
  case wipe =>
    intro s arr seg g hg hwiping hheld hwf
    have hdue : g ∈ s.fabric.wiping ∧ (!s.wipeHeld g) = true := ⟨hwiping, by rw [hheld, Bool.not_false]⟩
    have hdone : exec (.segmentWipeDone arr seg) s = .next
        (({ s with fabric := { s.fabric with wiping := setErase g s.fabric.wiping } } : State).wipe g.addr 65536) := by
      subst hg
      cases arr <;> exact next_if_pos hdue
    exact ⟨_, hdone, rfl, rfl, fun a => memGet_memWipe hwf _ _ a⟩
  case bulk =>
    intro s b hbulk hmem hgood hentries
    refine ⟨_, execBulkDone_ok hbulk hmem hgood hentries, ?_⟩
    rw [State.foldl_bodStore, State.raise_frame]
    refine ⟨rfl, rfl, rfl, ?_⟩
    have hfold := State.foldl_bodStore (b.entries s) s
    rw [BulkLoad.entries, List.foldl_map] at hfold
    rw [hfold]
    rfl
  case access =>
    rintro s a write reader line hgddr rfl
    refine ⟨?_, fun hecc => ?_⟩
    · exact (next_if_neg (by simp [hgddr])).trans ((next_if_neg (by decide)).trans (next_if_pos (.inr (.inr rfl))))
    · refine (next_if_neg (by simp [hgddr])).trans ((next_if_neg (by decide)).trans ((next_if_neg ?_).trans
        ((next_if_pos rfl).trans (next_if_pos rfl))))
      rw [hecc]
      decide
  case margin =>
    intro s ch margin hready
    have hon : ¬ ((!s.domainReady (35 + ch.val / 8)) = true) := by simp [hready]
    exact ⟨fun hfine => (next_if_neg hon).trans (next_if_neg (Nat.not_lt.mpr hfine)),
      fun hlow => (next_if_neg hon).trans (next_if_pos hlow)⟩

/-! ### Shadows and blocks in reset -/

/-- Settles O40: a context's commit by what still waits on its page; a reset by what its block reports. -/
theorem blockCommandsComplete : Obligations.BlockCommandsComplete := by
  unfold Obligations.BlockCommandsComplete
  refine ⟨?commit, fun s page p r clocks hpage hresets hnum => ⟨?idle, ?forced, ?done⟩⟩
  case commit =>
    rintro s t page ctx p hpage hwaits rfl hmore
    simp only [exec, execCommitApply, hpage, State.applyCommit, hwaits, decide_true, Bool.not_true, Bool.false_eq_true, if_false]
    exact next_if_pos hmore
  case idle =>
    intro hdone
    refine (next_if_pos (by simp [hresets, hnum, hdone])).trans ?_
    simp only [State.setReset, hresets, List.map_cons, List.map_nil, if_pos hnum]
  case forced =>
    rintro c t hdone hclass hlate rfl
    have hfound : s.resets.find? (fun r => r.page = page.toNat && !r.done) = some r := by
      rw [hresets]
      exact List.find?_cons_of_pos (by simp [hnum, hdone])
    simp only [exec, execBlkResetForced, hfound, hpage, hclass]
    refine (next_if_neg (Nat.not_lt.mpr hlate)).trans ?_
    simp only [State.setReset, hresets, List.map_cons, List.map_nil, if_pos hnum]
  case done =>
    intro hdone hon hgroup
    have hfound : s.resets.find? (fun r => r.page = page.toNat && r.done) = some r := by
      rw [hresets]
      exact List.find?_cons_of_pos (by simp [hnum, hdone])
    have hothers : s.resets.filter (fun x => x.page ≠ page.toNat) = [] := by
      rw [hresets]
      exact List.filter_cons_of_neg (by simp [hnum])
    simp only [exec, execBlkResetDone, hfound, hpage, hothers, hon, hgroup, Bool.false_eq_true, if_false]

end Sys2Proof.Machine
end

section
/-! PROOFS. Settles O41, O42 and O43 (R242, R244, R260–R284, R302, R313, R323–R325, R339–R343): tensor commands that may run,
and the control commands of a core. -/

namespace Sys2Proof.Machine

variable {s : State} {x : Issue}

/-! ### Commands that may run -/

/-- A command that may run and meets no memory error runs on its rings as they stand. -/
theorem State.MayRun.issueRow {u slot cls op : Nat} (h : s.MayRun u slot cls op x) :
    s.issueRow cls op u slot .clean = s.execCmd x := by
  obtain ⟨hissue, hvalid, hcls, hop, hmemory, hpoison, hwaits, hfilled, hroom⟩ := h
  have hrow : ¬ (x.c.cls ≠ cls ∨ x.c.op ≠ op ∨ s.meetsWipe x = true) := by simp [hcls, hop, hmemory]
  unfold State.issueRow State.runOnRings
  simp only [hissue, hvalid, if_neg hrow, hpoison, Bool.false_eq_true, if_false, hwaits, hfilled, hroom, and_self, if_true]

/-- A command whose effect cannot fault is counted. -/
theorem State.execCmd_ran {t : State} (h : s.runCmd x = (t, none)) : s.execCmd x = t.ranCmd x := by
  simp only [State.execCmd, h]

/-! The effect of a command by its class (R267). -/

/-- A matrix command. -/
theorem State.runCmd_mxe (h : x.c.cls = 1 ∨ x.c.cls = 2) : s.runCmd x = (s.runMxe x, none) :=
  if_pos (by simpa [Cmd.mxe] using h)

/-- An element-wise command. -/
theorem State.runCmd_eltwise (h : x.c.cls = 3) : s.runCmd x = (s.runEltwise x, none) := by simp [State.runCmd, Cmd.mxe, h]

/-- A reduction. -/
theorem State.runCmd_reduce (h : x.c.cls = 4) : s.runCmd x = (s.runReduce x, none) := by simp [State.runCmd, Cmd.mxe, h]

/-- A table command. -/
theorem State.runCmd_lut (h : x.c.cls = 5) : s.runCmd x = (s.runLut x, none) := by simp [State.runCmd, Cmd.mxe, h]

/-- A norm or a softmax. -/
theorem State.runCmd_linewise (h : x.c.cls = 6 ∨ x.c.cls = 7) : s.runCmd x = (s.runLinewise x, none) := by
  rcases h with h | h <;> simp [State.runCmd, Cmd.mxe, h]

/-- A gather. -/
theorem State.runCmd_gather (h : x.c.cls = 8) (hop : x.c.op = 0) : s.runCmd x = s.runGather x := by
  simp [State.runCmd, Cmd.mxe, h, hop]

/-- A scatter. -/
theorem State.runCmd_scatter (h : x.c.cls = 8) (hop : x.c.op = 1) : s.runCmd x = s.runScatter x := by
  simp [State.runCmd, Cmd.mxe, h, hop]

/-- A transposition or permutation. -/
theorem State.runCmd_permute (h : x.c.cls = 9) : s.runCmd x = (s.runPermute x, none) := by simp [State.runCmd, Cmd.mxe, h]

/-- A conversion. -/
theorem State.runCmd_convert (h : x.c.cls = 10) : s.runCmd x = (s.runConvert x, none) := by simp [State.runCmd, Cmd.mxe, h]

/-- A copy. -/
theorem State.runCmd_copy (h : x.c.cls = 11) : s.runCmd x = s.runCopy x := by simp [State.runCmd, Cmd.mxe, h]

/-- A command of the table's row that may run, once its class's effect is known. -/
theorem State.MayRun.row {u slot cls op : Nat} {t : State} (h : s.MayRun u slot cls op x)
    (ht : s.runCmd x = (t, none)) : s.issueRow cls op u slot .clean = t.ranCmd x :=
  h.issueRow.trans (State.execCmd_ran ht)

/-- The same of a command whose effect may meet a fault. -/
theorem State.MayRun.row_faulting {u slot cls op : Nat} {t : State} {f : Option CmdFault} (h : s.MayRun u slot cls op x)
    (ht : s.runCmd x = (t, f)) :
    s.issueRow cls op u slot .clean = f.elim (t.ranCmd x) (t.endChain x) := by
  rw [h.issueRow, State.execCmd, ht]
  cases f <;> rfl

/-- Settles O41: each row issues its class and operation, and the class names the effect. -/
theorem tensorComputesComplete : Obligations.TensorComputesComplete := by
  unfold Obligations.TensorComputesComplete
  refine fun s u slot x => ⟨?matmul, ?conv, ?eltwise, ?reduce, ?lut, ?norm, ?softmax⟩
  case matmul => exact fun h => congrArg _ (h.row (State.runCmd_mxe (.inl h.cls)))
  case conv => exact fun h => congrArg _ (h.row (State.runCmd_mxe (.inr h.cls)))
  case eltwise =>
    intro p hp h
    have hrow : exec p.2 s = .next (s.issueRow 3 p.1 u.val slot .clean) := by fin_cases hp <;> rfl
    exact hrow.trans (congrArg _ (h.row (State.runCmd_eltwise h.cls)))
  case reduce =>
    intro p hp h
    have hrow : exec p.2 s = .next (s.issueRow 4 p.1 u.val slot .clean) := by fin_cases hp <;> rfl
    exact hrow.trans (congrArg _ (h.row (State.runCmd_reduce h.cls)))
  case lut =>
    intro p hp h
    have hrow : exec p.2 s = .next (s.issueRow 5 p.1 u.val slot .clean) := by fin_cases hp <;> rfl
    exact hrow.trans (congrArg _ (h.row (State.runCmd_lut h.cls)))
  case norm =>
    intro p hp h
    have hrow : exec p.2 s = .next (s.issueRow 6 p.1 u.val slot .clean) := by fin_cases hp <;> rfl
    exact hrow.trans (congrArg _ (h.row (State.runCmd_linewise (.inl h.cls))))
  case softmax =>
    intro p hp h
    have hrow : exec p.2 s = .next (s.issueRow 7 p.1 u.val slot .clean) := by fin_cases hp <;> rfl
    exact hrow.trans (congrArg _ (h.row (State.runCmd_linewise (.inr h.cls))))

/-- Settles O42: a move's fault ends its chain, and without one the command is counted. -/
theorem tensorMovesComplete : Obligations.TensorMovesComplete := by
  unfold Obligations.TensorMovesComplete
  refine fun s t u slot x => ⟨?transpose, ?permute, ?convert, ?gather, ?scatter, ?copy⟩
  case transpose => exact fun h => congrArg _ (h.row (State.runCmd_permute h.cls))
  case permute => exact fun h => congrArg _ (h.row (State.runCmd_permute h.cls))
  case convert => exact fun h => congrArg _ (h.row (State.runCmd_convert h.cls))
  case gather =>
    intro f h hruns
    refine congrArg _ ((h.row_faulting ((State.runCmd_gather h.cls h.op).trans hruns)).trans ?_)
    cases f <;> rfl
  case scatter =>
    intro f h hruns
    refine congrArg _ ((h.row_faulting ((State.runCmd_scatter h.cls h.op).trans hruns)).trans ?_)
    cases f <;> rfl
  case copy =>
    intro f h hruns
    refine congrArg _ ((h.row_faulting ((State.runCmd_copy h.cls).trans hruns)).trans ?_)
    cases f <;> rfl

/-! ### The control commands -/

/-- A control command that may run has its row's effect. -/
theorem State.MayRun.issueSync {u slot op : Nat} {act : Issue → State → State} (h : s.MayRun u slot 12 op x) :
    s.issueSync op u slot act = (act x s).ranCmd x := by
  obtain ⟨hissue, hvalid, hcls, hop, -, -, hwaits, -, -⟩ := h
  have hrow : ¬ (x.c.cls ≠ 0xC ∨ x.c.op ≠ op) := by simp [hcls, hop]
  simp only [State.issueSync, hissue, hvalid, if_neg hrow, hwaits]

/-- Settles O43: each control command, and each event of a core, by the node it finds. -/
theorem tensorControlCompletes : Obligations.TensorControlCompletes := by
  unfold Obligations.TensorControlCompletes
  refine ⟨?flag, ?decrement, ?fence, ?chain, ?combine, ?rerun, ?ring⟩
  case flag =>
    rintro s u slot x k h rfl hopen hnumber hfree
    refine congrArg _ (h.issueSync.trans (congrArg (State.ranCmd · x) ?_))
    exact (if_neg (by simp [hopen])).trans (if_neg (by simp [hnumber, hfree]))
  case decrement =>
    intro s u slot x t h hopen htask
    refine congrArg _ (h.issueSync.trans (congrArg (State.ranCmd · x) ?_))
    simp only [hopen, htask, Bool.false_eq_true, if_false]
  case fence => exact fun s u slot x h => congrArg _ h.issueSync
  case chain =>
    intro s u slot n d c hslot hbusy hstage hwritten hdesc hcmd
    have hends : ¬ ((!n.busy || n.stage.isSome || s.stillWriting u.val n) = true) := by simp [hbusy, hstage, hwritten]
    refine ⟨fun hlocked => ?_, fun hopen => ?_⟩
    · simp only [exec, execChainComplete, hslot, if_neg hends, hdesc, Option.bind_some, hcmd, hlocked]
    · simp only [exec, execChainComplete, hslot, if_neg hends, hdesc, Option.bind_some, hcmd, hopen]
  case combine =>
    rintro s t clu c k d hcombine htask hcluster hfirst rfl rfl
    simp only [exec, execOrderedCombine, hcombine, List.filter_cons, List.filter_nil, htask, hcluster, hfirst, decide_true,
      Bool.not_false, Bool.and_self, if_true, List.foldl_cons, List.foldl_nil, List.erase_cons_head]
  case rerun =>
    intro s u slot n hslot hopen hneeds
    simp only [exec, execOpenRerun, hslot]
    exact next_if_pos (by simp [hopen, hneeds])
  case ring =>
    intro s u slot n d c r hslot hwaiting hdesc hcmd
    refine ⟨?_, ?_⟩
    · simp only [exec, execRingWaitRelease, hslot, hwaiting, hdesc, hcmd]
      exact next_if_neg (by simp)
    · rintro p rfl hlate hheld
      simp only [exec, execRingWatchdog, hslot, hwaiting]
      exact next_if_neg (by simp [hlate, hheld])

end Sys2Proof.Machine
end

section
/-! PROOFS. Settles O44 and O45 (R336, R421–R428, R441–R454): the self-tests' and scrubbers' events, and the ends of the
management core's work. -/

namespace Sys2Proof.Machine

/-! ### Self-tests and scrubbers -/

/-- Settles O44: a quantum, an interval or a pass by the test or the scrubber it belongs to. -/
theorem selfTestCompletes : Obligations.SelfTestCompletes := by
  unfold Obligations.SelfTestCompletes
  refine ⟨?quantum, ?interval, ?scrub⟩
  case quantum =>
    rintro s inst test x r htest hon rfl
    have hworks : ¬ ((!s.instOn inst) = true) := by simp [hon]
    refine ⟨fun honce hmore => ?_, fun honce hlast => ?_, fun honce => ?_, fun htwice => ?_, fun hfew => ?_, fun hmany => ?_⟩
    · simp only [exec, execRspQuantumEnd, htest, if_neg hworks, honce, Nat.not_le.mpr hmore, Bool.not_true, Bool.false_eq_true,
        if_false]
    · simp only [exec, execRspQuantumEnd, htest, if_neg hworks, honce, if_pos hlast, Bool.not_true, Bool.false_eq_true, if_false]
    · simp only [exec, execRspQuantumEnd, htest, if_neg hworks, honce, Bool.not_false, Bool.false_eq_true, if_true, if_false]
    · simp only [exec, execRspQuantumEnd, htest, if_neg hworks, htwice, Bool.not_false, if_true]
    · simp only [exec, execQuantumCut, htest, if_neg hworks]
      exact next_if_neg (by omega)
    · simp only [exec, execQuantumCut, htest, if_neg hworks]
      exact next_if_pos (by omega)
  case interval =>
    intro s inst test b x y htest hlast
    refine ⟨fun hfirst hlate => ?_, fun hfirst hlate hy => ?_⟩
    · simp only [exec, execDiMissed, htest, hlast]
      exact next_if_neg (by simp [hfirst, hlate])
    · subst hy
      simp only [exec, execDiExpired, htest, hlast]
      exact next_if_neg (by simp [hfirst, hlate])
  case scrub =>
    rintro s arr x hon rfl
    refine ⟨fun hfirst => next_if_neg (by simp [hon, hfirst]), ?_⟩
    rintro u beats n t rfl hpace rfl
    simp only [exec, execScrubPass, hon, Bool.not_true, Bool.false_eq_true, if_false, List.filter_nil, List.foldl_nil,
      Nat.not_lt.mpr hpace, decide_false, List.length_nil]

/-! ### The management core -/

/-- A store command that ends, with its result. -/
theorem execStoreDone_of {s : State} {c : StoreCmd} (h : s.mgc.storeCmd = some c) :
    execStoreDone s =
      let t : State := { s with mgc := { s.mgc with storeCmd := none } }
      let u := ((if c.result = 0 then t.setStore (t.mgc.store.program c) else t.fault .mgc 0x8030).wr .mgc MGC.STORE_BUSY 0).wr
        .mgc MGC.STORE_RESULT c.result
      .next (((u.wr .mgc MGC.FW_FLOOR u.mgc.store.keyBlock.fwFloor).audit 0x30 c.role c.port c.result
        (leBytes 1 c.cmd ++ leBytes 1 c.slot ++ zeros 2 ++ sha256 c.image)).raise .mgc 1) := by
  simp only [execStoreDone, h]
  rfl

/-- Settles O45: each end by the work that was open. -/
theorem managementEventsComplete : Obligations.ManagementEventsComplete := by
  unfold Obligations.ManagementEventsComplete
  refine ⟨?program, ?drain, ?store, ?attest, ?copy, ?change⟩
  case program =>
    rintro s t e r hqueue rfl
    cases hticket : e.ticket <;> simp only [exec, execAuditProgramDone, hqueue, hticket]
  case drain =>
    intro s hready hlost
    refine (next_if_pos hready).trans ?_
    simp only [State.drainLost, hlost, if_true]
  case store =>
    rintro s t u c hcmd rfl rfl
    exact execStoreDone_of hcmd
  case attest =>
    rintro s t u a sig hopen hnone hblock hmem rfl
    simp only [exec, execAttDone, hopen, hnone, hblock, if_pos hmem, Bool.false_eq_true, if_false]
  case copy =>
    rintro s t c hcopy rfl hmem
    simp only [exec, execAudDone, hcopy, if_pos hmem]
  case change =>
    rintro s t c hchange rfl
    simp only [exec, execLcChanged, hchange]

end Sys2Proof.Machine
end

section
/-! PROOFS. Settles O46, O47 and O48 (R11, R20–R22, R248–R255, R395–R413): the Armature's events, the record's latch and
emission, and the downlink frames. -/

namespace Sys2Proof.Machine

/-! ### The Armature -/

/-- Settles O46: each event by the operation that waits for it. -/
theorem armatureEventsComplete : Obligations.ArmatureEventsComplete := by
  unfold Obligations.ArmatureEventsComplete
  refine ⟨?load, ?start, ?stop, ?swap, ?expire, ?fallback⟩
  case load =>
    rintro s t l p hload rfl rfl
    refine ⟨fun hgood => ?_, fun c sec node hbad => ?_⟩
    · simp only [exec, execLoadEnd, hload, hgood]
    · simp only [exec, execLoadEnd, hload, hbad]
  case start =>
    rintro s t b e m p hop hmaquette hdue hphase hlists hentry hrunning rfl
    simp only [exec, execAdmitBegin, hop, hmaquette, hentry, hrunning]
    exact next_if_neg (by simp [hdue, hphase, hlists])
  case stop =>
    rintro s t b r hop hrunning hdue hphase rfl
    simp only [exec, execStopEffect, hop, hrunning]
    exact next_if_neg (by simp [hdue, hphase])
  case swap =>
    rintro s t w e m p r old rfl hmaquette hrunning hswaps hphase hentry rfl rfl
    simp only [exec, execCleanBoundary, hmaquette, hrunning, hentry]
    exact next_if_neg (by simp [hswaps, hphase])
  case expire =>
    intro s c b hop hlate
    simp only [exec, execSwapWaitExpire, hop]
    exact next_if_pos hlate
  case fallback =>
    intro s m r hretiring hrunning hheld
    refine ⟨fun hopen hdue => ?_, ?_⟩
    · simp only [exec, execFallbackAbort, hretiring, hrunning]
      exact ⟨_, next_if_neg (by simp [hopen, hheld, Nat.not_lt.mpr hdue]), rfl⟩
    · rintro hdue hphase t rfl
      refine ⟨fun e hentry hmoves => ?_, fun hentry => ?_⟩
      · simp only [exec, execFallbackEntered, hretiring, hrunning, hheld, hentry, if_neg hmoves, Bool.false_eq_true, if_false]
        exact next_if_neg (by simp [hphase, Nat.not_lt.mpr hdue])
      · simp only [exec, execFallbackEntered, hretiring, hrunning, hheld, hentry, Bool.false_eq_true, if_false]
        exact next_if_neg (by simp [hphase, Nat.not_lt.mpr hdue])

/-! ### Records -/

/-- Frames sent on both uplinks are added to what has been sent. -/
theorem State.foldl_emitSl (l : List (List Byte)) (s : State) :
    l.foldl (fun s f => s.emitSl f) s = { s with wire := (l.foldl (fun s f => s.emitSl f) s).wire } := by
  induction l generalizing s with
  | nil => rfl
  | cons f l ih => rw [List.foldl_cons, ih]; rfl

/-- The fault window where no acknowledgement waits: as many fault frames as fit. -/
theorem execFaultWindow_faults {s : State} (hphase : s.time.phase = .emitted) (hopen : s.time.windowDone = false)
    (hacks : s.plinth.acks = []) {l : List (List Byte)} {n : Nat}
    (hl : l = (s.plinth.faultQ.take 4).map fun f => slFrame 2 f.bytes) (hn : n = (fitFrames 300 l).1) :
    execFaultWindow s = .next ((({ s with
      plinth := { s.plinth with faultQ := s.plinth.faultQ.drop n }
      time := { s.time with windowDone := true }
      wire := ((l.take n).foldl (fun s f => s.emitSl f) s).wire } : State).copyRecord 0).copyRecord 1) := by
  subst hl hn
  have hgo : ¬ (s.time.phase ≠ .emitted ∨ s.time.windowDone = true) := by simp [hphase, hopen]
  have hnone : s.plinth.acks.map (·.frame) = [] := by rw [hacks, List.map_nil]
  simp only [execFaultWindow, if_neg hgo, hnone, fitFrames, List.length_nil, Nat.lt_irrefl, if_false, List.take_nil,
    List.nil_append]
  rw [State.foldl_emitSl]
  rfl

/-- Settles O47: the record, its frames and its window. -/
theorem recordCommandsComplete : Obligations.RecordCommandsComplete := by
  unfold Obligations.RecordCommandsComplete
  refine ⟨?latch, ?emit, ?window, ?mark⟩
  case latch =>
    rintro s t u k b e under reason rfl hon hphase hfirst hdue heval rfl rfl rfl
    simp only [exec, execRecordLatch, heval, hfirst, if_true]
    refine ⟨_, _, next_if_neg (by simp [hon, hphase, hdue]), rfl, rfl, rfl⟩
  case emit =>
    rintro s t r hlatched hphase rfl
    simp only [exec, execRecordEmit, hlatched]
    exact next_if_neg (by simp [hphase])
  case window =>
    intro s hphase hopen hacks
    exact ⟨_, _, _, execFaultWindow_faults hphase hopen hacks rfl rfl, rfl, rfl, rfl, rfl, rfl⟩
  case mark =>
    intro s m l hmarks hon hsent
    simp only [exec, execSafeMark, hmarks]
    exact next_if_neg (by simp [hon, hsent])

/-! ### The downlink -/

variable {s : State} {port stamp : Nat} {frame : List Byte}

/-- A frame that fails its check is counted. -/
theorem State.downlink_bad (hon : s.power.checkPassed = true) (hlight : (s.rd .pln PLN.SL_LOS).testBit port = false)
    (hframe : downFrame frame = none) :
    s.downlink port stamp frame = s.count .pln (if port = 0 then PLN.CNT_SL0_CRC else PLN.CNT_SL1_CRC) := by
  unfold State.downlink
  rw [if_neg (by simp only [hon, hlight]; decide)]
  simp only [hframe]

/-- A frame that passes its check is used or acted on. -/
theorem State.downlink_good {t : Nat} {b : List Byte} (hon : s.power.checkPassed = true)
    (hlight : (s.rd .pln PLN.SL_LOS).testBit port = false) (hframe : downFrame frame = some (t, b)) :
    s.downlink port stamp frame = if t ≤ 0x12 then s.useFrame port stamp t b else s.slCommand port t b := by
  unfold State.downlink
  rw [if_neg (by simp only [hon, hlight]; decide)]
  simp only [hframe]

/-- Settles O48: a frame by its check, its type and its number. -/
theorem downlinkCommandsComplete : Obligations.DownlinkCommandsComplete := by
  unfold Obligations.DownlinkCommandsComplete
  refine ⟨?bad, fun s t port aon k seq frame b hon hlight hframe hseq => ⟨?used, ?command⟩⟩
  case bad =>
    intro s port aon frame hon hlight hframe c hc
    rcases hc with rfl | rfl | rfl | rfl <;> exact congrArg _ (State.downlink_bad hon hlight hframe)
  case used =>
    rintro - hlater rfl
    subst hseq
    refine ⟨?_, ?_⟩
    · rintro rfl
      exact congrArg _ ((State.downlink_good hon hlight hframe).trans ((if_pos (by decide)).trans (if_pos hlater)))
    · rintro rfl
      exact congrArg _ ((State.downlink_good hon hlight hframe).trans ((if_pos (by decide)).trans (if_pos hlater)))
  case command =>
    rintro hnew rfl
    subst hseq
    have hacts : ¬ ((!s.cmdNew (field b 1 2)) = true) := by simp [hnew]
    refine ⟨?_, ?_⟩
    · rintro rfl
      refine congrArg _ ((State.downlink_good hon hlight hframe).trans ((if_neg (by decide)).trans ?_))
      exact (if_neg hacts).trans (if_pos rfl)
    · rintro rfl
      have hclear : exec (.clear port frame) s = .next (s.slCommand port 0x14 b) :=
        congrArg _ ((State.downlink_good hon hlight hframe).trans (if_neg (by decide)))
      exact ⟨_, _, hclear, rfl, (if_neg hacts).trans (if_neg (by decide))⟩

end Sys2Proof.Machine
end
